-- ==== Sys2Proof/Word.lean ====
section
/-! DEFINITION. The plainest types of the model: bytes, byte strings, 64-bit words. -/

namespace Sys2Proof

/-- One byte (00 R2). -/
abbrev Byte := BitVec 8

/-- A byte string, lowest address first. -/
abbrev Bytes := List Byte

/-- A 64-bit word. -/
abbrev Word := BitVec 64

/-- A Boolean as a number, for fields of one bit. -/
def Bool.asNat (b : Bool) : Nat := if b then 1 else 0

end Sys2Proof
end

