-- ==== Sys2Proof/Syntax.lean ====
section
/-! DEFINITION. The commands of the SL9640: one constructor of `Instr` per row of spec/opcode_table.json,
with the row's operands.  A command that reads host memory carries what the read returned, a command that
writes host memory carries whether its translation let it through, and a command that reports a physical
happening carries what was found. -/

namespace Sys2Proof

/-- The tag (SQID, CID) of a command, with its instance (03 R67). -/
structure Tag where
  inst : BitVec 8
  sqid : BitVec 12
  cid  : BitVec 16
deriving DecidableEq, Repr

/-- What a read of host memory returned: its data, a translation fault at a 4 KiB page (15 R450),
or no successful completion (15 R454). -/
inductive HostRead where
  | data  (bs : Bytes)
  | fault (page : BitVec 64)
  | lost
deriving DecidableEq, Repr

/-- Whether a write to host memory is let through by translation (15 R450). -/
inductive HostAcc where
  | ok
  | fault (page : BitVec 64)
deriving DecidableEq, Repr

/-- What one 64-byte read of an SQ slot returned (03 R71; byte k is bits 8k+7 to 8k). -/
inductive SqRead where
  | entry (e : BitVec 512)
  | fault (page : BitVec 64)
  | lost
deriving DecidableEq, Repr

/-- What the reads of a chain's LINK word and of the next descriptor returned (05 R172, R173). -/
structure LinkRead where
  chain : BitVec 4
  link  : HostRead
  desc  : HostRead
deriving DecidableEq, Repr

/-- How a slot of the doorbell page is written: 8 bytes, or the low or high 4 bytes (21 R637). -/
inductive DbWidth where
  | full | low | high
deriving DecidableEq, Repr

/-- The kinds of runner (05 R148, 07 R226). -/
inductive RunnerKind where
  | ec | scan | join | agg | gather | comp | sort | pod | peer
deriving DecidableEq, Repr

/-- A runner: its kind and its number within the kind (device wide). -/
structure Runner where
  kind : RunnerKind
  num  : BitVec 6
deriving DecidableEq, Repr

/-- A core: an EC of a cluster or an MC (13 R395, R400 CORE_ID). -/
inductive CoreId where
  | ec (cluster core : BitVec 3)
  | mc (n : BitVec 2)
deriving DecidableEq, Repr

/-- The circumstances of one SCA instruction: its core, the element (or byte) before which an interrupt
is taken inside a resumable instruction (14 R442), and the address of uncorrectable data it reads
(14 R440 DATAERR). -/
structure At where
  core : CoreId
  stop : Option (BitVec 64)
  ue   : Option (BitVec 64)
deriving DecidableEq, Repr

/-- The second source of a V-format instruction by FORM (13 R409). -/
inductive VSrc where
  | vv (s2 : BitVec 5)
  | vx (s2 : BitVec 5)
  | vi (s2 : BitVec 5)
  | vf (s2 : BitVec 5)
deriving DecidableEq, Repr

/-- The precision bit D of a scalar FP instruction (13, Scalar floating point). -/
inductive Prec where
  | single | double
deriving DecidableEq, Repr

/-- The asynchronous causes, bit n of INTEN and IPEND is cause 0x20 + n (14 R424, R440). -/
inductive AsyncSrc where
  | preempt | stop | wdog | mcheck | event | ipi | maskto
deriving DecidableEq, Repr

/-- A stream of a query: its index in the image (05 R151). -/
structure StreamRef where
  query : Tag
  idx   : BitVec 16
deriving DecidableEq, Repr

/-- What happens to a stream pointer copy or word on an access (06 R209-R213). -/
inductive StreamFlaw where
  | sound | corrected | uncorrectable | pointer
deriving DecidableEq, Repr

/-- Why an item parks (07 R234, R229): a host page fault for a read or a write, no spill page, a stream wait, a
memory hold, or a wait for leave. -/
inductive ParkCause where
  | pacer
  | page (addr : BitVec 64) (write : Bool)
  | spill
  | stream
  | memhold
deriving DecidableEq, Repr

/-- A page request group: what 15 R451 tells faults apart by. -/
structure PageKey where
  inst  : BitVec 8
  pasid : Option (BitVec 20)
  page  : BitVec 52
  write : Bool
deriving DecidableEq, Repr

/-- How a Page Request Group Response answers (15 R452). -/
inductive PageAnswer where
  | success | invalidRequest | responseFailure
deriving DecidableEq, Repr

/-- What reading one DRAM line finds, and the lane its error is attributed to, if any (16 R472-R474, R486). -/
inductive LineFinding where
  | clean
  | corrected (lane : Option (BitVec 7))
  | uncorrectable (lane : Option (BitVec 7))
deriving DecidableEq, Repr

/-- Who issued a real-time request that is queued at a rank (16 R482): the Mirror Engine, a peer port controller carrying EXCHANGE, or a
SCAN item, by its number. -/
inductive RtClient where
  | mirror
  | exchange (port : BitVec 2)
  | scan (item : Nat)
deriving DecidableEq, Repr

/-- What is queued at a rank when a refresh of it falls due (16 R482, R483): a real-time request, if any, and the items whose requests a
forced refresh would stall, each with the nanoseconds for which it stalls them. -/
structure RankQueue where
  queued  : Option RtClient
  stalled : List (Nat × BitVec 10)
deriving DecidableEq, Repr

/-- What is fitted on a DRAM channel at a cold start (16 R469, R470, R484). -/
structure ChannelFit where
  dimms     : BitVec 2
  ranks     : BitVec 3
  gb        : BitVec 6
  high      : BitVec 3
  capGib    : BitVec 10
  rate      : BitVec 3
  uniform   : Bool
  trains    : Bool
deriving DecidableEq, Repr

/-- The straps sampled at the rise of RESET_N (22 R641). -/
structure Straps where
  bootSel : BitVec 2
  pairEn  : Bool
  rootN   : Bool
deriving DecidableEq, Repr

/-- A Relay message as received on a peer port (18 R533). -/
structure RelayMsg where
  port    : BitVec 2
  dst     : BitVec 16
  src     : BitVec 16
  tag     : BitVec 32
  payload : Bytes
deriving DecidableEq, Repr

/-- An operation that asks the Pacer for leave (19 R568), with the query that it is for where there is one. -/
inductive LeaveOp where
  | sprint (cluster : BitVec 3)
  | sortUnit (unit : BitVec 2) (query : Tag)
  | spread (query : Tag) (op : BitVec 16)
  | encode (engine : BitVec 3) (query : Option Tag)
  | exchange (query : Tag) (op : BitVec 16)
deriving DecidableEq, Repr

/-- A job for a compression engine (12 R381): what its descriptor and its client give. -/
structure CompJob where
  format : BitVec 8
  level  : BitVec 8
  cksum  : Bool
  dict   : Option Bytes
  dictId : BitVec 32
  inst   : BitVec 8
  client : BitVec 8
  qid    : BitVec 16
  maxOut : BitVec 32
  unitKib : BitVec 16
  input  : Bytes
deriving DecidableEq, Repr

/-- The severity class of an AER error (20 R599). -/
inductive AerKind where
  | correctable | advisory | uncorrectable
deriving DecidableEq, Repr

/-- The commands: one constructor per row of spec/opcode_table.json, in the table's order. -/
inductive Instr where
  -- admin commands (03 R107), executed for a fetched entry
  | identify (t : Tag) (acc : HostAcc)
  | getLog (t : Tag) (acc : HostAcc)
  | setFeature (t : Tag)
  | getFeature (t : Tag)
  | createSq (t : Tag)
  | createCq (t : Tag)
  | deleteSq (t : Tag) (stopped : List (BitVec 16))
  | deleteCq (t : Tag)
  | resetQueue (t : Tag) (stopped : List (BitVec 16))
  | abort (t : Tag) (succeeds : Bool)
  | fwDownload (t : Tag) (src : HostRead)
  | fwActivate (t : Tag)
  | instanceCreate (t : Tag)
  | instanceResize (t : Tag)
  | instanceQuiesce (t : Tag)
  | instanceReset (t : Tag)
  | instanceDestroy (t : Tag)
  | poolReport (t : Tag) (acc : HostAcc)
  -- I/O commands
  | tableCreate (t : Tag) (src : HostRead)
  | tableDrop (t : Tag)
  | segmentWrite (t : Tag) (vals vmap offs : HostRead)
  | pagesPut (t : Tag) (src : HostRead)
  | segmentRead (t : Tag) (acc : HostAcc)
  | segmentDelete (t : Tag)
  | flush (t : Tag)
  | imageLoad (t : Tag) (src : HostRead)
  | imageUnload (t : Tag)
  | querySubmit (t : Tag) (csw : HostAcc)
  | chainResume (t : Tag) (links : List LinkRead) (csw : HostAcc)
  -- doorbells and registers
  | sqDoorbell (inst : BitVec 8) (sqid : BitVec 12) (w : DbWidth) (value : BitVec 64)
  | cqHeadDoorbell (inst : BitVec 8) (cqid : BitVec 12) (w : DbWidth) (value : BitVec 64)
  | admCtrlEnable (inst : BitVec 8) (value : BitVec 32)
  | admCtrlDisable (inst : BitVec 8) (value : BitVec 32)
  | poolEnable (inst : BitVec 8) (value : BitVec 32)
  | poolDisable (inst : BitVec 8) (value : BitVec 32)
  | retrain (inst : BitVec 8) (ch : BitVec 4) (value : BitVec 32)
  | rediscover (inst : BitVec 8) (value : BitVec 32)
  | asaCascfgEnable (inst : BitVec 8) (value : BitVec 32)
  | tDb (writer page : BitVec 8) (value : BitVec 64)
  | mDb (writer page : BitVec 8) (value : BitVec 64)
  | registerWrite (inst : BitVec 8) (bar : BitVec 3) (offset : BitVec 32) (size : BitVec 4) (value : BitVec 64)
  -- the Queue Engine
  | sqScan (inst : BitVec 8) (sqid : BitVec 12) (reads : List SqRead)
  | fetchToken (inst : BitVec 8) (sqid : BitVec 12)
  | completionPost (inst : BitVec 8) (cqid : BitVec 12) (acc : HostAcc)
  | cqStalled (inst : BitVec 8) (cqid : BitVec 12)
  | adminQueueDelete (inst : BitVec 8)
  | writeCommit (t : Tag)
  | writeDurable (seq : Nat)
  -- queries
  | stagingCopy (t : Tag) (image : HostRead)
  | queryValidated (t : Tag) (params xchain : HostRead) (heads : List HostRead) (csw : HostAcc)
  | queryAdmit (t : Tag) (csw : HostAcc)
  | queryFinish (t : Tag) (csw : HostAcc)
  | queryStopped (t : Tag) (csw : HostAcc)
  | linkRead (t : Tag) (lr : LinkRead) (csw : HostAcc)
  -- the Dispatcher
  | itemGenerate (t : Tag) (op : BitVec 16) (flow : BitVec 8)
  | slotFill (r : Runner) (item : Nat)
  | itemTake (r : Runner)
  | recall (r : Runner) (forItem : Nat)
  | preemption (r : Runner) (forItem : Nat)
  | itemEnd (r : Runner)
  | itemPark (r : Runner) (cause : ParkCause)
  | itemUnpark (item : Nat)
  | stallYield (r : Runner) (cause : ParkCause)
  | deadlineSweep (t : Tag)
  -- streams
  | wordCommit (r : Runner) (flaw : StreamFlaw)
  | wordPop (r : Runner) (port : BitVec 3) (flaw : StreamFlaw) (host : List HostRead)
  | headRefill (s : StreamRef)
  -- operators
  | codeSetBuild (t : Tag) (op : BitVec 16) (entry pred : BitVec 8) (slot : BitVec 20)
  | handleFramePush (t : Tag) (op : BitVec 16)
  | buildPartition (t : Tag) (op : BitVec 16)
  | unmatchedBuildPass (t : Tag) (op : BitVec 16)
  | partitionEmit (t : Tag) (op : BitVec 16) (part : BitVec 8)
  | mergeFlowStart (t : Tag) (op : BitVec 16)
  | hurdleRelease (t : Tag) (op : BitVec 16)
  | resultBlockWrite (r : Runner) (acc : HostAcc)
  | unitWrite (r : Runner) (acc : HostAcc)
  | decodeJob (engine : BitVec 3) (job : CompJob)
  | encodeJob (engine : BitVec 3) (job : CompJob)
  -- the Associative Search Array
  | podLoad (pod : BitVec 4) (shadowLost : Bool)
  | podClear (pod : BitVec 4)
  | asaSearch (pod : BitVec 4) (key mask : BitVec 320) (tagFlaw : Bool)
  | parityScan (pod : BitVec 4) (slot : BitVec 12) (upset : BitVec 196)
  | parityReload (pod : BitVec 4) (entry : BitVec 12) (shadowLost : Bool)
  | asaStepEvaluation
  | cascadePhaseTraining
  | asaKey (m : RelayMsg)
  | cascadeResultWord (w : BitVec 64)
  | asaRegister (m : RelayMsg)
  | asaReady (m : RelayMsg)
  | asaClose (m : RelayMsg)
  -- EXCHANGE messages
  | xchData (m : RelayMsg)
  | xchCredit (m : RelayMsg)
  | xchRegister (m : RelayMsg)
  | xchEnd (m : RelayMsg)
  | xchStop (m : RelayMsg)
  -- translation and quotas
  | pageRequestResponse (k : PageKey) (a : PageAnswer)
  | priTimeout (k : PageKey)
  | atsInvalidateRequest (inst : BitVec 8) (pasid : Option (BitVec 20)) (page : BitVec 52)
  | spillBlock (inst : BitVec 8)
  -- power and starts
  | powerFailure (drained : List Nat)
  | resetNFall (drained : List Nat)
  | coldStart (straps : Straps) (fits : List ChannelFit) (links : BitVec 4)
  | warmStart (straps : Straps) (links : BitVec 4) (badChannels : BitVec 12)
  | sensorEvaluation (readings : List (BitVec 8)) (drained : List Nat)
  | throttleNChange (low : Bool)
  | leaveRequest (op : LeaveOp) (inst : BitVec 8) (prio : BitVec 4) (items : List Nat)
  | leaveGrant
  | leaveRelease (op : LeaveOp)
  | clusterWakeDone (c : BitVec 3)
  | sprintIdle (c : BitVec 3)
  | warmupIdle (c : BitVec 3)
  | sortUnitIdle (unit : BitVec 2)
  -- DRAM
  | patrolScrub (ch : BitVec 4) (rank : BitVec 2) (line : BitVec 64) (finding : LineFinding)
  | refreshDue (ch : BitVec 4) (rank : BitVec 2) (queue : RankQueue)
  | driftCheck (ch : BitVec 4) (rank : BitVec 2) (steps : BitVec 8)
  | channelRetraining (ch : BitVec 4) (works : Bool)
  | migrationLineCopy (ch : BitVec 4) (source spare : LineFinding)
  | deviceFatal (cause : BitVec 64) (aoIntact : Bool) (drained : List Nat)
  -- PCI Express function events
  | flr (inst : BitVec 8) (committed : List Tag)
  | bmeClear (inst : BitVec 8) (committed : List Tag)
  | bmeSet (inst : BitVec 8)
  | vfEnableClear (port : BitVec 2) (numVfs : BitVec 6) (committed : List Tag)
  | perstAssert (port : BitVec 2) (committed : List Tag)
  | perstDeassert (port : BitVec 2)
  | hostLinkDown (port : BitVec 2) (committed : List Tag)
  | hostLinkUp (port : BitVec 2) (status : BitVec 16) (flit : Bool)
  | hostAer (port : BitVec 2) (bit : BitVec 64) (kind : AerKind) (victim : Option Tag)
  | d3hotEntry (inst : BitVec 8) (pmeEn : Bool)
  | d0Return (inst : BitVec 8)
  | priEnableClear (inst : BitVec 8)
  | atsEnableClear (inst : BitVec 8)
  | vectorUnmask (inst : BitVec 8) (vector : Option (BitVec 11))
  | moderationTimer (inst : BitVec 8) (vector : BitVec 11)
  | quiesceGraceEnd (inst : BitVec 8) (committed : List Tag)
  | managerTransfer
  -- firmware activation
  | fwLivePause
  | fwLiveHandover (ok : Bool)
  -- the mirrored pair
  | heartbeat (m : RelayMsg)
  | heartbeatSend
  | peerLost
  | fenceDelay
  | pairTakeover
  | pairFenceLow
  | peerAliveToggle
  | peerAliveLoss
  | joiningTimeout
  | relayLinkDown (port : BitVec 2)
  | ident (m : RelayMsg)
  | mirrorCommit (m : RelayMsg)
  | mirrorApplied (m : RelayMsg)
  | mirrorDurable (m : RelayMsg)
  | forward (m : RelayMsg)
  | directoryRequest (m : RelayMsg)
  | directoryAdmit (m : RelayMsg)
  | directoryRefuse (m : RelayMsg)
  | directoryRelease (m : RelayMsg)
  | fetchReq (m : RelayMsg)
  | fetchData (m : RelayMsg)
  -- discovery
  | batonStart
  | batonOut (m : RelayMsg)
  | batonBack (m : RelayMsg)
  | batonVisited (m : RelayMsg)
  | batonConflict (m : RelayMsg)
  | batonTimeout
  | discEnd (m : RelayMsg)
  | conflict (m : RelayMsg)
  -- core events
  | interrupt (core : CoreId) (raised : Option (AsyncSrc × BitVec 64))
  | wdog (core : CoreId)
  | maskTimeout (core : CoreId)
  -- the management port
  | setManager (port : BitVec 2)
  | getState
  | pldmSensorRead (sensor : BitVec 8)
  | pldmFirmwareUpdate (offset : BitVec 32) (bs : Bytes)
  | activateFirmware (selfContained : Bool)
  | getDigests
  | getCertificate (slot : BitVec 8) (offset len : BitVec 16)
  | challenge (nonce : Bytes)
  | getMeasurements (index : BitVec 8)
  -- SCA scalar integer (13)
  | add (k : At) (rd rs1 rs2 : BitVec 5)
  | sub (k : At) (rd rs1 rs2 : BitVec 5)
  | and (k : At) (rd rs1 rs2 : BitVec 5)
  | or (k : At) (rd rs1 rs2 : BitVec 5)
  | xor (k : At) (rd rs1 rs2 : BitVec 5)
  | sll (k : At) (rd rs1 rs2 : BitVec 5)
  | srl (k : At) (rd rs1 rs2 : BitVec 5)
  | sra (k : At) (rd rs1 rs2 : BitVec 5)
  | slt (k : At) (rd rs1 rs2 : BitVec 5)
  | sltu (k : At) (rd rs1 rs2 : BitVec 5)
  | mul (k : At) (rd rs1 rs2 : BitVec 5)
  | mulh (k : At) (rd rs1 rs2 : BitVec 5)
  | mulhu (k : At) (rd rs1 rs2 : BitVec 5)
  | div (k : At) (rd rs1 rs2 : BitVec 5)
  | divu (k : At) (rd rs1 rs2 : BitVec 5)
  | rem (k : At) (rd rs1 rs2 : BitVec 5)
  | remu (k : At) (rd rs1 rs2 : BitVec 5)
  | min (k : At) (rd rs1 rs2 : BitVec 5)
  | max (k : At) (rd rs1 rs2 : BitVec 5)
  | minu (k : At) (rd rs1 rs2 : BitVec 5)
  | maxu (k : At) (rd rs1 rs2 : BitVec 5)
  | clz (k : At) (rd rs1 : BitVec 5)
  | ctz (k : At) (rd rs1 : BitVec 5)
  | popc (k : At) (rd rs1 : BitVec 5)
  | bswap (k : At) (rd rs1 : BitVec 5)
  | addw (k : At) (rd rs1 rs2 : BitVec 5)
  | subw (k : At) (rd rs1 rs2 : BitVec 5)
  | addi (k : At) (rd rs1 : BitVec 5) (imm : BitVec 12)
  | andi (k : At) (rd rs1 : BitVec 5) (imm : BitVec 12)
  | ori (k : At) (rd rs1 : BitVec 5) (imm : BitVec 12)
  | xori (k : At) (rd rs1 : BitVec 5) (imm : BitVec 12)
  | slli (k : At) (rd rs1 : BitVec 5) (sh : BitVec 6)
  | srli (k : At) (rd rs1 : BitVec 5) (sh : BitVec 6)
  | srai (k : At) (rd rs1 : BitVec 5) (sh : BitVec 6)
  | slti (k : At) (rd rs1 : BitVec 5) (imm : BitVec 12)
  | lup (k : At) (rd : BitVec 5) (imm : BitVec 20)
  | pcup (k : At) (rd : BitVec 5) (imm : BitVec 20)
  -- SCA scalar memory and control
  | lb (k : At) (rt rs1 : BitVec 5) (imm : BitVec 12)
  | lh (k : At) (rt rs1 : BitVec 5) (imm : BitVec 12)
  | lw (k : At) (rt rs1 : BitVec 5) (imm : BitVec 12)
  | ld (k : At) (rt rs1 : BitVec 5) (imm : BitVec 12)
  | lbu (k : At) (rt rs1 : BitVec 5) (imm : BitVec 12)
  | lhu (k : At) (rt rs1 : BitVec 5) (imm : BitVec 12)
  | lwu (k : At) (rt rs1 : BitVec 5) (imm : BitVec 12)
  | sb (k : At) (rt rs1 : BitVec 5) (imm : BitVec 12)
  | sh (k : At) (rt rs1 : BitVec 5) (imm : BitVec 12)
  | sw (k : At) (rt rs1 : BitVec 5) (imm : BitVec 12)
  | sd (k : At) (rt rs1 : BitVec 5) (imm : BitVec 12)
  | beq (k : At) (rs1 rs2 : BitVec 5) (off : BitVec 12)
  | bne (k : At) (rs1 rs2 : BitVec 5) (off : BitVec 12)
  | blt (k : At) (rs1 rs2 : BitVec 5) (off : BitVec 12)
  | bge (k : At) (rs1 rs2 : BitVec 5) (off : BitVec 12)
  | bltu (k : At) (rs1 rs2 : BitVec 5) (off : BitVec 12)
  | bgeu (k : At) (rs1 rs2 : BitVec 5) (off : BitVec 12)
  | j (k : At) (off : BitVec 20)
  | call (k : At) (rd : BitVec 5) (off : BitVec 20)
  | jr (k : At) (rs1 : BitVec 5) (imm : BitVec 12)
  | callr (k : At) (rd rs1 : BitVec 5) (imm : BitVec 12)
  | ret (k : At) (rs1 : BitVec 5)
  | loop (k : At) (lvl : BitVec 1) (rs1 : BitVec 5) (off : BitVec 15)
  | scopy (k : At) (rd rs1 rs2 : BitVec 5)
  | csrget (k : At) (rd : BitVec 5) (csr : BitVec 12)
  | csrput (k : At) (csr : BitVec 12) (rs1 : BitVec 5)
  | csrputm (k : At) (csr : BitVec 12) (rs1 rm : BitVec 5)
  | callk (k : At)
  | retk (k : At)
  | fence (k : At)
  | wfe (k : At)
  | brk (k : At)
  -- SCA scalar floating point
  | fadd (k : At) (d : Prec) (fd fs1 fs2 : BitVec 5)
  | fsub (k : At) (d : Prec) (fd fs1 fs2 : BitVec 5)
  | fmul (k : At) (d : Prec) (fd fs1 fs2 : BitVec 5)
  | fdiv (k : At) (d : Prec) (fd fs1 fs2 : BitVec 5)
  | fsqrt (k : At) (d : Prec) (fd fs1 : BitVec 5)
  | fmin (k : At) (d : Prec) (fd fs1 fs2 : BitVec 5)
  | fmax (k : At) (d : Prec) (fd fs1 fs2 : BitVec 5)
  | fmacc (k : At) (d : Prec) (fd fs1 fs2 : BitVec 5)
  | feq (k : At) (d : Prec) (rd fs1 fs2 : BitVec 5)
  | flt (k : At) (d : Prec) (rd fs1 fs2 : BitVec 5)
  | fle (k : At) (d : Prec) (rd fs1 fs2 : BitVec 5)
  | fcvtxf (k : At) (d : Prec) (rd fs1 : BitVec 5)
  | fcvtfx (k : At) (d : Prec) (fd rs1 : BitVec 5)
  | fmvxf (k : At) (d : Prec) (rd fs1 : BitVec 5)
  | fmvfx (k : At) (d : Prec) (fd rs1 : BitVec 5)
  | fcvtp (k : At) (d : Prec) (fd fs1 : BitVec 5)
  | flw (k : At) (fd rs1 : BitVec 5) (imm : BitVec 12)
  | fld (k : At) (fd rs1 : BitVec 5) (imm : BitVec 12)
  | fsw (k : At) (fs rs1 : BitVec 5) (imm : BitVec 12)
  | fsd (k : At) (fs rs1 : BitVec 5) (imm : BitVec 12)
  -- SCA vector
  | setvl (k : At) (rd rs1 : BitVec 5) (sew : BitVec 2)
  | setvlmax (k : At) (rd : BitVec 5) (sew : BitVec 2)
  | vadd (k : At) (vd vs1 : BitVec 5) (s2 : VSrc) (pg : BitVec 3) (z : Bool)
  | vsub (k : At) (vd vs1 : BitVec 5) (s2 : VSrc) (pg : BitVec 3) (z : Bool)
  | vand (k : At) (vd vs1 : BitVec 5) (s2 : VSrc) (pg : BitVec 3) (z : Bool)
  | vor (k : At) (vd vs1 : BitVec 5) (s2 : VSrc) (pg : BitVec 3) (z : Bool)
  | vxor (k : At) (vd vs1 : BitVec 5) (s2 : VSrc) (pg : BitVec 3) (z : Bool)
  | vsll (k : At) (vd vs1 : BitVec 5) (s2 : VSrc) (pg : BitVec 3) (z : Bool)
  | vsrl (k : At) (vd vs1 : BitVec 5) (s2 : VSrc) (pg : BitVec 3) (z : Bool)
  | vsra (k : At) (vd vs1 : BitVec 5) (s2 : VSrc) (pg : BitVec 3) (z : Bool)
  | vmul (k : At) (vd vs1 : BitVec 5) (s2 : VSrc) (pg : BitVec 3) (z : Bool)
  | vmulh (k : At) (vd vs1 : BitVec 5) (s2 : VSrc) (pg : BitVec 3) (z : Bool)
  | vmin (k : At) (vd vs1 : BitVec 5) (s2 : VSrc) (pg : BitVec 3) (z : Bool)
  | vmax (k : At) (vd vs1 : BitVec 5) (s2 : VSrc) (pg : BitVec 3) (z : Bool)
  | vminu (k : At) (vd vs1 : BitVec 5) (s2 : VSrc) (pg : BitVec 3) (z : Bool)
  | vmaxu (k : At) (vd vs1 : BitVec 5) (s2 : VSrc) (pg : BitVec 3) (z : Bool)
  | vsaddu (k : At) (vd vs1 : BitVec 5) (s2 : VSrc) (pg : BitVec 3) (z : Bool)
  | vmacc (k : At) (vd vs1 : BitVec 5) (s2 : VSrc) (pg : BitVec 3) (z : Bool)
  | vfadd (k : At) (vd vs1 : BitVec 5) (s2 : VSrc) (pg : BitVec 3) (z : Bool)
  | vfsub (k : At) (vd vs1 : BitVec 5) (s2 : VSrc) (pg : BitVec 3) (z : Bool)
  | vfmul (k : At) (vd vs1 : BitVec 5) (s2 : VSrc) (pg : BitVec 3) (z : Bool)
  | vfdiv (k : At) (vd vs1 : BitVec 5) (s2 : VSrc) (pg : BitVec 3) (z : Bool)
  | vfmin (k : At) (vd vs1 : BitVec 5) (s2 : VSrc) (pg : BitVec 3) (z : Bool)
  | vfmax (k : At) (vd vs1 : BitVec 5) (s2 : VSrc) (pg : BitVec 3) (z : Bool)
  | vfmacc (k : At) (vd vs1 : BitVec 5) (s2 : VSrc) (pg : BitVec 3) (z : Bool)
  | vfnmsac (k : At) (vd vs1 : BitVec 5) (s2 : VSrc) (pg : BitVec 3) (z : Bool)
  | vfsqrt (k : At) (vd vs1 : BitVec 5) (pg : BitVec 3) (z : Bool)
  | vfabs (k : At) (vd vs1 : BitVec 5) (pg : BitVec 3) (z : Bool)
  | vfneg (k : At) (vd vs1 : BitVec 5) (pg : BitVec 3) (z : Bool)
  | vfcvtxf (k : At) (vd vs1 : BitVec 5) (pg : BitVec 3) (z : Bool)
  | vfcvtfx (k : At) (vd vs1 : BitVec 5) (pg : BitVec 3) (z : Bool)
  | vceq (k : At) (pd vs1 : BitVec 5) (s2 : VSrc) (pg : BitVec 3) (z : Bool)
  | vcne (k : At) (pd vs1 : BitVec 5) (s2 : VSrc) (pg : BitVec 3) (z : Bool)
  | vclt (k : At) (pd vs1 : BitVec 5) (s2 : VSrc) (pg : BitVec 3) (z : Bool)
  | vcle (k : At) (pd vs1 : BitVec 5) (s2 : VSrc) (pg : BitVec 3) (z : Bool)
  | vcltu (k : At) (pd vs1 : BitVec 5) (s2 : VSrc) (pg : BitVec 3) (z : Bool)
  | vcleu (k : At) (pd vs1 : BitVec 5) (s2 : VSrc) (pg : BitVec 3) (z : Bool)
  | vcgt (k : At) (pd vs1 : BitVec 5) (s2 : VSrc) (pg : BitVec 3) (z : Bool)
  | vcgtu (k : At) (pd vs1 : BitVec 5) (s2 : VSrc) (pg : BitVec 3) (z : Bool)
  | vfceq (k : At) (pd vs1 : BitVec 5) (s2 : VSrc) (pg : BitVec 3) (z : Bool)
  | vfclt (k : At) (pd vs1 : BitVec 5) (s2 : VSrc) (pg : BitVec 3) (z : Bool)
  | vfcle (k : At) (pd vs1 : BitVec 5) (s2 : VSrc) (pg : BitVec 3) (z : Bool)
  | pand (k : At) (pd ps1 ps2 : BitVec 5)
  | por (k : At) (pd ps1 ps2 : BitVec 5)
  | pandn (k : At) (pd ps1 ps2 : BitVec 5)
  | vcompress (k : At) (vd vs1 : BitVec 5) (pg : BitVec 3) (z : Bool)
  | vslidedn (k : At) (vd vs1 : BitVec 5) (s2 : VSrc) (pg : BitVec 3) (z : Bool)
  | vslideup (k : At) (vd vs1 : BitVec 5) (s2 : VSrc) (pg : BitVec 3) (z : Bool)
  | vmv (k : At) (vd : BitVec 5) (s2 : VSrc) (pg : BitVec 3) (z : Bool)
  | vext (k : At) (rd vs1 : BitVec 5) (idx : VSrc)
  | vins (k : At) (vd rs : BitVec 5) (idx : VSrc)
  | vredsum (k : At) (vd vs1 : BitVec 5) (pg : BitVec 3) (z : Bool)
  | vredmin (k : At) (vd vs1 : BitVec 5) (pg : BitVec 3) (z : Bool)
  | vredmax (k : At) (vd vs1 : BitVec 5) (pg : BitVec 3) (z : Bool)
  | vfredsum (k : At) (vd vs1 : BitVec 5) (pg : BitVec 3) (z : Bool)
  | pcnt (k : At) (rd ps : BitVec 5) (pg : BitVec 3) (z : Bool)
  | pfirst (k : At) (rd ps : BitVec 5) (pg : BitVec 3) (z : Bool)
  | vgather (k : At) (vd vs1 vidx : BitVec 5) (pg : BitVec 3) (z : Bool)
  | vld (k : At) (vt rs1 : BitVec 5) (pg : BitVec 3) (z : Bool)
  | vst (k : At) (vt rs1 : BitVec 5) (pg : BitVec 3) (z : Bool)
  | vlda (k : At) (vt rs1 : BitVec 5) (pg : BitVec 3) (z : Bool)
  | vsta (k : At) (vt rs1 : BitVec 5) (pg : BitVec 3) (z : Bool)
  | spop (k : At) (vt rd : BitVec 5) (ip : BitVec 3)
  | spush (k : At) (vt : BitVec 5) (op : BitVec 3)
  | sclose (k : At) (op : BitVec 3)
  | savail (k : At) (rd : BitVec 5) (ip : BitVec 3)
  -- the rows at the end of the table
  | vfEnableSet (port : BitVec 2) (numVfs : BitVec 6)
  | priEnableSet (inst : BitVec 8)
  | outstandingPageRequestAllocation (inst : BitVec 8) (n : BitVec 32)
  | completionTimeout (inst : BitVec 8) (owner : Tag)
  | registerRead (inst : BitVec 8) (bar : BitVec 3) (offset : BitVec 32) (size : BitVec 4)
deriving DecidableEq, Repr

end Sys2Proof
end

