-- ==== Sys2Proof/Decode.lean ====
section
/-! DEFINITION. The command that a word of bits spells.  The opcode table gives no row any bits: the engine takes its
commands as ring entries, register accesses, messages and events, and the operands of a row stand in its constructor.
So no word spells a command. -/

namespace Sys2Proof

/-- The command of a word of the opcode table: none, for the table gives its rows no bits. -/
def decodeTableWord (_nbits _w : Nat) : Option Instr := none

end Sys2Proof
end

