-- ==== Sys2Proof/Config.lean ====
section
/-! DEFINITION. What an implementation fixes and the free values: constants without a body, of which no proof can
know a value.  Each stands for a point where the spec states no value. -/

namespace Sys2Proof.Config

/-- The device's serial number, IDENTIFY SERIAL (17 R528): the spec gives its form, not its value. -/
opaque serial : BitVec 128
/-- The boot value of KENTRY_PC of every core (14 R424 "Boot value"). -/
opaque kentryBoot : BitVec 64
/-- The runtime's layout of an EC's U shadow stack (14 R423, R431): its base and its limit. -/
opaque uStackBase : BitVec 64
opaque uStackLimit : BitVec 64
/-- Core cycles an instruction takes, by a running number (13 R400 CYCLE, R421). -/
opaque cycles : Nat → BitVec 64
/-- Whether tininess is found before rounding (IEEE 754 leaves it open; 13 R405). -/
opaque tinyBefore : Bool
/-- Whether an FMA of infinity by zero with a quiet NaN addend is invalid (IEEE 754 leaves it open; 13 R405). -/
opaque fmaInvalid : Bool
/-- Whether a comparison (0 equal, 1 less, 2 less or equal) with a quiet NaN is invalid, and whether a conversion to an
integer that cuts off a fraction is inexact (IEEE 754 has both forms of each; 13 R405 names none). -/
opaque quietInvalid : Nat → Bool
opaque convertInexact : Bool
/-- Bytes an overlapping SCOPY leaves (13 R411), by a running number. -/
opaque freeByte : Nat → BitVec 8
/-- The encoding the engine picks where the hint does not settle it (04 R119): a number below 7 by the
column's type and the page's number. -/
opaque encPick : BitVec 8 → Nat → BitVec 4
/-- BASE of a DELTA page that the engine builds from rows of which the first is null (02 R26 does not say what it is): the type, the bits
of the first value there is. -/
opaque deltaBase : BitVec 8 → Nat → BitVec 64
/-- The bytes a compression engine would encode (12 R379): format, level, CKSUM, UNIT_KIB, dictionary, DICT_ID, input. -/
opaque encodeBytes : BitVec 8 → BitVec 8 → Bool → BitVec 16 → Option Bytes → BitVec 32 → Bytes → Bytes
/-- The output bound of a format for an input length, MAX_OUT of an encode job's descriptor (12 R381 names it, and gives no
formula). -/
opaque encodeBound : BitVec 8 → Nat → BitVec 32
/-- The opaque table handle of HASH_BUILD (09 R277), by a running number. -/
opaque tableHandle : Nat → BitVec 64
/-- What a frame's run holds where the spec leaves it open: a null or an unselected row's bits, its text, and an
unselected row's validity bit (06 R193, 08 R261), by a running number. -/
opaque holeBits : Nat → BitVec 128
opaque holeText : Nat → Bytes
opaque holeValid : Nat → Bool
/-- The eight SECDED check bits of a 64-bit lane of a stream word (06 R209 names the code, not its matrix). -/
opaque secded : BitVec 64 → BitVec 8
/-- D0 of STREAM_UE and STREAM_PTR_MISMATCH by instance and QID (20 R584 names the two, not their bits). -/
opaque streamD0 : BitVec 8 → BitVec 12 → BitVec 64
/-- Spill pages an operator's contents take (10 R310, 09 R286: the page layout is the engine's own): operator type, rows,
payload bytes. -/
opaque spillPages : BitVec 8 → Nat → Nat → Nat
/-- The place of a build row, by its ordinal, in the walk of its bucket chain (09 R283 fixes no order), and the type of a
joined run whose side has sent no frame (09 states none). -/
opaque chainKey : Nat → Nat
opaque absentType : Nat → BitVec 8
/-- The sign of an exact sum of negative zeros (09 R296 rounds it, and states no sign). -/
opaque zeroSumNegative : Bool
/-- Which input ANY_VALUE returns (09 R294), by a running number. -/
opaque anyPick : Nat → Nat
/-- Whether the engine's natural logarithm of a binary64 number is the number above it, where it lies between two (09 R299 lets it
differ in its last bit). -/
opaque logUp : BitVec 64 → Bool
/-- Whether the staging of an EXCHANGE item cannot grow to so many bytes, and whether a send queue of so many bytes is full (10 R326,
R327 give no sizes), by a running number. -/
opaque stagingShort : Nat → Nat → Bool
opaque sendqFull : Nat → Nat → Bool
/-- Local Store units that groups or kept rows take (09 R297, 10 R314 give no entry size): operator type, entries, bytes. -/
opaque lsUnits : BitVec 8 → Nat → Nat → Nat
/-- OPSTATE of an item that emits a spilled partition, by its spill level and pass (09 R298 lays out no bits), and the index of the
spill page that holds a merge item's cursors, by a running number (10 R311). -/
opaque aggOpstate : Nat → Nat → BitVec 32
opaque cursorPage : Nat → BitVec 32
/-- Whether the engine sets Relaxed Ordering on a data write to an address, where it may (15 R467). -/
opaque relaxes : BitVec 64 → Bool
/-- The order in which groups are emitted (09 R294), as a rotation by a running number. -/
opaque emitTurn : Nat → Nat
/-- The image that the board's manufacturer programs into slot A before the first start (20 R602), as 4 KiB units by their
number. -/
opaque shippedImage : List (Nat × Bytes)
/-- SHA-384 (20 R603, R604). -/
opaque sha384 : Bytes → BitVec 384
/-- ECDSA P-384 verification: public key, digest, signature (20 R603, R604). -/
opaque ecdsaVerify : Bytes → BitVec 384 → Bytes → Bool
/-- The key digest fused into the engine (20 R604). -/
opaque fusedKey : BitVec 384
/-- Which directory copy governs when neither is higher, and the first DSEQ written on a flash without a valid copy
(20 R602 gives neither). -/
opaque dirTie : Bool
opaque firstDseq : BitVec 32
/-- The bytes of the FIRMWARE log (20 R595 lists its contents, not their offsets): byte n of 64 for the two slots'
FW_VERSION and SVN, the active slot, the running FW_VERSION and the fuse SVN. -/
opaque firmwareLog : List Nat → Nat → BitVec 8
/-- Which way the reserved strap 0b11 boots (20 R605). -/
opaque reservedBoot : BitVec 2
/-- The pool address at which the engine places a line of a stored segment and of a loaded image, and whether spill
pages or stream middles of a query lie on a channel (the allocator is the engine's own; 16 R474, R494). -/
opaque lineAt : Nat → Nat → Nat
opaque imageLineAt : BitVec 8 → BitVec 32 → Nat → Nat
opaque holdsOn : Nat → Nat → Bool
/-- The boot ROM digest (20 R613, measurement 1). -/
opaque bootRomDigest : BitVec 384
/-- The device certificate chain (20 R613). -/
opaque certificateChain : Bytes
/-- The engine's SPDM signature over a transcript (20 R613). -/
opaque spdmSign : Bytes → Bytes
/-- Package power and DIMM temperatures as the management port reads them (20 R612), by a running number. -/
opaque sensorValue : BitVec 8 → Nat → BitVec 32
/-- A value read from the page of a function that the spec leaves unspecified, by a running number. -/
opaque freeWord : Nat → BitVec 64
/-- The peer ports toward the next member of the cascade and toward the one before (11 R362: the board joins
positions k and k + 1 by a Relay link, the spec does not name its port). -/
opaque cascadeDown : BitVec 2
opaque cascadeUp : BitVec 2
/-- The delay values that a training of a rank finds (16 R484), by the rank and a running number. -/
opaque trainedDelay : Nat → Nat → BitVec 16
/-- Whether the partner's instance exists, and whether its quota can charge a write, by the instance and a running number: no
message of a pair tells it beforehand (18 R541, R542). -/
opaque partnerHas : BitVec 8 → Nat → Bool
opaque partnerCharges : BitVec 8 → Nat → Bool
/-- The device fatal error of a mask timeout with no monitor (14 R436, 20 R600): the cause it reports, whether the always-on
sequencer is intact, and the writes that its save still finishes. -/
opaque maskCause : BitVec 64
opaque fatalIntact : Nat → Bool
opaque fatalDrained : Nat → List Nat

end Sys2Proof.Config
end

