-- ==== Sys2Proof/Machine/State.lean ====
section
/-! DEFINITION. The state of the SL9640 as plain data: every register, queue, buffer, counter, mode and pin the spec
gives the engine, and the queue of commands that are waiting.  What an unlisted key of a map reads as is the
default the accessor in Machine/Ops.lean names. -/

namespace Sys2Proof.Machine

/-- A finite map as a list of keys and values; the accessors of Machine/Ops.lean keep one entry a key. -/
abbrev AMap (κ α : Type) := List (κ × α)

/-- A byte-addressed memory: addresses strictly rising, no entry equal to 0, what an unlisted address reads. -/
abbrev Memory := List Host.Cell

/-! ### Values, rows and frames (02 R24, 06 R190-R194) -/

/-- A value: the bits of a fixed-width type in the low bits, or the bytes of a STRING or BINARY. -/
inductive Val where
  | fixed (b : BitVec 128)
  | str (bs : Bytes)
deriving DecidableEq, Repr

/-- A column's values, `none` for a null row. -/
abbrev Vals := List (Option Val)

/-- One run of a frame (06 R192, R193). -/
structure Run where
  ty     : BitVec 8
  valid  : Bool
  packed : Bool
  vals   : Vals
deriving DecidableEq, Repr

/-- A batch frame (06 R190, R191); `sel` has one entry per row. -/
structure Frame where
  sel    : List Bool
  contig : Bool
  rowid  : BitVec 64
  fseq   : BitVec 32
  runs   : List Run
deriving DecidableEq, Repr

/-- What is left to send of a frame toward a node, in the send queue of an EXCHANGE (10 R326). -/
structure XchFrame where
  node : BitVec 16
  sent : Nat
  bytes : Bytes
deriving DecidableEq, Repr

/-! ### Tables (02, 04) -/

/-- A column's type code and scale (02 R19, 04 R115). -/
structure Col where
  ty    : BitVec 8
  scale : BitVec 8
deriving DecidableEq, Repr

/-- A table: its generation, columns, the segment in each (column, slot), its place in the home order, and
whether this engine is its home (02 R18-R21, R52-R54; 18 R543). -/
structure Table where
  gen   : Nat
  cols  : List Col
  cells : AMap (BitVec 12 × BitVec 20) Nat
  cseq  : BitVec 64
  home  : Bool
deriving DecidableEq, Repr

/-- A stored segment (02 R44): its owner, bytes, rows, the lost mark (16 R495), the poisoned 64-byte lines
(16 R474), whether it waits for a rebuild (16 R494), the lines that wait for a repair, and the commit that installed it (18 R552). -/
structure Segment where
  inst    : BitVec 8
  bytes   : Bytes
  rows    : Nat
  lost    : Bool
  poison  : List Nat
  rebuild : Bool
  repair  : List Nat
  epoch   : BitVec 32
  cseq    : BitVec 64
deriving DecidableEq, Repr

/-- The kinds of commit record (18 R539). -/
inductive WriteKind where
  | install | empty | create | drop
deriving DecidableEq, Repr

/-- How far a write has come: built; sent to the home or the directory; committed; applied by the partner where
that is asked (04 R125, R126; 18 R542-R544). -/
inductive WritePhase where
  | built | forwarded | admitting | admitted | committed
deriving DecidableEq, Repr

/-- A write under way or not yet durable, by its number in the sequence of commits once committed; `jpos` and `pjpos` are its
places in this engine's and the partner's journal; `undoCell` and `undoTable` are what a rollback puts back (04 R134). -/
structure Write where
  no       : Nat
  tag      : Option Tag
  inst     : BitVec 8
  kind     : WriteKind
  tid      : BitVec 16
  col      : BitVec 12
  slot     : BitVec 20
  seg      : Bytes
  rows     : Nat
  cols     : List Col
  boundGen : Nat
  fua      : Bool
  phase    : WritePhase
  fwdId    : Option (BitVec 32)
  reqId    : Option (BitVec 32)
  mseq     : Option (BitVec 32)
  epoch    : BitVec 32
  cseq     : BitVec 64
  jpos     : BitVec 64
  pjpos    : BitVec 64
  applied  : Bool
  localDurable   : Bool
  partnerDurable : Bool
  completed : Bool
  result   : BitVec 64
  undoCell  : Option Nat
  undoTable : Option Table
deriving DecidableEq, Repr

/-- The tables an instance's snapshot sees (02 R57). -/
abbrev Snapshot := AMap (BitVec 16) Table

/-- The store; `journal` keeps, on a pair, the payloads of commits the partner has not reported durable (18 R552). -/
structure Store where
  tables   : AMap (BitVec 8 × BitVec 16) Table
  segs     : AMap Nat Segment
  writes   : List Write
  flushes  : AMap Tag (List Nat)
  reads    : AMap Tag Nat
  nextSeg  : Nat
  nextGen  : Nat
  nextWrite : Nat
  jpos     : BitVec 64
  journal  : List (BitVec 64 × Bytes)
deriving DecidableEq, Repr

/-! ### Rings (03) -/

inductive SqState where
  | active | error | draining
deriving DecidableEq, Repr

/-- What drains an SQ: RESET_QUEUE, DELETE_SQ, or ADM_CTRL.EN = 0 (03 R95, R100). -/
inductive Drain where
  | reset (t : Tag)
  | delete (t : Tag)
  | disable
deriving DecidableEq, Repr

structure Sq where
  base   : BitVec 64
  pasid  : Option (BitVec 20)
  log2   : Nat
  cqid   : BitVec 12
  head   : Nat
  pass   : Nat
  st     : SqState
  drain  : Option Drain
  scanDue : Bool
  scanning : Bool
  latchSlot   : BitVec 16
  latchReason : BitVec 4
  openBatch : Option Nat
  tokens : Nat
deriving DecidableEq, Repr

/-- A completion that is ready (03 R79): what the CQ entry will hold, the tags it ends, and the tags that must be
written before it (04 R143). -/
structure Cpl where
  sqid   : BitVec 12
  cid    : BitVec 16
  status : BitVec 15
  result : BitVec 64
  batch  : Bool
  sqhead : Option (BitVec 16)
  covers : List (BitVec 16)
  after  : List Tag
deriving DecidableEq, Repr

structure Cq where
  base   : BitVec 64
  pasid  : Option (BitVec 20)
  log2   : Nat
  vector : BitVec 16
  ien    : Bool
  tail   : Nat
  pass   : Nat
  head   : Nat
  unreturned : Nat
  ready  : List Cpl
  stallRaised : Bool
  faulted : Bool
deriving DecidableEq, Repr

/-- How far an outstanding command has come. -/
inductive CmdStage where
  | fetched
  | begun
  | finished
deriving DecidableEq, Repr

/-- An outstanding command (03 R66, R67); `bound` is the generation of the table that a write was bound to when it began (04
R114). -/
structure Cmd where
  tag    : Tag
  entry  : BitVec 512
  stage  : CmdStage
  no     : Nat
  time   : BitVec 64
  batch  : Option Nat
  bound  : Option Nat
deriving DecidableEq, Repr

/-- A batch (03 R86-R90): the members a batch completion will cover, how many entries it has, the entry that closes
it, the members that failed with their status, the last first, and the tags whose completions its ABORTs follow (04 R143). -/
structure Batch where
  no      : Nat
  inst    : BitVec 8
  sqid    : BitVec 12
  members : List (BitVec 16)
  total   : Nat
  closed  : Bool
  closing : BitVec 16
  closingStatus : BitVec 15
  lastNc  : Option (BitVec 16)
  ok      : Nat
  failed  : Nat
  failures : List (BitVec 16 × BitVec 15)
  afters  : List Tag
deriving DecidableEq, Repr

/-- The queues and the commands; `served` lists the SQs whose pending scans have had their turn in the present round (03 R76). -/
structure Rings where
  sqs     : AMap (BitVec 8 × BitVec 12) Sq
  cqs     : AMap (BitVec 8 × BitVec 12) Cq
  cmds    : List Cmd
  batches : List Batch
  nextCmd : Nat
  nextBatch : Nat
  served  : List (BitVec 8 × BitVec 12)
deriving DecidableEq, Repr

/-! ### Functions and instances (17, 20, 21) -/

inductive InstState where
  | absent | serving | quiescing | quiet | detached
deriving DecidableEq, Repr

/-- A query accounting record that outlives its query (20 R596). -/
structure Account where
  tag      : Tag
  state    : BitVec 8
  status   : BitVec 15
  fetched  : BitVec 64
  finished : BitVec 64
  totals   : List (BitVec 64)
  overflows : List (BitVec 32)
deriving DecidableEq, Repr

structure Inst where
  st         : InstState
  hold       : Bool
  maxSq      : BitVec 16
  maxCq      : BitVec 16
  maxFlows   : BitVec 32
  sqLimit    : BitVec 16
  cqLimit    : BitVec 16
  tablePages : BitVec 32
  spillPages : BitVec 32
  sspillPages : BitVec 32
  lsUnits    : BitVec 16
  weight     : BitVec 8
  pacerPct   : BitVec 8
  fetchRate  : BitVec 32
  priTimeout : BitVec 16
  tArea      : Memory
  mArea      : Memory
  images     : AMap (BitVec 32) Bytes
  nextHandle : BitVec 32
  quiesce    : Option Tag
  graceEnd   : BitVec 64
  discarded  : Nat
  accounts   : List Account
  unsynced   : Bool
deriving DecidableEq, Repr

/-- An MSI-X vector: its moderation, its occurrences not yet signalled, since when its timer runs, and its table entry (20 R587-R589). -/
structure Vec where
  count   : Nat
  time    : Nat
  c       : Nat
  timer   : Bool
  since   : BitVec 64
  masked  : Bool
  pending : Bool
  addr    : BitVec 64
  data    : BitVec 32
deriving DecidableEq, Repr

/-- An event record (20 R585). -/
structure EvRec where
  id   : BitVec 16
  inst : BitVec 8
  eseq : BitVec 32
  time : BitVec 64
  d0   : BitVec 64
  d1   : BitVec 64
deriving DecidableEq, Repr

structure Fn where
  present : Bool
  bme     : Bool
  d3hot   : Bool
  pmeEn   : Bool
  ats     : Bool
  pri     : Bool
  pasidEn : Bool
  /-- Enable Relaxed Ordering (15 R467). -/
  relaxedEn : Bool
  alloc   : BitVec 32
  priBlocked : Bool
  admSqBase : BitVec 64
  admCqBase : BitVec 64
  admEn   : Bool
  sqLog2  : BitVec 4
  cqLog2  : BitVec 4
  cfgErr  : Bool
  admSlot : BitVec 16
  admReason : BitVec 4
  evtPend : BitVec 1024
  evtRoute : AMap (BitVec 10) (BitVec 32)
  evtLog  : List EvRec
  eseq    : BitVec 32
  vectors : AMap (BitVec 11) Vec
  fnMask  : Bool
  heldLow : AMap (BitVec 3 × BitVec 32) (BitVec 32)
  latched : AMap (BitVec 3 × BitVec 32) (BitVec 32)
  lastRead : BitVec 64
deriving DecidableEq, Repr

/-! ### Translation (15) -/

/-- What waits for a page request. -/
inductive Waiter where
  | sqFetch (inst : BitVec 8) (sqid : BitVec 12)
  | cqWrite (inst : BitVec 8) (cqid : BitVec 12)
  | cmd (t : Tag)
  | query (t : Tag)
  | csw (t : Tag)
  | item (n : Nat)
  | chainLink (t : Tag) (chain : BitVec 4)
deriving DecidableEq, Repr

/-- A page request that is outstanding, its waiters (15 R451). -/
structure PageReq where
  key     : PageKey
  waiters : List Waiter
  since   : BitVec 64
deriving DecidableEq, Repr

structure Xlat where
  reqs     : List PageReq
  waiting  : List PageReq
  faults   : AMap PageKey Nat
  late     : List PageKey
  /-- The last address of the data written for a function, as a translated request or not, while no ordered write of the other kind
  has followed it (15 R467). -/
  lastData : AMap (BitVec 8 × Bool) (Option (BitVec 20) × BitVec 64)
  atc      : List (BitVec 8 × Option (BitVec 20) × BitVec 52)
deriving DecidableEq, Repr

/-! ### Images and queries (05) -/

structure OpDesc where
  ty      : BitVec 8
  atomic  : Bool
  preempt : Bool
  ins     : List (BitVec 16)
  outs    : List (BitVec 16)
  kernel  : BitVec 16
  chain   : BitVec 8
  params  : Bytes
deriving DecidableEq, Repr

structure StreamDesc where
  producer : BitVec 16
  consumer : BitVec 16
  prodPort : BitVec 8
  consPort : BitVec 8
  elem     : BitVec 3
  framed   : Bool
  spillKib : BitVec 32
deriving DecidableEq, Repr

structure KernelDesc where
  code    : Bytes
  entry   : BitVec 32
  scratchKib : BitVec 16
  minVlenb : BitVec 16
deriving DecidableEq, Repr

structure AsaDesc where
  width   : BitVec 2
  entries : Nat
  cascade : Bool
  casId   : BitVec 32
  recs    : List (BitVec 320 × BitVec 32)
deriving DecidableEq, Repr

/-- A Fertis image read into its parts (05 R145-R154). -/
structure Image where
  ops     : List OpDesc
  streams : List StreamDesc
  kernels : List KernelDesc
  asas    : List AsaDesc
  consts  : Bytes
  paramSize : Nat
  nChains : Nat
deriving DecidableEq, Repr

inductive QState where
  | validating | waiting | running | paused | stopping | done
deriving DecidableEq, Repr

/-- An output chain of a query (05 R172, R173): the current descriptor, the bytes written into its buffer, and the
bytes of complete units. -/
structure Chain where
  desc   : BitVec 64
  buf    : BitVec 64
  len    : Nat
  filled : Nat
  atEnd  : Bool
  linkWait : Bool
  linkDue : Bool
  bytes  : Nat
  bseq   : BitVec 32
deriving DecidableEq, Repr

structure Query where
  tag      : Tag
  no       : Nat
  st       : QState
  status   : BitVec 15
  raw      : Option Bytes
  image    : Option Image
  params   : Bytes
  prio     : BitVec 4
  deadline : BitVec 32
  fetched  : BitVec 64
  cswAddr  : BitVec 64
  pasid    : Option (BitVec 20)
  chains   : List Chain
  pauses   : BitVec 32
  index    : BitVec 16
  reason   : BitVec 16
  qid      : Option (BitVec 12)
  snap     : Snapshot
  totals   : List (BitVec 64)
  overflows : AMap (BitVec 16) (BitVec 32)
  finished : BitVec 64
  staged   : Nat
  pods     : AMap (BitVec 8) (BitVec 4)
  ctags    : AMap (BitVec 8) (BitVec 4)
  noCsw    : Bool
  cswHeld  : List (Bytes × Option (BitVec 64))
  closes   : List (BitVec 8)
deriving DecidableEq, Repr

/-! ### Dispatcher (07) -/

inductive ItemState where
  | ready | slotted | running | parked | ended
deriving DecidableEq, Repr

/-- A word an item still offers to an output port; when it lands, PROGRESS becomes `progress` and OPSTATE `opstate`
where they are given. -/
structure OutWord where
  port : BitVec 3
  word : BitVec 512
  progress : Option Nat
  opstate  : Option (BitVec 32)
deriving DecidableEq, Repr

/-- A row held by SORT, MERGE, TOPK or a partitioned probe, with its key and its ordinal in the operator's input. -/
structure SortRow where
  key  : Bytes
  ord  : Nat
  vals : Vals
deriving DecidableEq, Repr

/-- A work item (07 R217): its descriptor, and the context the operator units keep for it; `stall` is the time since which it waits on
a stream on its runner (06 R204, 07 R238), `part` the number of its work within its flow, `runRows` the rows of a run of SORT (10
R310), `ls` and `spill` the Local Store units and the spill pages it holds itself (15 R460),
`pageDue` the page that it parks for once the frame of what it has committed is out (10 R322). -/
structure Item where
  id      : Nat
  query   : Tag
  op      : BitVec 16
  qid     : BitVec 12
  flow    : BitVec 8
  flowNo  : BitVec 16
  prio    : BitVec 4
  preempt : Bool
  atomic  : Bool
  origin  : BitVec 64
  count   : Nat
  progress : Nat
  subpos  : BitVec 6
  subport : BitVec 3
  st      : ItemState
  lastStop : BitVec 8
  opstate : BitVec 32
  cause   : Option ParkCause
  outq    : List OutWord
  inFrame : AMap (BitVec 3) Bytes
  claims  : AMap (BitVec 3) (BitVec 32 × Nat)
  block   : Bytes
  unitLen : Nat
  since   : BitVec 64
  startRows : Nat
  rows    : List SortRow
  opens   : AMap (BitVec 16) (List Vals)
  stall   : Option (BitVec 64)
  pagesIn : List (Nat × Nat)
  part    : Nat
  runRows : Nat
  ls      : Nat
  spill   : Nat
  pageDue : Option (BitVec 64)
deriving DecidableEq, Repr

structure Flow where
  number : BitVec 16
  atomic : Bool
  cursor : Nat
  done   : Bool
deriving DecidableEq, Repr

/-- A runner: its running item, its local slot, when each came there, whether its item has been told to stop for the one in the slot
(07 R231), and whether it is out of service (14 R437). -/
structure RunnerState where
  running : Option Nat
  slot    : Option Nat
  slottedAt : Nat
  startedAt : Nat
  stopDue : Bool
  out     : Bool
deriving DecidableEq, Repr

/-! ### Streams (06) -/

inductive StreamState where
  | opened | ended | failed
deriving DecidableEq, Repr

/-- A committed word (06 R187, R209): its bytes, VB, the eight check bits of each of its eight 64-bit lanes, and the parity bit of
its tag array entry. -/
structure StreamWord where
  bits : BitVec 512
  vb   : BitVec 7
  chk  : BitVec 64
  par  : Bool
deriving DecidableEq, Repr

/-- A frame's positions in a framed stream (06 R198, R199); `got` holds the words popped of it, `short` that one of its words was
committed with VB below 64. -/
structure FramePos where
  no     : Nat
  start  : BitVec 32
  words  : Nat
  filled : Nat
  popped : Nat
  owner  : Nat
  claim  : Option Nat
  origin : Nat
  got    : Bytes
  short  : Bool
deriving DecidableEq, Repr

/-- What an input port of an EC keeps in the stream context (13, Stream ports): the valid bytes of the current word, the
offset into them, the bytes left in the item's range, none where its range does not limit the port, and the offset at which the
next word popped goes on, where its first bytes were read before the word was returned (06 R200). -/
structure PortIn where
  cur  : Bytes
  off  : Nat
  left : Option Nat
  skip : Nat
deriving DecidableEq, Repr

/-- A stream (06). On a framed stream each item has an open word and a reading place of its own, under its number; on an
unframed one they pass from item to item, under 0. `rowsIn` counts the rows of the frames allocated. Of the words filled, those of
`inMiddle` are in the middle; `Stream.inHead` says which of the others are in the head, the rest is in the tail (R201, R203). -/
structure Stream where
  elem    : Nat
  framed  : Bool
  spillKib : Nat
  wp      : BitVec 32
  rp      : BitVec 32
  wp2     : BitVec 32
  rp2     : BitVec 32
  pages   : Nat
  words   : AMap (BitVec 32) StreamWord
  inMiddle : List (BitVec 32)
  frames  : List FramePos
  nextFrame : Nat
  rowsIn  : Nat
  opens   : AMap Nat Bytes
  holder  : Option Nat
  st      : StreamState
  home    : BitVec 3
  gated   : Bool
  discard : Bool
  reads   : AMap Nat PortIn
deriving DecidableEq, Repr

/-! ### Operator contexts (08-12) -/

/-- A build row of a hash join (09 R279, R285). -/
structure BuildRow where
  key     : Bytes
  nullKey : Bool
  payload : Vals
  hit     : Bool
deriving DecidableEq, Repr

/-- A QS quantile sketch (09 R301). -/
structure Qs where
  ty     : BitVec 8
  levels : List (List Val)
  parity : List Bool
  n      : Nat
deriving DecidableEq, Repr

/-- What one aggregate function keeps for a group (09 R293-R303). -/
structure AggCell where
  count  : Nat
  sum    : Int
  fsum   : BitVec 64
  fexact : List (BitVec 64)
  best   : Option Val
  picks  : List Val
  seen   : List Bytes
  hll    : AMap (BitVec 14) (BitVec 6)
  qs     : Qs
deriving DecidableEq, Repr

structure Group where
  key   : Bytes
  kvals : Vals
  cells : List AggCell
deriving DecidableEq, Repr

/-- What an operator of a running query holds between its items (08-12): among it a hash table's home slice (09 R278), the partial
records of final tables that spill (09 R297), the partitions whose probe match bits are kept (09 R287),
and the items with a frame of UNION that has not left, in the order of their claims (10 R330). -/
structure OpCtx where
  ended     : Bool
  shapes    : AMap (BitVec 3) (List (BitVec 8))
  build     : List BuildRow
  buildRows : Nat
  nullBuild : Bool
  partitioned : Bool
  handleSent : Bool
  handleRead : Bool
  passDone  : Bool
  probes    : List SortRow
  pairRoom  : Option Nat
  partials  : AMap (BitVec 8) (List Group)
  records   : AMap (BitVec 8) (List Group)
  finals    : AMap (BitVec 8) (List Group)
  emitted   : List (BitVec 8)
  runs      : List (List SortRow)
  merging   : Bool
  ports     : AMap (BitVec 3) (List SortRow)
  outRows   : List SortRow
  lastKey   : AMap (BitVec 3) Bytes
  taken     : Nat
  codeSets  : AMap (BitVec 8 × BitVec 8 × BitVec 20) (List Bool)
  content   : Bytes
  useq      : BitVec 32
  cbseq     : BitVec 32
  sendq     : List XchFrame
  home      : BitVec 3
  order     : List Nat
  spilled   : AMap (BitVec 8) (List Group)
  bitParts  : List Nat
  lsUnits   : Nat
  spill     : Nat
  leave     : Bool
deriving DecidableEq, Repr

/-! ### The ASA (11) -/

inductive PodState where
  | free | loading | serving | clearing
deriving DecidableEq, Repr

structure Slot where
  key    : BitVec 160
  tag    : BitVec 32
  valid  : Bool
  parity : BitVec 4
deriving DecidableEq, Repr

structure Pod where
  st      : PodState
  owner   : Option (Tag × BitVec 8)
  width   : BitVec 2
  entries : Nat
  slots   : AMap (BitVec 12) Slot
  casId   : Option (BitVec 32)
  reload  : List (BitVec 12)
  scanPos : BitVec 12
deriving DecidableEq, Repr

/-- A cascaded image active on the head (11 R364), or registered on a member. -/
structure Ctag where
  casId  : BitVec 32
  query  : Option Tag
  ready  : List (BitVec 3)
  closed : Bool
deriving DecidableEq, Repr

/-- A search of the head in flight, or of a member whose word is still to go out, with its local answer (11 R365); `live`
is false once its CTAG is closed. -/
structure CasSlot where
  live : Bool
  ctag : BitVec 4
  key  : BitVec 320
  mask : BitVec 320
  mine : BitVec 64
deriving DecidableEq, Repr

structure Asa where
  pods    : AMap (BitVec 4) Pod
  step    : BitVec 2
  period  : BitVec 10
  nextPeriod : BitVec 10
  casEn   : Bool
  casPos  : BitVec 3
  casDepth : BitVec 4
  trained : Bool
  ctags   : AMap (BitVec 4) Ctag
  members : AMap (BitVec 4) Ctag
  slots   : List CasSlot
  known   : List CasSlot
  sseq    : BitVec 16
  chkRun  : Nat
  lastAnswer : BitVec 64
  broken  : Bool
deriving DecidableEq, Repr

/-! ### SCA cores (13, 14) -/

structure Core where
  x        : AMap (BitVec 5) (BitVec 64)
  v        : AMap (BitVec 5) (BitVec 2048)
  p        : AMap (BitVec 3) (BitVec 256)
  pc       : BitVec 64
  vl       : BitVec 64
  sew      : BitVec 2
  vprog    : BitVec 64
  fflags   : BitVec 5
  lcount0  : BitVec 64
  lstart0  : BitVec 64
  lend0    : BitVec 64
  lcount1  : BitVec 64
  lstart1  : BitVec 64
  lend1    : BitVec 64
  cycle    : BitVec 64
  instret  : BitVec 64
  itemOrigin : BitVec 64
  itemCount  : BitVec 64
  mode     : BitVec 2
  gm       : Bool
  cause    : BitVec 64
  eval     : BitVec 64
  kentryPc : BitVec 64
  kentrySp : BitVec 64
  klinkPc  : BitVec 64
  klinkStatus : BitVec 64
  klinkVprog  : BitVec 64
  ssp      : BitVec 64
  ssbase   : BitVec 64
  sslimit  : BitVec 64
  lssp     : BitVec 64
  lssbase  : BitVec 64
  lsslimit : BitVec 64
  inten    : BitVec 7
  ipend    : BitVec 7
  ievals   : AMap AsyncSrc (BitVec 64)
  wdcnt    : BitVec 64
  kbase    : BitVec 64
  kitem    : BitVec 256
  maskCount : Nat
  halted   : Bool
  waiting  : Bool
  scratch  : Memory
  code     : Bytes
  scratchKib : Nat
  item     : Option Nat
deriving DecidableEq, Repr

/-- Whose job a compression engine is to run: a command of the load path, or a scan item that reads a wrapped page of a segment (12
R382, R384). -/
inductive JobOwner where
  | cmd (t : Tag)
  | page (item seg off : Nat)
deriving DecidableEq, Repr

/-- A job that waits at a compression engine (12 R381, R382). -/
structure JobWait where
  engine : BitVec 3
  prio   : BitVec 4
  owner  : JobOwner
  decode : Bool
  job    : CompJob
deriving DecidableEq, Repr

/-- The Dispatcher (07): items, flows, runners, and GAP; and the jobs that wait at the compression engines, in arrival order (12
R382). -/
structure Disp where
  items    : List Item
  nextItem : Nat
  returned : List Nat
  generated : List Nat
  grants   : AMap (BitVec 8 × BitVec 4) Nat
  flows    : AMap (Tag × BitVec 16 × BitVec 8) Flow
  runners  : AMap Runner RunnerState
  clock    : Nat
  gap      : BitVec 5
  jobq     : List JobWait
deriving DecidableEq, Repr

/-- The cores, by item the registers and scratch of a stopped COMPUTE item (07 R233), whose number no later item takes, the Local Store,
the runtime's image and the pool as F mode sees it. -/
structure Cores where
  cores     : AMap CoreId Core
  saved     : AMap Nat Core
  ls        : Memory
  runtime   : Memory
  pool      : Memory
  masklimit : BitVec 64
deriving DecidableEq, Repr

/-! ### DRAM (16) -/

inductive ChanState where
  | empty | active | held | retired | disabled
deriving DecidableEq, Repr

inductive RankState where
  | active | migrating | filling | spare | retired | absent
deriving DecidableEq, Repr

/-- A rank; `ces` lists its corrections of the last hour with the lane each is attributed to, `delay` stands for the trained delay values
of its lanes and strobes (16 R484, R486). -/
structure Rank where
  st      : RankState
  owed    : Nat
  ces     : List (BitVec 64 × Option (BitVec 7))
  drift   : BitVec 8
  delay   : BitVec 16
deriving DecidableEq, Repr

structure Chan where
  st       : ChanState
  rate     : BitVec 3
  rateMax  : BitVec 3
  rateFit  : BitVec 3
  dimms    : BitVec 2
  /-- Density in Gb and stack height of its devices (16 R469). -/
  gb       : BitVec 6
  high     : BitVec 3
  capGib   : Nat
  spareEn  : Bool
  hrGib    : Nat
  hrUsed   : Nat
  ranks    : List Rank
  others   : List (BitVec 4)
  bases    : AMap (BitVec 4) Nat
  cursor   : Nat
  retrain  : Bool
deriving DecidableEq, Repr

structure Dram where
  chans     : AMap (BitVec 4) Chan
  poolEn    : Bool
  mapErr    : Bool
  scrubH    : BitVec 8
  thresh    : BitVec 16
  windowMs  : BitVec 16
  map       : AMap (BitVec 4) (BitVec 64)
  schedule  : List (BitVec 4)
  poison    : List Nat
  rebuilding : Option (BitVec 4)
  rebuilt   : Nat
deriving DecidableEq, Repr

/-! ### Peer ports, the pair and discovery (18) -/

inductive LinkState where
  | down | training | up | disabled
deriving DecidableEq, Repr

structure Fragment where
  cls   : BitVec 8
  src   : BitVec 16
  tag   : BitVec 32
  total : Nat
  got   : Bytes
deriving DecidableEq, Repr

structure Link where
  st     : LinkState
  serial : Option (BitVec 128)
  frags  : List Fragment
deriving DecidableEq, Repr

inductive Role where
  | single | joining | syncing | paired | solo | fenced
deriving DecidableEq, Repr

/-- What a FETCH_REQ of this engine is for (18 R545); a repair keeps what its event names (16 R663). -/
inductive FetchUse where
  | repair (seg line : Nat) (ch : BitVec 4) (rank : BitVec 2) (d1 : BitVec 64)
  | rebuild (seg : Nat)
deriving DecidableEq, Repr

/-- A frame that arrives from a participant (10 R328): its whole length, what has been received and what of it is committed
to the output stream; a block of credit goes back for each 1,024 bytes committed (10 R327). -/
structure XchIn where
  total     : Nat
  got       : Bytes
  committed : Nat
deriving DecidableEq, Repr

/-- An EXCHANGE of this engine (10 R324-R328). -/
structure Xch where
  xid     : BitVec 32
  query   : Tag
  op      : BitVec 16
  nodes   : List (BitVec 16)
  regs    : List (BitVec 16)
  credits : AMap (BitVec 16) Nat
  ends    : List (BitVec 16)
  endSent : Bool
  inbox   : AMap (BitVec 16) (List XchIn)
deriving DecidableEq, Repr

structure Pair where
  links    : AMap (BitVec 2) Link
  role     : Role
  lead     : Bool
  fenceDriven : Bool
  fenceWait : Bool
  takeoverDue : Bool
  aliveOut : Bool
  aliveRun : Bool
  aliveIn  : Bool
  epoch    : BitVec 32
  mseq     : BitVec 32
  fwdId    : BitVec 32
  hbCount  : BitVec 32
  fenceIn  : Bool
  partnerPause : Bool
  partnerJpos  : BitVec 64
  partnerCount : BitVec 64
  syncTo   : Option (BitVec 32)
  directory : List (BitVec 8 × BitVec 16)
  reqId    : BitVec 32
  fetches  : AMap (BitVec 32) FetchUse
  xchs     : List Xch
  early    : AMap (BitVec 32 × BitVec 16) Nat
deriving DecidableEq, Repr

structure Discovery where
  linkEn     : BitVec 3
  rediscover : Bool
  nodeId     : Option (BitVec 12)
  parent     : Option (BitVec 2)
  children   : List (BitVec 2 × Nat × Nat)
  ring       : List (BitVec 2)
  dseq       : BitVec 32
  rootSerial : BitVec 128
  waitPort   : Option (BitVec 2)
  nextId     : Nat
  done       : Bool
  conflict   : Bool
deriving DecidableEq, Repr

/-! ### Power (19) -/

inductive ClusterState where
  | rest | warmup | sprint
deriving DecidableEq, Repr

structure Leave where
  op     : LeaveOp
  tokens : Nat
  inst   : BitVec 8
  prio   : BitVec 4
  no     : Nat
  since  : BitVec 64
  items  : List Nat
deriving DecidableEq, Repr

structure Power where
  clusters : AMap (BitVec 3) ClusterState
  waking   : List (BitVec 3)
  queue    : List Leave
  held     : List Leave
  nextReq  : Nat
  watts    : BitVec 9
  warmUs   : BitVec 8
  restUs   : BitVec 12
  tlimit   : BitVec 7
  thrPct   : BitVec 4
  tsel     : BitVec 5
  temps    : List (BitVec 8)
  tlim     : Bool
  thr      : Bool
deriving DecidableEq, Repr

/-! ### RAS, firmware, the device (20, 21, 22) -/

structure RasRec where
  id    : BitVec 16
  sev   : BitVec 8
  inst  : BitVec 8
  rseq  : BitVec 32
  time  : BitVec 64
  d0    : BitVec 64
  d1    : BitVec 64
  extra : BitVec 256
deriving DecidableEq, Repr

structure Ras where
  counters : AMap (BitVec 16) (BitVec 32)
  log      : List RasRec
  rseq     : BitVec 32
  wrapped  : Bool
  holding  : List EvRec
  holdSeq  : BitVec 32
  ceThresh : BitVec 16
deriving DecidableEq, Repr

/-- A directory copy of the boot flash that is valid (20 R602). -/
structure FlashDir where
  slotB : Bool
  dseq  : BitVec 32
deriving DecidableEq, Repr

inductive ActStep where
  | loaded | paused
deriving DecidableEq, Repr

/-- A live activation in progress (20 R609): `mgmt` when the management port asked for it, else `tag` is the FW_ACTIVATE that did, none
once a forced stop has ended that command. -/
structure Activation where
  tag  : Option Tag
  step : ActStep
  mgmt : Bool
deriving DecidableEq, Repr

/-- A firmware slot: its bytes as 4 KiB units written since the erase, listed by their number. -/
abbrev FlashSlot := AMap Nat Bytes

/-- `units` lists, for a slot (true: B) erased since the last start, the units written since that erase (20 R607);
`runSvn` and `runDigest` are of the image that runs (20 R613); `late` lists the FW_ACTIVATE commands that were fetched while an activation
was in progress (20 R608). -/
structure Fw where
  slotA   : FlashSlot
  slotB   : FlashSlot
  dir0    : Option FlashDir
  dir1    : Option FlashDir
  units   : AMap Bool (List Nat)
  running : BitVec 32
  runSvn  : BitVec 16
  runDigest : BitVec 384
  fuseSvn : BitVec 16
  act     : Option Activation
  late    : List Tag
deriving DecidableEq, Repr

/-- Where the device stands between reset and READY (20 R600, R604, R606; 04 R133; 19 R575). -/
inductive Phase where
  | starting | ready | saved | fatal | recovery
deriving DecidableEq, Repr

/-- What the save record and the retained DRAM restore (04 R133-R135, 17 R513, 21 R622). -/
structure SaveRec where
  /-- The trained delay values of every channel, and the CRC-32C (04 R133). -/
  delays : AMap (BitVec 4) (List (BitVec 16))
  crc    : BitVec 32
  insts  : AMap (BitVec 8) Inst
  tables : AMap (BitVec 8 × BitVec 16) Table
  segs   : AMap Nat Segment
  journal : List (BitVec 64 × Bytes)
  jpos   : BitVec 64
  dram   : Dram
  epoch  : BitVec 32
deriving DecidableEq, Repr

/-- `flrDue` holds the FLRs that arrived during an activation pause, in order (20 R610), each with the tags whose writes it will find
committed. -/
structure Glb where
  phase     : Phase
  straps    : Straps
  manager   : Option (BitVec 8)
  nextManager : Option (BitVec 8)
  fetchPaused : Bool
  flrDue    : List (BitVec 8 × List Tag)
  saveDone  : Bool
  alert     : Bool
  thermtrip : Bool
  ports     : BitVec 4
  perst     : BitVec 4
  vfs       : AMap (BitVec 2) (BitVec 6)
  save      : Option SaveRec
  fatalCause : BitVec 64
deriving DecidableEq, Repr

/-- The result of the last job of a compression engine (12 R376, R381). -/
structure JobDone where
  job     : CompJob
  limit   : Bool
  broken  : Bool
  output  : Bytes
deriving DecidableEq, Repr

/-- The attributes of a posted write (15 R449, R467): Relaxed Ordering, No Snoop, ID-Based Ordering, and whether it is a translated
request. -/
structure WriteAttr where
  relaxed    : Bool
  noSnoop    : Bool
  ido        : Bool
  translated : Bool
deriving DecidableEq, Repr

/-- What the engine sends to the outside: host writes, MSI-X messages, page requests, Relay messages, answers.
The model's own record of what an outside party sees, the newest first. -/
inductive Sent where
  | hostWrite (inst : BitVec 8) (pasid : Option (BitVec 20)) (addr : BitVec 64) (bs : Bytes) (attr : WriteAttr)
  | zeroRead (inst : BitVec 8) (pasid : Option (BitVec 20)) (addr : BitVec 64)
  | msix (inst : BitVec 8) (vector : BitVec 11) (addr : BitVec 64) (data : BitVec 32)
  | pageRequest (k : PageKey)
  | invalidated (inst : BitVec 8) (pasid : Option (BitVec 20)) (page : BitVec 52)
  | relay (port : BitVec 2) (cls : BitVec 8) (dst src : BitVec 16) (tag : BitVec 32) (payload : Bytes)
  | pme (inst : BitVec 8)
  | internalError (port : BitVec 2)
  | asaAnswer (pod : BitVec 4) (answer : BitVec 64)
  | cascadeWord (w : BitVec 64)
  | mgmt (answer : Bytes)
  | mgmtError
deriving DecidableEq, Repr

/-- The whole machine.  `pending` holds the commands that wait, the first in front. -/
structure State where
  pending : List Instr
  time    : BitVec 64
  glb     : Glb
  fns     : AMap (BitVec 8) Fn
  insts   : AMap (BitVec 8) Inst
  rings   : Rings
  store   : Store
  xlat    : Xlat
  queries : List Query
  disp    : Disp
  streams : AMap StreamRef Stream
  ops     : AMap (Tag × BitVec 16) OpCtx
  asa     : Asa
  cores   : Cores
  jobs    : AMap (BitVec 3) JobDone
  dram    : Dram
  pair    : Pair
  disc    : Discovery
  power   : Power
  ras     : Ras
  fw      : Fw
  out     : List Sent
  free    : Nat
deriving DecidableEq, Repr

/-- Where a command stops with a fault: nowhere in this model; every fault of the spec is a status, an event or a
trap, and those are next states.  The constructor is for an address no memory of a core has, which the meanings
turn into the ACCESS trap before it can be raised.  Safe. -/
inductive Fault where
  /-- No memory lies at the address.  Raised by nothing: kept so that the type has a value.  Safe. -/
  | noMemory
deriving DecidableEq, Repr

/-- Why a command has no meaning. -/
inductive Refusal where
  /-- The command is not modelled yet.  Raised by an arm of `exec` only.  Safe. -/
  | notModelled (mnemonic : String)
  /-- A core in F mode reads or writes the device register window, whose layout seen from F the spec does
  not give (14 R423).  Raised by the SCA loads and stores.  Safe. -/
  | deviceWindow
deriving DecidableEq, Repr

/-- The machine right after the rise of RESET_N, before a cold start (R606) or a warm start (R135) has run: every
register at its reset value (21 R622-R634), no instance, no queue, an empty pool (04 R136), READY 0. -/
def State.reset : State where
  pending := []
  time := 0
  glb := {
    phase := .starting, straps := { bootSel := 0, pairEn := false, rootN := true },
    manager := some 0, nextManager := none, fetchPaused := false, flrDue := [], saveDone := false, alert := false,
    thermtrip := false, ports := 0, perst := 0, vfs := [], save := none, fatalCause := 0 }
  fns := []
  insts := []
  rings := { sqs := [], cqs := [], cmds := [], batches := [], nextCmd := 0, nextBatch := 0, served := [] }
  store := {
    tables := [], segs := [], writes := [], flushes := [], reads := [], nextSeg := 0, nextGen := 0, nextWrite := 0,
    jpos := 0, journal := [] }
  xlat := { reqs := [], waiting := [], faults := [], late := [], lastData := [], atc := [] }
  queries := []
  disp := {
    items := [], nextItem := 0, returned := [], generated := [], grants := [], flows := [], runners := [],
    clock := 0, gap := 4, jobq := [] }
  streams := []
  ops := []
  asa := {
    pods := [], step := 0, period := 10, nextPeriod := 10, casEn := false, casPos := 0, casDepth := 1,
    trained := false, ctags := [], members := [], slots := [], known := [], sseq := 0, chkRun := 0, lastAnswer := 0, broken := false }
  cores := { cores := [], saved := [], ls := [], runtime := [], pool := [], masklimit := 8192 }
  jobs := []
  dram := {
    chans := [], poolEn := false, mapErr := false, scrubH := 24, thresh := 256, windowMs := 1000, map := [],
    schedule := [], poison := [], rebuilding := none, rebuilt := 0 }
  pair := {
    links := [], role := .single, lead := false, fenceDriven := false, fenceWait := false, takeoverDue := false,
    aliveOut := false, aliveRun := false, aliveIn := false, epoch := 0, mseq := 0, fwdId := 0, hbCount := 0,
    fenceIn := false, partnerPause := false, partnerJpos := 0, partnerCount := 0, syncTo := none, directory := [], reqId := 0, fetches := [], xchs := [], early := [] }
  disc := {
    linkEn := 7, rediscover := false, nodeId := none, parent := none, children := [], ring := [], dseq := 0,
    rootSerial := 0, waitPort := none, nextId := 0, done := false, conflict := false }
  power := {
    clusters := [], waking := [], queue := [], held := [], nextReq := 0, watts := 420, warmUs := 20, restUs := 1000,
    tlimit := 115, thrPct := 5, tsel := 0, temps := [], tlim := false, thr := false }
  ras := {
    counters := [], log := [], rseq := 0, wrapped := false, holding := [], holdSeq := 0, ceThresh := 0 }
  fw := {
    slotA := Sys2Proof.Config.shippedImage, slotB := [], dir0 := some { slotB := false, dseq := 1 }, dir1 := none, units := [], running := 0, runSvn := 0,
    runDigest := 0, fuseSvn := 0, act := none, late := [] }
  out := []
  free := 0

end Sys2Proof.Machine
end

