-- ==== Sys2Proof/Machine/Ops.lean ====
section
/-! DEFINITION. The named operations over maps, bytes, memories and the parts of the state, shared by every
meaning. -/

namespace Sys2Proof.Machine

/-! ### Maps -/

/-- The value under a key. -/
def AMap.find? {κ α : Type} [DecidableEq κ] : AMap κ α → κ → Option α
  | [], _ => none
  | (k, a) :: r, x => if k = x then some a else AMap.find? r x

/-- The value under a key, or the default of the map. -/
def AMap.get {κ α : Type} [DecidableEq κ] (m : AMap κ α) (k : κ) (d : α) : α :=
  (m.find? k).getD d

/-- The map without a key. -/
def AMap.erase {κ α : Type} [DecidableEq κ] : AMap κ α → κ → AMap κ α
  | [], _ => []
  | (k, a) :: r, x => if k = x then AMap.erase r x else (k, a) :: AMap.erase r x

/-- The map with a value under a key. -/
def AMap.insert {κ α : Type} [DecidableEq κ] (m : AMap κ α) (k : κ) (a : α) : AMap κ α :=
  (k, a) :: m.erase k

/-- The map with the value under a key changed, if it is listed. -/
def AMap.update {κ α : Type} [DecidableEq κ] (m : AMap κ α) (k : κ) (f : α → α) : AMap κ α :=
  m.map fun e => if e.1 = k then (e.1, f e.2) else e

/-- Every value changed. -/
def AMap.mapVals {κ α : Type} (m : AMap κ α) (f : κ → α → α) : AMap κ α :=
  m.map fun e => (e.1, f e.1 e.2)

/-- The entries whose key a test keeps. -/
def AMap.keep {κ α : Type} (m : AMap κ α) (f : κ → Bool) : AMap κ α :=
  m.filter fun e => f e.1

/-- Whether a key is listed. -/
def AMap.has {κ α : Type} [DecidableEq κ] (m : AMap κ α) (k : κ) : Bool :=
  (m.find? k).isSome

/-! ### Numbers and bytes -/

/-- The least multiple of `m` at or above `n`. -/
def roundUp (n m : Nat) : Nat := (n + (m - 1)) / m * m

/-- The quotient rounded up. -/
def ceilDiv (n m : Nat) : Nat := (n + (m - 1)) / m

/-- A number as `n` bytes, least significant first (00 R2). -/
def leBytes : Nat → Nat → Bytes
  | 0, _ => []
  | n + 1, v => BitVec.ofNat 8 v :: leBytes n (v / 256)

/-- The number that bytes spell, least significant first (00 R2). -/
def leNat : Bytes → Nat
  | [] => 0
  | b :: r => b.toNat + 256 * leNat r

/-- `n` bytes of zeros. -/
def zeros (n : Nat) : Bytes := List.replicate n 0

/-- The bytes from an offset, at most `n` of them. -/
def slice (bs : Bytes) (off n : Nat) : Bytes := (bs.drop off).take n

/-- A little-endian field of a structure. -/
def fld (bs : Bytes) (off n : Nat) : Nat := leNat (slice bs off n)

/-- One byte of a structure, 0 past its end. -/
def byteAt (bs : Bytes) (off : Nat) : Byte := (bs.drop off).headD 0

/-- Bytes padded with zeros to a length. -/
def padTo (bs : Bytes) (n : Nat) : Bytes := bs ++ zeros (n - bs.length)

/-- Whether every byte is zero. -/
def allZero (bs : Bytes) : Bool := bs.all (· == 0)

/-- The bytes of a 64-byte word of memory, byte 0 in the low bits. -/
def wordBytes (w : BitVec 512) : Bytes := leBytes 64 w.toNat

/-- The 64-byte word that bytes spell. -/
def bytesWord (bs : Bytes) : BitVec 512 := BitVec.ofNat 512 (leNat (bs.take 64))

/-- Bits `hi` to `lo` of a number. -/
def bits (v hi lo : Nat) : Nat := v / 2 ^ lo % 2 ^ (hi + 1 - lo)

/-- One bit of a number. -/
def bit (v n : Nat) : Bool := v.testBit n

/-- The bytes cut into pieces of `n` bytes. -/
def chunks (n : Nat) : Nat → Bytes → List Bytes
  | 0, _ => []
  | _, [] => []
  | k + 1, bs => bs.take n :: chunks n k (bs.drop n)

/-- Bytes with `new` written over them from an offset. -/
def overlay (bs : Bytes) (off : Nat) (new : Bytes) : Bytes :=
  padTo (bs.take off) off ++ new ++ bs.drop (off + new.length)

/-- Whether a list holds an element twice. -/
def hasDup {α : Type} [DecidableEq α] : List α → Bool
  | [] => false
  | a :: r => r.contains a || hasDup r

/-- The list without repeats, first occurrences kept. -/
def dedup {α : Type} [DecidableEq α] : List α → List α
  | [] => []
  | a :: r => a :: (dedup r).filter (· ≠ a)

/-- The positions at which a test holds. -/
def positions {α : Type} (f : α → Bool) (l : List α) : List Nat :=
  (l.zipIdx.filter fun e => f e.1).map (·.2)

/-- Replace the element at a position. -/
def setAt {α : Type} (l : List α) (i : Nat) (a : α) : List α := l.set i a

/-- The lowest number, below `fuel`, that a list does not hold. -/
def lowestFree (used : List Nat) : Nat → Nat → Option Nat
  | 0, _ => none
  | fuel + 1, n => if used.contains n then lowestFree used fuel (n + 1) else some n

/-- Insert into a sorted list, after the elements not above it. -/
def insertBy {α : Type} (lt : α → α → Bool) (x : α) : List α → List α
  | [] => [x]
  | a :: r => if lt x a then x :: a :: r else a :: insertBy lt x r

/-- A list sorted, equal elements in their order. -/
def sortBy {α : Type} (lt : α → α → Bool) (l : List α) : List α := l.foldl (fun acc x => insertBy lt x acc) []

/-! ### Byte-addressed memory -/

/-- The byte at an address; 0 where nothing is listed. -/
def Memory.read : Memory → Nat → Byte
  | [], _ => 0
  | (a, b) :: r, x => if a = x then b else Memory.read r x

/-- The memory without an address. -/
def Memory.drop : Memory → Nat → Memory
  | [], _ => []
  | (a, b) :: r, x => if a = x then Memory.drop r x else (a, b) :: Memory.drop r x

/-- A non-zero byte put at an address, in the order of the addresses. -/
def Memory.put : Memory → Nat → Byte → Memory
  | [], x, v => [(x, v)]
  | (a, b) :: r, x, v =>
    if x < a then (x, v) :: (a, b) :: r
    else if x = a then (x, v) :: r
    else (a, b) :: Memory.put r x v

/-- One byte written. -/
def Memory.write (m : Memory) (a : Nat) (v : Byte) : Memory :=
  if v = 0 then m.drop a else m.put a v

/-- The canonical form: addresses strictly rising from a bound, no byte 0. -/
def Memory.wfFrom : Memory → Nat → Bool
  | [], _ => true
  | (a, b) :: r, lo => decide (lo ≤ a) && decide (b ≠ 0) && Memory.wfFrom r (a + 1)

/-- The canonical form of a memory. -/
def Memory.wf (m : Memory) : Bool := m.wfFrom 0

/-- Bytes written from an address up. -/
def Memory.writeBytes : Memory → Nat → Bytes → Memory
  | m, _, [] => m
  | m, a, b :: r => (m.write a b).writeBytes (a + 1) r

/-- `n` bytes read from an address up. -/
def Memory.readBytes (m : Memory) (a : Nat) : Nat → Bytes
  | 0 => []
  | n + 1 => m.read a :: m.readBytes (a + 1) n

/-! ### Defaults of the maps of the state -/

/-- A vector as PCI Express and 20 R587 reset it: masked, COUNT 1, TIME 0. -/
def Vec.reset : Vec where
  count := 1
  time := 0
  c := 0
  timer := false
  since := 0
  masked := true
  pending := false
  addr := 0
  data := 0

/-- A function as it stands when it is not present (17 R513), its registers at reset (21 R625-R627). -/
def Fn.reset : Fn where
  present := false
  bme := false
  d3hot := false
  pmeEn := false
  ats := false
  pri := false
  pasidEn := false
  relaxedEn := true
  alloc := 0
  priBlocked := false
  admSqBase := 0
  admCqBase := 0
  admEn := false
  sqLog2 := 0
  cqLog2 := 0
  cfgErr := false
  admSlot := 0
  admReason := 0
  evtPend := 0
  evtRoute := []
  evtLog := []
  eseq := 0
  vectors := []
  fnMask := false
  heldLow := []
  latched := []
  lastRead := 0

/-- An ABSENT instance (17 R502); PRI_TIMEOUT is 1,000 ms (15 R452). -/
def Inst.absent : Inst where
  st := .absent
  hold := false
  maxSq := 0
  maxCq := 0
  maxFlows := 0
  sqLimit := 0
  cqLimit := 0
  tablePages := 0
  spillPages := 0
  sspillPages := 0
  lsUnits := 0
  weight := 0
  pacerPct := 0
  fetchRate := 0
  priTimeout := 1000
  tArea := []
  mArea := []
  images := []
  nextHandle := 1
  quiesce := none
  graceEnd := 0
  discarded := 0
  accounts := []
  unsynced := false

/-- A channel nothing is fitted on (16 R492, 21 R631). -/
def Chan.empty : Chan where
  st := .empty
  rate := 0
  rateMax := 0
  rateFit := 0
  dimms := 0
  gb := 16
  high := 1
  capGib := 0
  spareEn := false
  hrGib := 0
  hrUsed := 0
  ranks := []
  others := []
  bases := []
  cursor := 0
  retrain := false

def Link.down : Link where
  st := .down
  serial := none
  frags := []

def Pod.free : Pod where
  st := .free
  owner := none
  width := 0
  entries := 0
  slots := []
  casId := none
  reload := []
  scanPos := 0

def RunnerState.idle : RunnerState where
  stopDue := false
  running := none
  slot := none
  slottedAt := 0
  startedAt := 0
  out := false

def Flow.fresh (number : BitVec 16) (atomic : Bool) : Flow where
  number := number
  atomic := atomic
  cursor := 0
  done := false

/-! ### Parts of the state -/

def State.fn (s : State) (i : BitVec 8) : Fn := s.fns.get i Fn.reset
def State.inst (s : State) (i : BitVec 8) : Inst := s.insts.get i Inst.absent
def State.setFn (s : State) (i : BitVec 8) (f : Fn) : State := { s with fns := s.fns.insert i f }
def State.setInst (s : State) (i : BitVec 8) (v : Inst) : State := { s with insts := s.insts.insert i v }
def State.modFn (s : State) (i : BitVec 8) (g : Fn → Fn) : State := s.setFn i (g (s.fn i))
def State.modInst (s : State) (i : BitVec 8) (g : Inst → Inst) : State := s.setInst i (g (s.inst i))
/-- A thing sent to the outside. -/
def State.emit (s : State) (x : Sent) : State := { s with out := x :: s.out }
/-- The counter of free values after one has been drawn. -/
def State.tick (s : State) : State := { s with free := s.free + 1 }
/-- Whether an instant of the time base has been reached, its wrap allowed for. -/
def State.reached (s : State) (t : BitVec 64) : Bool := !(s.time - t).msb
/-- Whether an interval of so many ticks of the time base, 40 ns each, has passed since an instant (07 R237). -/
def State.passed (s : State) (since : BitVec 64) (ticks : Nat) : Bool := decide (ticks ≤ (s.time - since).toNat)
def State.sq (s : State) (i : BitVec 8) (q : BitVec 12) : Option Sq := s.rings.sqs.find? (i, q)
def State.cq (s : State) (i : BitVec 8) (q : BitVec 12) : Option Cq := s.rings.cqs.find? (i, q)
def State.setSq (s : State) (i : BitVec 8) (q : BitVec 12) (v : Sq) : State :=
  { s with rings := { s.rings with sqs := s.rings.sqs.insert (i, q) v } }
def State.setCq (s : State) (i : BitVec 8) (q : BitVec 12) (v : Cq) : State :=
  { s with rings := { s.rings with cqs := s.rings.cqs.insert (i, q) v } }
def State.dropSq (s : State) (i : BitVec 8) (q : BitVec 12) : State :=
  { s with rings := { s.rings with sqs := s.rings.sqs.erase (i, q) } }
def State.dropCq (s : State) (i : BitVec 8) (q : BitVec 12) : State :=
  { s with rings := { s.rings with cqs := s.rings.cqs.erase (i, q) } }
def State.cmd? (s : State) (t : Tag) : Option Cmd := s.rings.cmds.find? (·.tag == t)
def State.modCmd (s : State) (t : Tag) (g : Cmd → Cmd) : State :=
  { s with rings := { s.rings with cmds := s.rings.cmds.map fun c => if c.tag = t then g c else c } }
def State.dropCmds (s : State) (f : Cmd → Bool) : State :=
  { s with rings := { s.rings with cmds := s.rings.cmds.filter fun c => !f c } }
def State.query? (s : State) (t : Tag) : Option Query := s.queries.find? (·.tag == t)
def State.modQuery (s : State) (t : Tag) (g : Query → Query) : State :=
  { s with queries := s.queries.map fun q => if q.tag = t then g q else q }
def State.stream? (s : State) (r : StreamRef) : Option Stream := s.streams.find? r
def State.setStream (s : State) (r : StreamRef) (v : Stream) : State :=
  { s with streams := s.streams.insert r v }
def State.item? (s : State) (n : Nat) : Option Item := s.disp.items.find? (·.id == n)
def State.modItem (s : State) (n : Nat) (g : Item → Item) : State :=
  { s with disp := { s.disp with items := s.disp.items.map fun i => if i.id = n then g i else i } }
def State.op? (s : State) (t : Tag) (o : BitVec 16) : Option OpCtx := s.ops.find? (t, o)
def State.setOp (s : State) (t : Tag) (o : BitVec 16) (c : OpCtx) : State :=
  { s with ops := s.ops.insert (t, o) c }
def State.chan (s : State) (n : BitVec 4) : Chan := s.dram.chans.get n Chan.empty
def State.setChan (s : State) (n : BitVec 4) (c : Chan) : State :=
  { s with dram := { s.dram with chans := s.dram.chans.insert n c } }
def State.pod (s : State) (p : BitVec 4) : Pod := s.asa.pods.get p Pod.free
def State.setPod (s : State) (p : BitVec 4) (v : Pod) : State :=
  { s with asa := { s.asa with pods := s.asa.pods.insert p v } }
def State.link (s : State) (p : BitVec 2) : Link := s.pair.links.get p Link.down
def State.setLink (s : State) (p : BitVec 2) (l : Link) : State :=
  { s with pair := { s.pair with links := s.pair.links.insert p l } }
def State.runner (s : State) (r : Runner) : RunnerState := s.disp.runners.get r RunnerState.idle
def State.setRunner (s : State) (r : Runner) (v : RunnerState) : State :=
  { s with disp := { s.disp with runners := s.disp.runners.insert r v } }

/-! ### Functions and instances -/

/-- The host port of an instance and its function number (17 R501). -/
def instPort (i : BitVec 8) : Nat := i.toNat / 64

/-- The 4 KiB page of an address. -/
def pageOf (a : BitVec 64) : BitVec 52 := a.extractLsb' 12 52

/-- Translations that an ATC has used are kept in it: 4,096 for each port, the latest first (15 R449). -/
def keepTranslations (new old : List (BitVec 8 × Option (BitVec 20) × BitVec 52)) (port : Nat) :
    List (BitVec 8 × Option (BitVec 20) × BitVec 52) :=
  let all := new ++ old.filter fun e => !new.contains e
  (all.filter fun e => instPort e.1 == port).take 4096 ++ all.filter fun e => instPort e.1 != port

/-- An access that went through ends the count of consecutive faults on its pages (15 R452); with ATS its translations
stand in the ATC (15 R449). -/
def State.accessed (s : State) (i : BitVec 8) (pasid : Option (BitVec 20)) (addr : BitVec 64) (len : Nat)
    (write : Bool) : State :=
  let pages := (addr.toNat % 4096 + max len 1 + 4095) / 4096
  { s with xlat := { s.xlat with
      faults := s.xlat.faults.filter fun e =>
        !(e.1.inst == i && e.1.pasid == pasid && e.1.write == write &&
          decide (addr.toNat / 4096 ≤ e.1.page.toNat) &&
          decide (e.1.page.toNat * 4096 < addr.toNat + max len 1))
      atc :=
        if (s.fn i).ats then
          keepTranslations ((List.range (min pages 4096)).map fun k => (i, pasid, pageOf addr + BitVec.ofNat 52 k))
            s.xlat.atc (instPort i)
        else s.xlat.atc } }

def instFn (i : BitVec 8) : Nat := i.toNat % 64
/-- Whether the function of an instance is a PF. -/
def isPf (i : BitVec 8) : Bool := instFn i == 0
/-- The instance of the PF of a port. -/
def pfOf (port : BitVec 2) : BitVec 8 := BitVec.ofNat 8 (64 * port.toNat)
/-- Whether a function holds the manager role (17 R503). -/
def State.isManager (s : State) (i : BitVec 8) : Bool := s.glb.manager == some i
/-- MSI-X vectors of a function (17 R497). -/
def msixCount (i : BitVec 8) : Nat := if isPf i then 2048 else 64

/-- All instance numbers. -/
def allInsts : List (BitVec 8) := (List.range 256).map (BitVec.ofNat 8)

/-- Fold over a list, the state last. -/
def forEach {α : Type} (l : List α) (s : State) (f : State → α → State) : State := l.foldl f s

/-! ### Writes to host memory (15 R466, R467) -/

/-- The attributes of a function's write: Relaxed Ordering on data alone and only where its enable is set (whether the engine uses it on
a write is free: `Config.relaxes`), No Snoop and ID-Based Ordering never; a translated request under ATS. -/
def State.writeAttr (s : State) (i : BitVec 8) (data : Bool) (addr : BitVec 64) : WriteAttr where
  relaxed := data && (s.fn i).relaxedEn && Config.relaxes addr
  noSnoop := false
  ido := false
  translated := (s.fn i).ats

/-- The requests of a transfer: none crosses a 4 KiB boundary, in ascending order (15 R448); `fuel` is at least their number. -/
def requests : Nat → BitVec 64 → Bytes → List (BitVec 64 × Bytes)
  | 0, _, _ => []
  | fuel + 1, a, bs =>
    let n := 4096 - a.toNat % 4096
    if bs.length ≤ n then [(a, bs)] else (a, bs.take n) :: requests fuel (a + BitVec.ofNat 64 n) (bs.drop n)

/-- The write requests of a transfer go out. -/
def State.sendRequests (s : State) (i : BitVec 8) (pasid : Option (BitVec 20)) (addr : BitVec 64) (bs : Bytes) (data : Bool) : State :=
  forEach (requests (bs.length / 4096 + 2) addr bs) s fun s e => s.emit (.hostWrite i pasid e.1 e.2 (s.writeAttr i data e.1))

/-- Data goes out; the last address of it is kept for the ordered write that covers it. -/
def State.sendData (s : State) (i : BitVec 8) (pasid : Option (BitVec 20)) (addr : BitVec 64) (bs : Bytes) : State :=
  if bs.isEmpty then s
  else
    let s := s.sendRequests i pasid addr bs true
    { s with xlat := { s.xlat with
    lastData := s.xlat.lastData.insert (i, (s.fn i).ats) (pasid, addr + BitVec.ofNat 64 (bs.length - 1)) } }

/-- A CSW or a CQ entry goes out: where data before it went as the other kind of request, after a zero-length read of the last of that
data, which completes first. -/
def State.sendOrdered (s : State) (i : BitVec 8) (pasid : Option (BitVec 20)) (addr : BitVec 64) (bs : Bytes) : State :=
  let other := (i, !(s.fn i).ats)
  let s := match s.xlat.lastData.find? other with
    | some d => { s.emit (.zeroRead i d.1 d.2) with xlat := { s.xlat with lastData := s.xlat.lastData.erase other } }
    | none => s
  s.sendRequests i pasid addr bs false

/-- Data is written with its translation given: the access went through (R452). -/
def State.dataWrite (s : State) (i : BitVec 8) (pasid : Option (BitVec 20)) (addr : BitVec 64) (bs : Bytes) : State :=
  (s.accessed i pasid addr bs.length true).sendData i pasid addr bs

/-- A CSW or a CQ entry is written with its translation given. -/
def State.orderedWrite (s : State) (i : BitVec 8) (pasid : Option (BitVec 20)) (addr : BitVec 64) (bs : Bytes) : State :=
  (s.accessed i pasid addr bs.length true).sendOrdered i pasid addr bs

/-! ### The segment map's keepings -/

/-- The segments a table's cells name. -/
def Table.segIds (t : Table) : List Nat := t.cells.map (·.2)

/-- Segments that a table, a snapshot, a read in progress (02 R55, R60) or the rollback of a commit that is not yet
durable (04 R134) references. -/
def State.liveSegs (s : State) : List Nat :=
  (s.store.tables.map fun e => e.2.segIds).flatten ++
  (s.queries.map fun q => (q.snap.map fun e => e.2.segIds).flatten).flatten ++
  s.store.reads.map (·.2) ++
  s.store.writes.flatMap fun w => w.undoCell.toList ++ (w.undoTable.elim [] Table.segIds)

/-- Free every segment nothing references (02 R55). -/
def State.gcSegs (s : State) : State :=
  let live := s.liveSegs
  { s with store := { s.store with segs := s.store.segs.filter fun e => live.contains e.1 } }

/-- READY and neither fatal nor in recovery: the engine serves commands (20 R600, R604, R606). -/
def State.ready (s : State) : Bool := s.glb.phase == .ready

/-- The engine does anything at all: neither its state has been saved (04 R133) nor has it declared a fatal error (20 R600). -/
def State.working (s : State) : Bool := s.glb.phase != .saved && s.glb.phase != .fatal

/-! ### The pool's address map (16 R475, R478, R493) -/

def allChans : List (BitVec 4) := (List.range 12).map (BitVec.ofNat 4)

def mapValid (w : BitVec 64) : Bool := w.getLsbD 15
def mapChset (w : BitVec 64) : Nat := bits w.toNat 11 0
def mapGrain (w : BitVec 64) : Nat := bits w.toNat 13 12
def mapChbase (w : BitVec 64) : Nat := bits w.toNat 25 16
def mapBase (w : BitVec 64) : Nat := bits w.toNat 44 32
def mapSize (w : BitVec 64) : Nat := bits w.toNat 60 48

/-- Channels of a set, ascending. -/
def chset (w : BitVec 64) : List (BitVec 4) := allChans.filter fun c => bit (mapChset w) c.toNat

def mapGrainBytes (w : BitVec 64) : Nat := 256 * 16 ^ mapGrain w

/-- The region that holds a pool address. -/
def State.regionOf (s : State) (pa : Nat) : Option (BitVec 64) :=
  (List.find? (fun (e : BitVec 4 × BitVec 64) => mapValid e.2 && decide (mapBase e.2 * 2 ^ 30 ≤ pa) &&
    decide (pa < (mapBase e.2 + mapSize e.2) * 2 ^ 30)) s.dram.map).map (·.2)

/-- A retired channel's address maps to the headroom of the channels that were ACTIVE (R493). -/
def State.relocate (s : State) (ch : BitVec 4) (ca : Nat) : BitVec 4 × Nat :=
  let c := s.chan ch
  let m := max 1 c.others.length
  let u := ca / 256
  let t := c.others.getD (u % m) ch
  (t, c.bases.get t 0 * 2 ^ 30 + u / m * 256 + ca % 256)

/-- The channel and channel address to which the map sends a pool address, whether or not that channel is retired (R478). -/
def State.mapped (s : State) (pa : Nat) : Option (BitVec 4 × Nat) :=
  match s.regionOf pa with
  | none => none
  | some w =>
    let g := mapGrainBytes w
    let set := chset w
    let n := max 1 set.length
    let off := pa - mapBase w * 2 ^ 30
    some (set.getD (off / g % n) 0, mapChbase w * 2 ^ 30 + off / g / n * g + off % g)

/-- The channel and channel address of a pool address (R478, R493). -/
def State.poolMap (s : State) (pa : Nat) : Option (BitVec 4 × Nat) :=
  (s.mapped pa).map fun e => if (s.chan e.1).st = .retired then s.relocate e.1 e.2 else e

/-- Whether the channel of a pool address is held for retraining (16 R487). -/
def State.heldAt (s : State) (pa : Nat) : Bool := (s.poolMap pa).any fun e => (s.chan e.1).st == .held

end Sys2Proof.Machine
end

