-- ==== Sys2Proof/Machine/Codec.lean ====
section
/-! DEFINITION. The checksums and decoders of pages and jobs: CRC-32C (02 R33), the LZ4 block format (12 R371, R372)
and the output limit of every decode job (12 R375, R376). -/

namespace Sys2Proof.Machine

/-- One bit of CRC-32C, reflected. -/
def crcBit (c : BitVec 32) : BitVec 32 :=
  if c.getLsbD 0 then (c >>> 1) ^^^ 0x82F63B78 else c >>> 1

/-- One byte of CRC-32C. -/
def crcByte (c : BitVec 32) (b : Byte) : BitVec 32 :=
  crcBit (crcBit (crcBit (crcBit (crcBit (crcBit (crcBit (crcBit (c ^^^ b.setWidth 32))))))))

/-- CRC-32C of a byte string (02 R33). -/
def crc32c (bs : Bytes) : BitVec 32 := ~~~ (bs.foldl crcByte 0xFFFFFFFF)

/-- CRC-32C with four bytes taken as 0. -/
def crc32cHole (bs : Bytes) (off : Nat) : BitVec 32 := crc32c (overlay bs off (zeros 4))

/-! ### XXH64 (12 R373: the content checksum) -/

def xp1 : BitVec 64 := 0x9E3779B185EBCA87
def xp2 : BitVec 64 := 0xC2B2AE3D27D4EB4F
def xp3 : BitVec 64 := 0x165667B19E3779F9
def xp4 : BitVec 64 := 0x85EBCA77C2B2AE63
def xp5 : BitVec 64 := 0x27D4EB2F165667C5

def xround (acc x : BitVec 64) : BitVec 64 := (acc + x * xp2).rotateLeft 31 * xp1
def xmerge (acc v : BitVec 64) : BitVec 64 := (acc ^^^ xround 0 v) * xp1 + xp4

/-- The 32-byte stripes. -/
def xstripes : Nat → Bytes → BitVec 64 × BitVec 64 × BitVec 64 × BitVec 64 →
    (BitVec 64 × BitVec 64 × BitVec 64 × BitVec 64) × Bytes
  | 0, bs, v => (v, bs)
  | fuel + 1, bs, (a, b, c, d) =>
    if bs.length < 32 then ((a, b, c, d), bs)
    else
      let w (k : Nat) := BitVec.ofNat 64 (fld bs (8 * k) 8)
      xstripes fuel (bs.drop 32) (xround a (w 0), xround b (w 1), xround c (w 2), xround d (w 3))

/-- The bytes left after the stripes. -/
def xtail : Nat → Bytes → BitVec 64 → BitVec 64
  | 0, _, h => h
  | fuel + 1, bs, h =>
    if 8 ≤ bs.length then
      xtail fuel (bs.drop 8) ((h ^^^ xround 0 (BitVec.ofNat 64 (fld bs 0 8))).rotateLeft 27 * xp1 + xp4)
    else if 4 ≤ bs.length then
      xtail fuel (bs.drop 4) ((h ^^^ (BitVec.ofNat 64 (fld bs 0 4) * xp1)).rotateLeft 23 * xp2 + xp3)
    else
      match bs with
      | [] => h
      | b :: r => xtail fuel r ((h ^^^ (b.setWidth 64 * xp5)).rotateLeft 11 * xp1)

/-- XXH64 with a seed. -/
def xxh64 (seed : BitVec 64) (bs : Bytes) : BitVec 64 :=
  let (h, rest) : BitVec 64 × Bytes :=
    if bs.length < 32 then (seed + xp5, bs)
    else
      let ((a, b, c, d), rest) := xstripes bs.length bs (seed + xp1 + xp2, seed + xp2, seed, seed - xp1)
      let h := a.rotateLeft 1 + b.rotateLeft 7 + c.rotateLeft 12 + d.rotateLeft 18
      (xmerge (xmerge (xmerge (xmerge h a) b) c) d, rest)
  let h := xtail (rest.length + 1) rest (h + BitVec.ofNat 64 bs.length)
  let h := (h ^^^ (h >>> 33)) * xp2
  let h := (h ^^^ (h >>> 29)) * xp3
  h ^^^ (h >>> 32)

/-! ### Decoding under a limit (12 R375, R376) -/

/-- How a decode job ends (12 R376, R384). -/
inductive DecodeEnd where
  | complete
  | limit
  | undecodable
deriving DecidableEq, Repr

/-- A decode job's output, how it ended, and the input bytes after those it has consumed (R381). -/
structure Decoded where
  output : Bytes
  ending : DecodeEnd
  rest   : Bytes
deriving DecidableEq, Repr

/-- Output under construction: everything so far with the history before it, newest first, and how many bytes of it
are output. -/
structure OutBuf where
  rev : Bytes
  n   : Nat
deriving DecidableEq, Repr

/-- The output in order. -/
def OutBuf.bytes (o : OutBuf) : Bytes := (o.rev.take o.n).reverse

/-- Bytes appended. -/
def OutBuf.push (o : OutBuf) (bs : Bytes) : OutBuf := { rev := bs.reverse ++ o.rev, n := o.n + bs.length }

/-- A match copied: `len` bytes from `off` back, byte by byte. -/
def OutBuf.copy (off : Nat) : Nat → OutBuf → OutBuf
  | 0, o => o
  | len + 1, o => OutBuf.copy off len { rev := (o.rev.getD (off - 1) 0) :: o.rev, n := o.n + 1 }

/-- The end of a job: at the limit where the output passed `maxOut`, whatever else ended it after that (R376). -/
def OutBuf.ends (o : OutBuf) (maxOut : Nat) (e : DecodeEnd) (rest : Bytes) : Decoded :=
  if o.n > maxOut then ⟨o.bytes.take maxOut, .limit, rest⟩ else ⟨o.bytes, e, rest⟩

/-- A length field of an LZ4 token: 15 goes on in bytes of 255. -/
def lz4Len : Nat → Bytes → Nat → Option (Nat × Bytes)
  | 0, _, _ => none
  | _, [], _ => none
  | fuel + 1, b :: r, acc => if b = 255 then lz4Len fuel r (acc + 255) else some (acc + b.toNat, r)

/-- One sequence of an LZ4 block: its literals, and the offset and length of its match; the last has none. -/
structure Lz4Seq where
  lits : Bytes
  off  : Nat
  len  : Nat
deriving DecidableEq, Repr

/-- What reading the next sequence comes to: the block's end after its literals, a whole sequence, or an input that ends inside
it, with the literals that were there. -/
inductive Lz4Read where
  | last (lits : Bytes)
  | seq (q : Lz4Seq) (rest : Bytes)
  | cut (lits : Bytes) (rest : Bytes)
deriving DecidableEq, Repr

/-- The next sequence (R372). -/
def lz4Read (tok : Byte) (r : Bytes) : Lz4Read :=
  let l0 := tok.toNat / 16
  match (if l0 = 15 then lz4Len r.length r 15 else some (l0, r)) with
  | none => .cut [] []
  | some (n, r) =>
    if r.length < n then .cut r []
    else
      match r.drop n with
      | [] => .last r
      | [x] => .cut (r.take n) [x]
      | a :: b :: q =>
        let m0 := tok.toNat % 16
        match (if m0 = 15 then lz4Len q.length q 15 else some (m0, q)) with
        | none => .cut (r.take n) []
        | some (ml, rest) => .seq { lits := r.take n, off := a.toNat + 256 * b.toNat, len := ml + 4 } rest

/-- The sequences of an LZ4 block (12 R371, R372); the end-of-block rules are not enforced, so it may end after a match. -/
def lz4Seqs (maxOut : Nat) : Nat → Bytes → OutBuf → Decoded
  | 0, bs, o => o.ends maxOut .undecodable bs
  | _, [], o => o.ends maxOut .complete []
  | fuel + 1, tok :: r, o =>
    match lz4Read tok r with
    | .last lits => (o.push lits).ends maxOut .complete []
    | .cut lits rest => (o.push lits).ends maxOut .undecodable rest
    | .seq q rest =>
      let o := o.push q.lits
      if q.off = 0 || q.off > o.rev.length then o.ends maxOut .undecodable rest
      else
        let o := o.copy q.off q.len
        if o.n > maxOut then o.ends maxOut .complete rest else lz4Seqs maxOut fuel rest o

/-- An LZ4 block decoded with a dictionary as history (12 R374), under a limit. -/
def lz4Decode (dict input : Bytes) (maxOut : Nat) : Decoded :=
  lz4Seqs maxOut (input.length + 1) input ⟨dict.reverse, 0⟩

end Sys2Proof.Machine
end

