-- ==== Sys2Proof/Machine/Zstd.lean ====
section
/-! DEFINITION. Decoding a Zstandard frame of RFC 8878 in the subset of 12 R373, under a limit (R376). -/

namespace Sys2Proof.Machine

/-! ### Bit streams -/

/-- The bits of bytes, least significant first. -/
def bitsOf (bs : Bytes) : List Bool := bs.flatMap fun b => (List.range 8).map b.getLsbD

/-- The bits of a stream read backward: after the final mark; none when the last byte is 0. -/
def backBits (bs : Bytes) : Option (List Bool) :=
  match (bitsOf bs).reverse.dropWhile (!·) with
  | [] => none
  | _ :: r => if bs.getLast? = some 0 then none else some r

/-- A number from bits, the first the most significant. -/
def msbNat (l : List Bool) : Nat := l.foldl (fun a b => 2 * a + Bool.asNat b) 0

/-- A number from bits, the first the least significant. -/
def lsbNat : List Bool → Nat
  | [] => 0
  | b :: r => Bool.asNat b + 2 * lsbNat r

/-- `n` bits read from a backward stream; none past its end. -/
def readBack (n : Nat) (s : List Bool) : Option (Nat × List Bool) :=
  if s.length < n then none else some (msbNat (s.take n), s.drop n)

/-! ### FSE tables -/

/-- One state of an FSE table: its symbol, the bits to read and the base of the next state. -/
structure FseEntry where
  sym  : Nat
  bits : Nat
  base : Nat
deriving DecidableEq, Repr

/-- An FSE table: its accuracy log and its states. -/
structure FseTable where
  log    : Nat
  states : List FseEntry
deriving DecidableEq, Repr

/-- The zero-probability repeat flags after a probability of 0. -/
def fseZeros : Nat → List Bool → List Int → Option (List Bool × List Int)
  | 0, _, _ => none
  | fuel + 1, s, acc =>
    if s.length < 2 then none
    else
      let n := lsbNat (s.take 2)
      let acc := acc ++ List.replicate n 0
      if n = 3 then fseZeros fuel (s.drop 2) acc else some (s.drop 2, acc)

/-- The probabilities of a table description; -1 is "less than one". -/
def fseProbs : Nat → Nat → List Bool → List Int → Option (List Bool × List Int)
  | 0, _, _, _ => none
  | fuel + 1, remaining, s, acc =>
    if remaining = 0 then some (s, acc)
    else
      let nb := Nat.log2 (remaining + 1) + 1
      let low := 2 ^ (nb - 1) - 1
      let thr := 2 ^ nb - 1 - (remaining + 1)
      let v := lsbNat (s.take nb)
      let short := v % 2 ^ (nb - 1) < thr
      let used := if short then nb - 1 else nb
      if s.length < used then none
      else
        let val := if short then v % 2 ^ (nb - 1) else if v > low then v - thr else v
        let prob : Int := (val : Int) - 1
        let cost := prob.natAbs
        if cost > remaining then none
        else
          let acc := acc ++ [prob]
          if prob = 0 then
            match fseZeros fuel (s.drop used) acc with
            | none => none
            | some (s, acc) => fseProbs fuel remaining s acc
          else fseProbs fuel (remaining - cost) (s.drop used) acc

/-- Place `n` copies of a symbol, stepping through the table below `high`. -/
def fseSpread (size high sym : Nat) : Nat → Nat → List Nat → Nat × List Nat
  | 0, pos, t => (pos, t)
  | n + 1, pos, t =>
    let step := size / 2 + size / 8 + 3
    let next (p : Nat) := (p + step) % size
    let rec skip : Nat → Nat → Nat
      | 0, p => p
      | f + 1, p => if p < high then p else skip f (next p)
    fseSpread size high sym n (skip size (next pos)) (t.set pos sym)

/-- The decoding table of a distribution. -/
def fseTable (log : Nat) (probs : List Int) : FseTable :=
  let size := 2 ^ log
  let lows := positions (· == (-1 : Int)) probs
  let high := size - lows.length
  let t0 := List.replicate high 0 ++ lows.reverse
  let (_, t) := probs.zipIdx.foldl
    (fun (acc : Nat × List Nat) e => if 0 < e.1 then fseSpread size high e.2 e.1.toNat acc.1 acc.2 else acc) (0, t0)
  let start := probs.map fun p => if p = -1 then 1 else p.toNat
  let (_, out) := t.foldl
    (fun (acc : List Nat × List FseEntry) sym =>
      let n := acc.1.getD sym 1
      let b := log - Nat.log2 n
      (acc.1.set sym (n + 1), { sym := sym, bits := b, base := n * 2 ^ b - size } :: acc.2)) (start, [])
  ⟨log, out.reverse⟩

/-- A table of one symbol (RLE mode). -/
def fseRle (sym : Nat) : FseTable := ⟨0, [⟨sym, 0, 0⟩]⟩

/-- A table description read from bytes: the table and the bytes after it. -/
def fseRead (maxLog maxSym : Nat) (bs : Bytes) : Option (FseTable × Bytes) :=
  let s := bitsOf bs
  if s.length < 4 then none
  else
    let log := lsbNat (s.take 4) + 5
    if log > maxLog then none
    else match fseProbs (2 ^ log + 512) (2 ^ log) (s.drop 4) [] with
      | none => none
      | some (rest, probs) =>
        if probs.length > maxSym + 1 then none
        else some (fseTable log probs, bs.drop (ceilDiv (s.length - rest.length) 8))

def FseTable.at (t : FseTable) (st : Nat) : FseEntry := t.states.getD st ⟨0, 0, 0⟩

/-! ### Huffman literals -/

/-- The weights of an FSE-compressed tree, two states in turn. -/
def huffFse (t : FseTable) : Nat → Nat → Nat → List Bool → List Nat → Option (List Nat)
  | 0, _, _, _, _ => none
  | fuel + 1, a, b, s, acc =>
    let e := t.at a
    let acc := acc ++ [e.sym]
    match readBack e.bits s with
    | none => some (acc ++ [(t.at b).sym])
    | some (v, s) => if acc.length > 255 then none else huffFse t fuel b (e.base + v) s acc

/-- A Huffman table: its depth and, for each code of that depth, the symbol and its length. -/
structure HuffTable where
  depth : Nat
  codes : List (Nat × Nat)
deriving DecidableEq, Repr

/-- The table of the weights; the last weight is implied. -/
def huffTable (ws : List Nat) : Option HuffTable :=
  let sum := (ws.map fun w => if w = 0 then 0 else 2 ^ (w - 1)).sum
  if sum = 0 || ws.any (· > 11) then none
  else
    let depth := Nat.log2 sum + 1
    let left := 2 ^ depth - sum
    if depth > 11 || left ≠ 2 ^ Nat.log2 left then none
    else
      let all := ws ++ [Nat.log2 left + 1]
      some ⟨depth, (List.range depth).flatMap fun k =>
        (all.zipIdx.filter fun e => e.1 = k + 1).flatMap fun e =>
          List.replicate (2 ^ k) (e.2, depth - k)⟩

/-- A tree description: the table and the bytes after it. -/
def huffRead (bs : Bytes) : Option (HuffTable × Bytes) :=
  match bs with
  | [] => none
  | h :: r =>
    if h.toNat ≥ 128 then
      let n := h.toNat - 127
      let used := (n + 1) / 2
      if r.length < used then none
      else
        let ws := ((r.take used).flatMap fun b => [b.toNat / 16, b.toNat % 16]).take n
        (huffTable ws).map fun t => (t, r.drop used)
    else
      let used := h.toNat
      if r.length < used then none
      else match fseRead 6 255 (r.take used) with
        | none => none
        | some (t, rest) =>
          match backBits rest with
          | none => none
          | some s =>
            match readBack t.log s with
            | none => none
            | some (a, s) =>
              match readBack t.log s with
              | none => none
              | some (b, s) =>
                match huffFse t 512 a b s [] with
                | none => none
                | some ws => (huffTable ws).map fun t => (t, r.drop used)

/-- `n` symbols of one Huffman stream; it must end exactly. -/
def huffSyms (t : HuffTable) : Nat → List Bool → Option Bytes
  | 0, s => if s.isEmpty then some [] else none
  | n + 1, s =>
    let look := msbNat ((s ++ List.replicate t.depth false).take t.depth)
    let c := t.codes.getD look (0, 0)
    if c.2 = 0 || s.length < c.2 then none
    else (huffSyms t n (s.drop c.2)).map (BitVec.ofNat 8 c.1 :: ·)

/-- One stream of literals. -/
def huffStream (t : HuffTable) (n : Nat) (bs : Bytes) : Option Bytes :=
  match backBits bs with
  | none => none
  | some s => huffSyms t n s

/-- What a frame carries from block to block. -/
structure ZState where
  huff : Option HuffTable
  ll   : Option FseTable
  of_  : Option FseTable
  ml   : Option FseTable
  rep1 : Nat
  rep2 : Nat
  rep3 : Nat
deriving DecidableEq, Repr

def ZState.start : ZState := ⟨none, none, none, none, 1, 4, 8⟩

/-- The four streams behind a jump table. -/
def huffFour (t : HuffTable) (n : Nat) (bs : Bytes) : Option Bytes :=
  if bs.length < 6 then none
  else
    let a := fld bs 0 2
    let b := fld bs 2 2
    let c := fld bs 4 2
    let r := bs.drop 6
    if r.length < a + b + c then none
    else
      let q := (n + 3) / 4
      if n < 3 * q then none
      else
      match huffStream t q (r.take a), huffStream t q (slice r a b), huffStream t q (slice r (a + b) c),
          huffStream t (n - 3 * q) (r.drop (a + b + c)) with
      | some w, some x, some y, some z => some (w ++ x ++ y ++ z)
      | _, _, _, _ => none

/-- The literals section: the literals, the state with the tree, and the bytes after it. -/
def zLiterals (z : ZState) (bs : Bytes) : Option (Bytes × ZState × Bytes) :=
  match bs with
  | [] => none
  | b0 :: _ =>
    let ty := b0.toNat % 4
    let sf := b0.toNat / 4 % 4
    if ty < 2 then
      let (hl, n) := if sf % 2 = 0 then (1, b0.toNat / 8) else if sf = 1 then (2, fld bs 0 2 / 16) else (3, fld bs 0 3 / 16)
      if bs.length < hl then none
      else if ty = 0 then
        if bs.length < hl + n then none else some (slice bs hl n, z, bs.drop (hl + n))
      else if bs.length < hl + 1 then none
      else some (List.replicate n (byteAt bs hl), z, bs.drop (hl + 1))
    else
      let (hl, w) := if sf < 2 then (3, 10) else if sf = 2 then (4, 14) else (5, 18)
      if bs.length < hl then none
      else
        let h := fld bs 0 hl
        let n := h / 16 % 2 ^ w
        let cs := h / 2 ^ (4 + w) % 2 ^ w
        if bs.length < hl + cs then none
        else
          let body := slice bs hl cs
          match (if ty = 2 then huffRead body else z.huff.map fun t => (t, body)) with
          | none => none
          | some (t, data) =>
            match (if sf = 0 then huffStream t n data else huffFour t n data) with
            | none => none
            | some lits => some (lits, { z with huff := some t }, bs.drop (hl + cs))

/-! ### Sequences -/

def llBase : List (Nat × Nat) :=
  (List.range 16).map (·, 0) ++
  [(16, 1), (18, 1), (20, 1), (22, 1), (24, 2), (28, 2), (32, 3), (40, 3), (48, 4), (64, 6), (128, 7), (256, 8),
   (512, 9), (1024, 10), (2048, 11), (4096, 12), (8192, 13), (16384, 14), (32768, 15), (65536, 16)]
def mlBase : List (Nat × Nat) :=
  (List.range 32).map (fun k => (k + 3, 0)) ++
  [(35, 1), (37, 1), (39, 1), (41, 1), (43, 2), (47, 2), (51, 3), (59, 3), (67, 4), (83, 4), (99, 5), (131, 7),
   (259, 8), (515, 9), (1027, 10), (2051, 11), (4099, 12), (8195, 13), (16387, 14), (32771, 15), (65539, 16)]
def llDefault : List Int :=
  [4, 3, 2, 2, 2, 2, 2, 2, 2, 2, 2, 2, 2, 1, 1, 1, 2, 2, 2, 2, 2, 2, 2, 2, 2, 3, 2, 1, 1, 1, 1, 1, -1, -1, -1, -1]
def mlDefault : List Int :=
  [1, 4, 3, 2, 2, 2, 2, 2, 2] ++ List.replicate 37 1 ++ List.replicate 7 (-1)
def ofDefault : List Int :=
  [1, 1, 1, 1, 1, 1, 2, 2, 2] ++ List.replicate 15 1 ++ List.replicate 5 (-1)

/-- A table by its mode (RFC 8878): predefined, RLE, described, or the one before. -/
def zTable (mode maxLog maxSym : Nat) (deflt : FseTable) (prev : Option FseTable) (bs : Bytes) :
    Option (FseTable × Bytes) :=
  if mode = 0 then some (deflt, bs)
  else if mode = 1 then
    match bs with
    | [] => none
    | b :: r => if b.toNat > maxSym then none else some (fseRle b.toNat, r)
  else if mode = 2 then fseRead maxLog maxSym bs
  else prev.map (·, bs)

/-- The offset a sequence means, and the repeat offsets after it. -/
def zOffset (z : ZState) (v ll : Nat) : Option (Nat × ZState) :=
  if v > 3 then some (v - 3, { z with rep1 := v - 3, rep2 := z.rep1, rep3 := z.rep2 })
  else
    let k := if ll = 0 then v + 1 else v
    if k = 1 then some (z.rep1, z)
    else if k = 2 then some (z.rep2, { z with rep1 := z.rep2, rep2 := z.rep1 })
    else if k = 3 then some (z.rep3, { z with rep1 := z.rep3, rep2 := z.rep1, rep3 := z.rep2 })
    else if z.rep1 ≤ 1 then none
    else some (z.rep1 - 1, { z with rep1 := z.rep1 - 1, rep2 := z.rep1, rep3 := z.rep2 })

/-- The sequences of a block executed: the output so far, and the state where they all are good. An offset reaches back at most
Window_Size bytes of output; a dictionary can be reached until the output has passed Window_Size (RFC 8878). -/
def zSeqs (window : Nat) (tl to_ tm : FseTable) : Nat → Nat → Nat → Nat → List Bool → Bytes → ZState → OutBuf →
    OutBuf × Option ZState
  | 0, _, _, _, s, lits, z, o => if s.isEmpty then (o.push lits, some z) else (o, none)
  | n + 1, a, b, c, s, lits, z, o =>
    let ec := (to_.at b).sym
    let lc := llBase.getD (tl.at a).sym (0, 0)
    let mc := mlBase.getD (tm.at c).sym (0, 0)
    match readBack ec s with
    | none => (o, none)
    | some (ov, s) =>
      match readBack mc.2 s with
      | none => (o, none)
      | some (mv, s) =>
        match readBack lc.2 s with
        | none => (o, none)
        | some (lv, s) =>
          let ll := lc.1 + lv
          let ml := mc.1 + mv
          if lits.length < ll then (o.push lits, none)
          else match zOffset z (2 ^ ec + ov) ll with
            | none => (o.push (lits.take ll), none)
            | some (off, z) =>
              let o := o.push (lits.take ll)
              if off = 0 || off > o.rev.length || (if off ≤ o.n then decide (off > window) else decide (o.n > window)) then (o, none)
              else
                let o := o.copy off ml
                let lits := lits.drop ll
                if n = 0 then zSeqs window tl to_ tm 0 a b c s lits z o
                else
                  match readBack (tl.at a).bits s with
                  | none => (o, none)
                  | some (x, s) =>
                    match readBack (tm.at c).bits s with
                    | none => (o, none)
                    | some (y, s) =>
                      match readBack (to_.at b).bits s with
                      | none => (o, none)
                      | some (w, s) =>
                        zSeqs window tl to_ tm n ((tl.at a).base + x) ((to_.at b).base + w) ((tm.at c).base + y) s
                          lits z o

/-- A compressed block: the output so far, and the state where the block is good. -/
def zBlock (window : Nat) (z : ZState) (bs : Bytes) (o : OutBuf) : OutBuf × Option ZState :=
  let none : OutBuf × Option ZState := (o, none)
  match zLiterals z bs with
  | .none => none
  | some (lits, z, r) =>
    let n0 := (byteAt r 0).toNat
    if r.isEmpty then none
    else if n0 = 0 then if r.length = 1 then (o.push lits, some z) else none
    else
      let (hl, n) := if n0 < 128 then (1, n0) else if n0 < 255 then (2, (n0 - 128) * 256 + (byteAt r 1).toNat)
        else (3, (byteAt r 1).toNat + 256 * (byteAt r 2).toNat + 0x7F00)
      let modes := (byteAt r hl).toNat
      if r.length < hl + 1 || modes % 4 ≠ 0 then none
      else
        match zTable (modes / 64) 9 35 (fseTable 6 llDefault) z.ll (r.drop (hl + 1)) with
        | .none => none
        | some (tl, r) =>
          match zTable (modes / 16 % 4) 8 31 (fseTable 5 ofDefault) z.of_ r with
          | .none => none
          | some (to_, r) =>
            match zTable (modes / 4 % 4) 9 52 (fseTable 6 mlDefault) z.ml r with
            | .none => none
            | some (tm, r) =>
              match backBits r with
              | .none => none
              | some s =>
                match readBack tl.log s with
                | .none => none
                | some (a, s) =>
                  match readBack to_.log s with
                  | .none => none
                  | some (b, s) =>
                    match readBack tm.log s with
                    | .none => none
                    | some (c, s) =>
                      zSeqs window tl to_ tm n a b c s lits { z with ll := some tl, of_ := some to_, ml := some tm } o

/-! ### Frames -/

/-- The output cut to its first `n` bytes. -/
def OutBuf.cut (o : OutBuf) (n : Nat) : OutBuf := if n < o.n then { rev := o.rev.drop (o.n - n), n := n } else o

/-- The blocks of a frame: the output, whether the blocks are good, and the bytes after what has been read. No block decodes to
more than the smaller of Window_Size and 128 KiB. -/
def zBlocks (window maxOut : Nat) : Nat → ZState → Bytes → OutBuf → OutBuf × Bool × Bytes
  | 0, _, bs, o => (o, false, bs)
  | fuel + 1, z, bs, o =>
    if bs.length < 3 then (o, false, bs)
    else
      let h := fld bs 0 3
      let last := h % 2 = 1
      let ty := h / 2 % 4
      let n := h / 8
      let r := bs.drop 3
      let most := min window 131072
      if ty = 3 || n > most then (o, false, r)
      else if ty = 1 then
        if r.isEmpty then (o, false, r)
        else
          let o := o.push (List.replicate n (byteAt r 0))
          if last || o.n > maxOut then (o, true, r.drop 1) else zBlocks window maxOut fuel z (r.drop 1) o
      else if ty = 0 then
        let o := o.push (r.take n)
        if r.length < n then (o, false, [])
        else if last || o.n > maxOut then (o, true, r.drop n) else zBlocks window maxOut fuel z (r.drop n) o
      else if r.length < n then (o, false, [])
      else
        match zBlock window z (r.take n) o with
        | (o', none) => (o'.cut (o.n + most + 1), false, r.drop n)
        | (o', some z) =>
          if o'.n > o.n + most then (o'.cut (o.n + most + 1), false, r.drop n)
          else if last || o'.n > maxOut then (o', true, r.drop n)
          else zBlocks window maxOut fuel z (r.drop n) o'

/-- One Zstandard frame decoded under a limit, with a dictionary's content as history and its ID (12 R373, R374);
nothing may follow the frame (02 R41). Output past the limit ends the job there, whatever the input holds after it (R376). -/
def zstdDecode (dict : Bytes) (dictId : Nat) (input : Bytes) (maxOut : Nat) : Decoded :=
  let d := (byteAt input 4).toNat
  let single := bit d 5
  let didLen := if d % 4 = 3 then 4 else d % 4
  let fcsFlag := d / 64
  let fcsLen := if fcsFlag = 0 then (if single then 1 else 0) else 2 ^ fcsFlag
  let wl := if single then 0 else 1
  let hdr := 5 + wl + didLen + fcsLen
  if input.length < hdr || fld input 0 4 ≠ 0xFD2FB528 || bit d 3 then ⟨[], .undecodable, input⟩
  else
    let did := fld input (5 + wl) didLen
    let fcs := fld input (5 + wl + didLen) fcsLen + (if fcsFlag = 1 then 256 else 0)
    let wd := (byteAt input 5).toNat
    let base := 2 ^ (10 + wd / 8)
    let window := if single then fcs else base + base / 8 * (wd % 8)
    if window > 8388608 || (did ≠ 0 && did ≠ dictId) then ⟨[], .undecodable, input.drop hdr⟩
    else
      let (o, good, r) := zBlocks window maxOut (input.length + 1) ZState.start (input.drop hdr) ⟨dict.reverse, 0⟩
      let tail : Bool := if bit d 2 then r.length == 4 && leNat r == (xxh64 0 o.bytes).toNat % 2 ^ 32 else r.isEmpty
      if o.n > maxOut then o.ends maxOut .complete r
      else if good && (fcsLen = 0 || fcs = o.n) && tail then o.ends maxOut .complete []
      else o.ends maxOut .undecodable r

/-- A decode job's result by its format (12 R381). -/
def decodeJob (format : Nat) (dict : Bytes) (dictId : Nat) (input : Bytes) (maxOut : Nat) : Decoded :=
  if format = 1 then lz4Decode dict input maxOut else zstdDecode dict dictId input maxOut

end Sys2Proof.Machine
end

