-- ==== Sys2Proof/Machine/Encoder.lean ====
section
/-! DEFINITION. Encoding by a compression engine (12 R371, R373, R378, R379, R384): the spec leaves the bytes open and holds them to
the formats, under which any conforming decoder gives the input back. -/

namespace Sys2Proof.Machine

/-- What an encode job is given (R379). -/
structure EncodeReq where
  format  : Nat
  level   : Nat
  cksum   : Bool
  unitKib : Nat
  dict    : Option Bytes
  dictId  : Nat
  input   : Bytes
deriving DecidableEq, Repr

/-! ### LZ4 (R371) -/

/-- The literals and match lengths of a block's sequences, in order; a last sequence without a match has 0. -/
def lz4Shape : Nat → Bytes → List (Nat × Nat)
  | 0, _ => []
  | _, [] => []
  | fuel + 1, tok :: r =>
    match lz4Read tok r with
    | .last lits => [(lits.length, 0)]
    | .cut _ _ => []
    | .seq q rest => (q.lits.length, q.len) :: lz4Shape fuel rest

/-- The end-of-block rules: the last 5 bytes are literals and the last match starts at least 12 bytes before the end. -/
def lz4EndOk (n : Nat) (l : List (Nat × Nat)) : Bool :=
  match l.reverse with
  | (lits, 0) :: (_, m) :: _ => decide (5 ≤ lits) && decide (12 ≤ lits + m)
  | [(lits, 0)] => lits == n
  | _ => false

/-- The bytes of a length past 15. -/
def lz4More (n : Nat) : Bytes := List.replicate (n / 255) 255 ++ [BitVec.ofNat 8 (n % 255)]

/-- A block of literals alone. -/
def lz4Plain (input : Bytes) : Bytes :=
  let n := input.length
  (if n < 15 then [BitVec.ofNat 8 (16 * n)] else 0xF0 :: lz4More (n - 15)) ++ input

/-! ### Zstandard (R373, R378) -/

/-- The window log of a level. -/
def windowLog (level : Nat) : Nat :=
  if level ≤ 1 then 17 else if level = 2 then 18 else if level ≤ 4 then 19 else if level ≤ 6 then 20
  else if level ≤ 8 then 21 else if level ≤ 10 then 22 else 23

/-- Single_Segment is set when the content fits the window. -/
def EncodeReq.single (e : EncodeReq) : Bool := decide (e.input.length ≤ 2 ^ windowLog e.level)

/-- A frame header as encoding writes it: no reserved bit, Frame_Content_Size always, Single_Segment when the content fits the
window and else a window of the level's log at most, the checksum flag of CKSUM, and the ID of an attached dictionary. -/
def EncodeReq.headOk (e : EncodeReq) (bs : Bytes) : Bool :=
  let d := (byteAt bs 4).toNat
  let wl := if bit d 5 then 0 else 1
  let didLen := if d % 4 = 3 then 4 else d % 4
  !bit d 3 && !bit d 4 && (d / 64 != 0 || bit d 5) && (bit d 5 == e.single) &&
  (bit d 5 || decide ((byteAt bs 5).toNat ≤ 8 * (windowLog e.level - 10))) && (bit d 2 == e.cksum) &&
  fld bs (5 + wl) didLen == (if e.dict.isSome then e.dictId else 0)

/-- Raw blocks of at most `most` bytes, the last marked. -/
def rawBlocks (most : Nat) : Nat → Bytes → Bytes
  | 0, _ => []
  | fuel + 1, bs =>
    let last := decide (bs.length ≤ most)
    leBytes 3 (Bool.asNat last + 8 * (bs.take most).length) ++ bs.take most ++ (if last then [] else rawBlocks most fuel (bs.drop most))

/-- A frame of raw blocks. -/
def EncodeReq.zstdPlain (e : EncodeReq) : Bytes :=
  let did := e.dict.isSome && e.dictId != 0
  let most := min 131072 (if e.single then max 1 e.input.length else 2 ^ windowLog e.level)
  leBytes 4 0xFD2FB528 ++
    [BitVec.ofNat 8 (128 + 32 * Bool.asNat e.single + 4 * Bool.asNat e.cksum + if did then 3 else 0)] ++
    (if e.single then [] else [BitVec.ofNat 8 (8 * (windowLog e.level - 10))]) ++
    (if did then leBytes 4 e.dictId else []) ++ leBytes 4 e.input.length ++
    rawBlocks most (e.input.length + 1) e.input ++
    (if e.cksum then leBytes 4 ((xxh64 0 e.input).toNat % 2 ^ 32) else [])

/-! ### The bytes -/

/-- Whether bytes are an encoding of a job's input that R371 or R373 allows: they decode to it, and keep the rules for encoding. -/
def EncodeReq.allows (e : EncodeReq) (bs : Bytes) : Bool :=
  let d := decodeJob e.format (e.dict.getD []) e.dictId bs e.input.length
  d.ending == .complete && d.output == e.input &&
  (if e.format = 1 then lz4EndOk e.input.length (lz4Shape (bs.length + 1) bs) else e.headOk bs)

/-- The bytes an encode job ends with (R379): the engine's own, of which nothing is known but that the formats allow them; where
the free value of Config is no such encoding, the plain one of the format stands for it. -/
def EncodeReq.bytes (e : EncodeReq) : Bytes :=
  let own := Config.encodeBytes (BitVec.ofNat 8 e.format) (BitVec.ofNat 8 e.level) e.cksum (BitVec.ofNat 16 e.unitKib) e.dict
    (BitVec.ofNat 32 e.dictId) e.input
  if e.allows own then own else if e.format = 1 then lz4Plain e.input else e.zstdPlain

end Sys2Proof.Machine
end

