-- ==== Sys2Proof/Machine/Pages.lean ====
section
/-! DEFINITION. Types and their orders (02 R24), the column page (02 R27-R43) and the segment (02 R44-R51): reading,
checking and building. -/

namespace Sys2Proof.Machine

/-! ### Types (02 R24) -/

/-- Bits of a fixed-width type; 0 for STRING, BINARY and codes that are no type. -/
def tyBits (ty : Nat) : Nat :=
  if ty = 0x01 then 1
  else if ty = 0x02 || ty = 0x06 then 8
  else if ty = 0x03 || ty = 0x07 then 16
  else if ty = 0x04 || ty = 0x08 || ty = 0x0A || ty = 0x0E then 32
  else if ty = 0x05 || ty = 0x09 || ty = 0x0B || ty = 0x0C || ty = 0x0F then 64
  else if ty = 0x0D then 128
  else if ty = 0x20 then 64
  else if ty = 0x21 then 32
  else 0

/-- Bytes of a value in a frame or a raw buffer (04 R117, 06 R193). -/
def tyBytes (ty : Nat) : Nat := ceilDiv (tyBits ty) 8

def isType (ty : Nat) : Bool := decide (0x01 ≤ ty) && decide (ty ≤ 0x11)
def isStr (ty : Nat) : Bool := ty == 0x10 || ty == 0x11
def isFloat (ty : Nat) : Bool := ty == 0x0A || ty == 0x0B
def isSigned (ty : Nat) : Bool := [0x02, 0x03, 0x04, 0x05, 0x0C, 0x0D, 0x0E, 0x0F].contains ty
/-- INT8-UINT64, DATE32, TS64 and DEC64 (02 R36). -/
def isIntLike (ty : Nat) : Bool := decide (0x02 ≤ ty) && decide (ty ≤ 0x09) || ty == 0x0C || ty == 0x0E || ty == 0x0F

/-- The number `n` of `w` bits as two's complement. -/
def toSigned (w n : Nat) : Int := if 2 * (n % 2 ^ w) < 2 ^ w then (n % 2 ^ w : Nat) else (n % 2 ^ w : Nat) - (2 ^ w : Nat)

/-- The low `w` bits of an integer as a number. -/
def toBits (w : Nat) (i : Int) : Nat := (i % (2 ^ w : Nat)).toNat

/-- A value from the bits of its type. -/
def mkVal (ty n : Nat) : Val := .fixed (BitVec.ofNat 128 (n % 2 ^ tyBits ty))

/-- The bits of a fixed-width value. -/
def Val.bits : Val → Nat
  | .fixed b => b.toNat
  | .str _ => 0

/-- The bytes of a STRING or BINARY value. -/
def Val.text : Val → Bytes
  | .fixed _ => []
  | .str b => b

/-- The integer a fixed-width value stands for. -/
def Val.int (ty : Nat) (v : Val) : Int := if isSigned ty then toSigned (tyBits ty) v.bits else (v.bits : Int)

/-- The range of a fixed-width integer type. -/
def inRange (ty : Nat) (i : Int) : Bool :=
  let w := tyBits ty
  if isSigned ty then decide (-(2 ^ (w - 1) : Nat) ≤ i) && decide (i < (2 ^ (w - 1) : Nat))
  else decide (0 ≤ i) && decide (i < (2 ^ w : Nat))

/-- A number that orders values of a fixed-width type: numeric, or IEEE 754 totalOrder for floats (02 R24). -/
def orderKey (ty : Nat) (v : Val) : Int :=
  if isFloat ty then
    let w := tyBits ty
    let mag := v.bits % 2 ^ (w - 1)
    if v.bits < 2 ^ (w - 1) then (mag : Int) else -(mag : Int) - 1
  else v.int ty

/-- Bytewise unsigned order, a proper prefix first. -/
def bytesLt : Bytes → Bytes → Bool
  | _, [] => false
  | [], _ :: _ => true
  | a :: r, b :: q => if a = b then bytesLt r q else decide (a < b)

/-- Value order (02 R24). -/
def valLt (ty : Nat) (a b : Val) : Bool :=
  if isStr ty then bytesLt a.text b.text else decide (orderKey ty a < orderKey ty b)

/-! ### The page header (02 R28) -/

structure Page where
  ty      : Nat
  enc     : Nat
  wrap    : Nat
  valid   : Bool
  dict    : Bool
  rows    : Nat
  nulls   : Nat
  start   : Nat
  encSize : Nat
  stored  : Nat
  bits    : Nat
  bits2   : Nat
  base    : Nat
  column  : Nat
deriving DecidableEq, Repr

/-- The header's fields as they stand. -/
def Page.ofBytes (bs : Bytes) : Page where
  ty := fld bs 5 1
  enc := fld bs 6 1 % 16
  wrap := fld bs 6 1 / 16 % 4
  valid := bit (fld bs 7 1) 0
  dict := bit (fld bs 7 1) 1
  rows := fld bs 8 4
  nulls := fld bs 12 4
  start := fld bs 16 4
  encSize := fld bs 20 4
  stored := fld bs 24 4
  bits := fld bs 28 1
  bits2 := fld bs 29 1
  base := fld bs 32 16
  column := fld bs 52 2 % 4096

/-- Bytes of the validity bitmap (R30, R31). -/
def Page.vb (p : Page) : Nat := if p.valid then roundUp (ceilDiv p.rows 8) 8 else 0

/-- PAGE_LEN (R32). -/
def Page.len (p : Page) : Nat := roundUp (64 + p.vb + p.stored) 64

/-- The fields that locate the page and its checksum range (R50 step 1). -/
def pageLocated (bs : Bytes) : Bool :=
  let p := Page.ofBytes bs
  decide (64 ≤ bs.length) && fld bs 0 4 == 0x47504C53 && fld bs 4 1 == 0x01 && decide (1 ≤ p.rows) &&
  decide (p.rows ≤ 65536) && decide (p.stored ≤ 65536) && decide (64 + p.vb + p.stored ≤ bs.length)

/-- CRC (R33). -/
def pageCrc (bs : Bytes) : BitVec 32 :=
  let p := Page.ofBytes bs
  crc32cHole (bs.take (64 + p.vb + p.stored)) 48

def pageCrcOk (bs : Bytes) : Bool := fld bs 48 4 == (pageCrc bs).toNat

/-! ### Packed fields (02, Encodings) -/

/-- `n` fields of `w` bits, the first in the low bits. -/
def unpackNat (w : Nat) : Nat → Nat → List Nat
  | 0, _ => []
  | n + 1, v => v % 2 ^ w :: unpackNat w n (v / 2 ^ w)

/-- The fields of a payload. -/
def unpack (bs : Bytes) (n w : Nat) : List Nat := unpackNat w n (leNat bs)

/-- Fields packed into a number. -/
def packNat (w : Nat) : List Nat → Nat
  | [] => 0
  | a :: r => a % 2 ^ w + 2 ^ w * packNat w r

/-- Fields packed into bytes. -/
def pack (w : Nat) (l : List Nat) : Bytes := leBytes (ceilDiv (l.length * w) 8) (packNat w l)

/-- The permitted pairs of encoding and type (R36); the widths are checked apart. -/
def encPermitted (enc ty : Nat) : Bool :=
  if enc = 0 || enc = 6 then true
  else if enc = 1 then ty == 0x01 || isIntLike ty
  else if enc = 2 then isIntLike ty || ty == 0x0D
  else if enc = 3 then isIntLike ty
  else if enc = 4 then ty == 0x01 || isIntLike ty || isFloat ty
  else if enc = 5 then ty != 0x01
  else false

/-- BITS, BITS2 and BASE are as the encoding has them (R29, R35, R36). R29 names the extension of a signed and of an unsigned type alone; the
BASE of a FLOAT32 or FLOAT64 page is zero-extended (DESIGN CHOICE, log 259). -/
def widthsOk (p : Page) : Bool :=
  let w := tyBits p.ty
  let ext : Bool :=
    if isSigned p.ty then p.base == toBits 128 (toSigned w p.base) else decide (p.base < 2 ^ w)
  if p.enc = 0 then p.bits == 0 && p.bits2 == 0 && p.base == 0
  else if p.enc = 1 then
    decide (1 ≤ p.bits) && decide (p.bits ≤ min w 64) && p.bits2 == 0 && p.base == 0
  else if p.enc = 2 then decide (1 ≤ p.bits) && decide (p.bits ≤ min w 64) && p.bits2 == 0 && ext
  else if p.enc = 3 then decide (1 ≤ p.bits) && decide (p.bits ≤ 64) && p.bits2 == 0 && ext
  else if p.enc = 4 then
    decide (1 ≤ p.bits) && decide (p.bits ≤ min w 64) && (!isFloat p.ty || p.bits == w) &&
    decide (1 ≤ p.bits2) && decide (p.bits2 ≤ 16) && p.base == 0
  else if p.enc = 5 then decide (1 ≤ p.bits) && decide (p.bits ≤ 20) && p.bits2 == 0 && p.base == 0
  else p.bits == 0 && p.bits2 == 0 && (if isStr p.ty then p.base == 0 else ext)

/-- The validity of every row (R30, R31). -/
def pageValidity (p : Page) (bs : Bytes) : List Bool :=
  if p.valid then (bitsOf (slice bs 64 p.vb)).take p.rows else List.replicate p.rows true

/-- Running sums modulo 2^64 (R37 DELTA). -/
def deltaRun : Nat → List Nat → List Nat
  | _, [] => []
  | v, z :: r =>
    let d : Int := if z % 2 = 0 then (z / 2 : Nat) else -(z / 2 : Nat) - 1
    let v' := toBits 64 ((v : Int) + d)
    v' :: deltaRun v' r

/-- The strings that lengths cut from bytes. -/
def cutStrings : List Nat → Bytes → List Bytes
  | [], bs => [bs]
  | n :: r, bs => bs.take n :: cutStrings r (bs.drop n)

/-- Whether a payload is exactly what the encoding defines and every bit past the last value is 0 (R37). -/
def packedOk (bs : Bytes) (n w : Nat) : Bool := bs.length == ceilDiv (n * w) 8 && decide (leNat bs < 2 ^ (n * w))

/-- The values an encoded payload decodes to, one per row, nulls not yet applied; `dict` is the segment's
dictionary. `none`: the page is invalid (R37, R38). -/
def decodePayload (p : Page) (validity : List Bool) (dict : List Val) (bs : Bytes) : Option (List Val) :=
  let w := tyBits p.ty
  let check (l : List (Val × Bool)) : Option (List Val) :=
    if l.all fun e => e.2 then some (l.map (·.1)) else none
  if p.enc = 0 then
    if isStr p.ty then
      if bs.length < 2 * (p.rows - 1) then none
      else
        let lens := (chunks 2 p.rows (bs.take (2 * (p.rows - 1)))).map leNat
        let body := bs.drop (2 * (p.rows - 1))
        if body.length < lens.sum || body.length - lens.sum > 65535 then none
        else some ((cutStrings lens body).map .str)
    else if packedOk bs p.rows w then some ((unpack bs p.rows w).map (mkVal p.ty)) else none
  else if p.enc = 1 then
    if packedOk bs p.rows p.bits then
      some ((unpack bs p.rows p.bits).map fun c =>
        mkVal p.ty (if isSigned p.ty then toBits w (toSigned p.bits c) else c))
    else none
  else if p.enc = 2 then
    if packedOk bs p.rows p.bits then
      check ((unpack bs p.rows p.bits).zip validity |>.map fun e =>
        let sum := (p.base + e.1) % 2 ^ 128
        let i : Int := if isSigned p.ty then toSigned 128 sum else (sum : Int)
        (mkVal p.ty (toBits w i), !e.2 || inRange p.ty i))
    else none
  else if p.enc = 3 then
    if packedOk bs (p.rows - 1) p.bits then
      let first := p.base % 2 ^ 64
      check ((first :: deltaRun first (unpack bs (p.rows - 1) p.bits)).zip validity |>.map fun e =>
        let i : Int := if isSigned p.ty then toSigned 64 e.1 else (e.1 : Int)
        (mkVal p.ty (toBits w i), !e.2 || inRange p.ty i))
    else none
  else if p.enc = 4 then
    let runs := fld bs 0 4
    let vbytes := ceilDiv (runs * p.bits) 8
    if bs.length < 4 || runs < 1 || runs > p.rows || bs.length ≠ 4 + vbytes + ceilDiv (runs * p.bits2) 8 then none
    else
      let vpart := slice bs 4 vbytes
      let lpart := bs.drop (4 + vbytes)
      let lens := (unpack lpart runs p.bits2).map (· + 1)
      if packedOk vpart runs p.bits && packedOk lpart runs p.bits2 && lens.sum == p.rows then
        some (((unpack vpart runs p.bits).zip lens).flatMap fun e =>
          List.replicate e.2 (mkVal p.ty (if isSigned p.ty then toBits w (toSigned p.bits e.1) else e.1)))
      else none
  else if p.enc = 5 then
    if packedOk bs p.rows p.bits then
      let codes := unpack bs p.rows p.bits
      if codes.all (· < dict.length) then some (codes.map fun c => dict.getD c (.str [])) else none
    else none
  else
    if isStr p.ty then if bs.length ≤ 65535 then some (List.replicate p.rows (.str bs)) else none
    else if bs.isEmpty then some (List.replicate p.rows (mkVal p.ty (p.base % 2 ^ w))) else none

/-- The stored payload unwrapped (R39-R42). -/
def unwrapPage (p : Page) (bs : Bytes) : Option Bytes :=
  let stored := slice bs (64 + p.vb) p.stored
  if p.wrap = 0 then if p.stored = p.encSize then some stored else none
  else if p.encSize = 0 then none
  else
    let d := decodeJob p.wrap [] 0 stored p.encSize
    if d.ending == .complete && d.output.length == p.encSize then some d.output else none

/-- The rules for one page's header, bitmap and padding (R50 step 3). -/
def pageHeadOk (ty : Nat) (bs : Bytes) : Bool :=
  let p := Page.ofBytes bs
  let ones := ((pageValidity p bs).filter id).length
  !(p.ty ≠ ty || fld bs 6 1 / 64 ≠ 0 || fld bs 7 1 / 4 ≠ 0 || fld bs 30 2 ≠ 0 || fld bs 52 2 / 4096 ≠ 0 ||
      !allZero (slice bs 54 10) || p.enc > 6 || !encPermitted p.enc p.ty || p.wrap = 3 || p.encSize > 65536 ||
      !widthsOk p || (p.dict && p.valid) || p.nulls + ones ≠ p.rows ||
      (p.valid && ((bitsOf (slice bs 64 p.vb)).drop p.rows).any id) ||
      !allZero (slice bs (64 + p.vb + p.stored) (p.len - (64 + p.vb + p.stored))) ||
      (p.nulls = p.rows && (p.enc ≠ 6 || p.base ≠ 0 || p.encSize ≠ 0)))

/-- Every rule for one page besides the locating fields, the checksum and its place in the segment (R50 step 3);
its rows' values, `none` for a null. -/
def checkPage (ty : Nat) (dict : List Val) (bs : Bytes) : Option Vals :=
  let p := Page.ofBytes bs
  let validity := pageValidity p bs
  if !pageHeadOk ty bs then none
  else
    match unwrapPage p bs with
    | none => none
    | some payload =>
      (decodePayload p validity dict payload).map fun vs =>
        (vs.zip validity).map fun e => if e.2 then some e.1 else none

/-- Whether the job that unwraps a page ends undecodable or at its limit (12 R384). -/
def unwrapJobFails (ty : Nat) (bs : Bytes) : Bool :=
  let p := Page.ofBytes bs
  pageHeadOk ty bs && p.wrap != 0 && p.encSize != 0 &&
  (decodeJob p.wrap [] 0 (slice bs (64 + p.vb) p.stored) p.encSize).ending != .complete

/-! ### The segment (02 R44-R50) -/

/-- A page of a segment: its offset, header and values; `located` where its place and length could be read, `ok` where it
checks where it stands. -/
structure SegPage where
  off     : Nat
  page    : Page
  vals    : Vals
  located : Bool
  ok      : Bool
deriving DecidableEq, Repr

inductive SegCheck where
  | ok (pages : List SegPage)
  | fieldInvalid
  | integrity
deriving DecidableEq, Repr

/-- The pages, one at a time in segment order (R50 steps 1-3). -/
def walkSegment (ty : Nat) : Nat → Nat → Bytes → List Val → List SegPage → SegCheck
  | 0, _, _, _, _ => .fieldInvalid
  | fuel + 1, off, bs, dict, acc =>
    if bs.isEmpty then .ok acc.reverse
    else if !pageLocated bs then .fieldInvalid
    else if !pageCrcOk bs then .integrity
    else
      match checkPage ty dict bs with
      | none => .fieldInvalid
      | some vs =>
        let p := Page.ofBytes bs
        walkSegment ty fuel (off + p.len) (bs.drop p.len) (if p.dict then dict ++ vs.filterMap id else dict)
          (⟨off, p, vs, true, true⟩ :: acc)

/-- The first page that breaks a rule of R50's step 3: its bytes from there on, and none where every page checks. -/
def failingPage (ty : Nat) : Nat → Bytes → List Val → Option Bytes
  | 0, _, _ => none
  | fuel + 1, bs, dict =>
    if bs.isEmpty then none
    else if !pageLocated bs || !pageCrcOk bs then none
    else
      match checkPage ty dict bs with
      | none => some bs
      | some vs =>
        let p := Page.ofBytes bs
        failingPage ty fuel (bs.drop p.len) (if p.dict then dict ++ vs.filterMap id else dict)

/-- Every value below the one after it. -/
def ascending (ty : Nat) : List Val → Bool
  | a :: b :: r => valLt ty a b && ascending ty (b :: r)
  | _ => true

/-- Each page starts where the one before it ended. -/
def contiguous : Nat → List SegPage → Bool
  | _, [] => true
  | n, g :: r => g.page.start == n && contiguous (n + g.page.rows) r

/-- The rules for the segment as a whole (R44-R47), and the sum of the row pages' ROWS. -/
def segmentWhole (ty col rows : Nat) (pages : List SegPage) : Bool :=
  let ds := pages.takeWhile (·.page.dict)
  let rs := pages.dropWhile (·.page.dict)
  let entries : Nat := (ds.map (·.page.rows)).sum
  decide (pages.length ≤ 65536) && pages.all (·.page.column == col) && rs.all (!·.page.dict) && !rs.isEmpty &&
  contiguous 0 ds && contiguous 0 rs && decide (entries ≤ 1048576) &&
  (!ds.isEmpty == rs.any (·.page.enc == 5)) &&
  ds.all (fun g => [0, 1, 2, 3].contains g.page.enc || (g.page.enc == 6 && g.page.rows == 1)) &&
  ascending ty (ds.flatMap fun g => g.vals.filterMap id) &&
  (rs.map (·.page.rows)).sum == rows && decide (1 ≤ rows) && decide (rows ≤ 4194304)

/-- A segment offered by PAGES_PUT (R49, R50, R122). -/
def checkSegment (ty col rows : Nat) (bs : Bytes) : SegCheck :=
  match walkSegment ty (bs.length / 64 + 1) 0 bs [] [] with
  | .ok pages => if segmentWhole ty col rows pages then .ok pages else .fieldInvalid
  | r => r

/-! ### Building a segment (04 R117-R121, 02 R48) -/

/-- The least width, at least 1, that holds a number. -/
def widthOf (n : Nat) : Nat := if n = 0 then 1 else Nat.log2 n + 1

/-- The least signed width that holds an integer. -/
def swidthOf (i : Int) : Nat := if 0 ≤ i then widthOf i.toNat + 1 else widthOf (-i - 1).toNat + 1

/-- Values with their placeholders: a repeat of the value before (R26). -/
def fillPrev : Val → Vals → List Val
  | _, [] => []
  | d, none :: r => d :: fillPrev d r
  | _, some v :: r => v :: fillPrev v r

/-- Values with zero or empty placeholders (R26). -/
def fillZero (ty : Nat) (vs : Vals) : List Val := vs.map fun o => o.getD (if isStr ty then .str [] else mkVal ty 0)

/-- Runs of equal values, each of at most 65,536 rows. -/
def runsOf : List Val → List (Val × Nat)
  | [] => []
  | v :: r =>
    match runsOf r with
    | (u, n) :: q => if u = v && n < 65536 then (u, n + 1) :: q else (v, 1) :: (u, n) :: q
    | [] => [(v, 1)]

/-- An encoded payload with its BITS, BITS2 and BASE. -/
structure Enc where
  enc   : Nat
  bits  : Nat
  bits2 : Nat
  base  : Nat
  body  : Bytes
deriving DecidableEq, Repr

/-- The payload of rows under an encoding, with the least widths; `none` when it cannot represent them (04 R119). BASE of a DELTA page
whose first row is null is free: R26 says only that the placeholder is BASE (DESIGN CHOICE, log 273). -/
def encodeRows (ty enc : Nat) (dict : List Val) (vs : Vals) : Option Enc :=
  let w := tyBits ty
  let have_ := vs.filterMap id
  if have_.isEmpty then if enc = 6 then some ⟨6, 0, 0, 0, []⟩ else none
  else if !encPermitted enc ty then none
  else if enc = 0 then
    let l := fillZero ty vs
    if isStr ty then
      some ⟨0, 0, 0, 0, (l.dropLast.flatMap fun v => leBytes 2 v.text.length) ++ l.flatMap Val.text⟩
    else some ⟨0, 0, 0, 0, pack w (l.map Val.bits)⟩
  else if enc = 1 then
    let b := if isSigned ty then (have_.map fun v => swidthOf (v.int ty)).foldl max 1
      else (have_.map fun v => widthOf v.bits).foldl max 1
    let b := min b (min w 64)
    some ⟨1, b, 0, 0, pack b ((fillZero ty vs).map fun v => v.bits % 2 ^ b)⟩
  else if enc = 2 then
    let ints := have_.map (Val.int ty)
    let lo := ints.foldl min (ints.headD 0)
    let hi := ints.foldl max (ints.headD 0)
    let b := widthOf (hi - lo).toNat
    if b > min w 64 then none
    else some ⟨2, b, 0, toBits 128 lo, pack b (vs.map fun o => match o with
      | some v => (v.int ty - lo).toNat
      | none => 0)⟩
  else if enc = 3 then
    let first : Val := match vs with
      | some v :: _ => v
      | _ => mkVal ty ((Config.deltaBase (BitVec.ofNat 8 ty) (have_.headD (mkVal ty 0)).bits).toNat % 2 ^ w)
    let l := (fillPrev first vs).map fun v => toBits 64 (v.int ty)
    let zs := (l.zip (l.drop 1)).map fun e =>
      let d := toSigned 64 (toBits 64 ((e.2 : Int) - (e.1 : Int)))
      if 0 ≤ d then 2 * d.toNat else 2 * (-d - 1).toNat + 1
    let b := (zs.map widthOf).foldl max 1
    some ⟨3, b, 0, toBits 128 (first.int ty), pack b zs⟩
  else if enc = 4 then
    let runs := runsOf (fillPrev (have_.headD (mkVal ty 0)) vs)
    let b := if isFloat ty || ty = 0x01 then w
      else if isSigned ty then min (min w 64) ((runs.map fun e => swidthOf (e.1.int ty)).foldl max 1)
      else (runs.map fun e => widthOf e.1.bits).foldl max 1
    let b2 := (runs.map fun e => widthOf (e.2 - 1)).foldl max 1
    some ⟨4, b, b2, 0, leBytes 4 runs.length ++ pack b (runs.map fun e => e.1.bits % 2 ^ b) ++
      pack b2 (runs.map fun e => e.2 - 1)⟩
  else if enc = 5 then
    if dict.isEmpty || dict.length > 1048576 then none
    else
      let b := widthOf (dict.length - 1)
      some ⟨5, b, 0, 0, pack b (vs.map fun o => match o with
        | some v => dict.findIdx (· == v)
        | none => 0)⟩
  else
    match have_ with
    | [] => none
    | v :: r => if r.all (· == v) then
        (if isStr ty then some ⟨6, 0, 0, 0, v.text⟩ else some ⟨6, 0, 0, toBits 128 (v.int ty), []⟩) else none

/-- Whether an encoding can represent rows, whatever their number (04 R119). -/
def canEncode (ty enc : Nat) (dict : List Val) (vs : Vals) : Bool := (encodeRows ty enc dict vs).isSome

/-- The encoding of a row page: the hint where it can represent the rows, else the engine's own choice among those
that can (04 R119); PLAIN always can, CONST where every row is null. -/
def chooseEnc (ty hint pageNo : Nat) (dict : List Val) (vs : Vals) : Nat :=
  if canEncode ty hint dict vs then hint
  else
    let k := (Config.encPick (BitVec.ofNat 8 ty) pageNo).toNat
    let order := ((List.range 7).drop (k % 7)) ++ ((List.range 7).take (k % 7))
    (order.find? fun e => canEncode ty e dict vs).getD 0

/-- Whether rows fit a page under an encoding (02 R48): their payload is within 65,536 bytes; rows that are all null have none. -/
def fitsPage (ty enc : Nat) (dict : List Val) (vs : Vals) : Bool :=
  match encodeRows ty enc dict vs with
  | some e => decide (e.body.length ≤ 65536)
  | none => vs.all (·.isNone)

/-- The largest row count from `lo` to below `lo + 2 ^ k` that fits a page, `lo` where none does: widths and payloads do not
shrink as rows are added. -/
def fitRows (ty enc : Nat) (dict : List Val) (vs : Vals) : Nat → Nat → Nat
  | 0, lo => lo
  | k + 1, lo =>
    let mid := lo + 2 ^ k
    if mid ≤ vs.length && fitsPage ty enc dict (vs.take mid) then fitRows ty enc dict vs k mid else fitRows ty enc dict vs k lo

/-- A page's bytes: the header, the bitmap, the payload wrapped if that makes it smaller (02 R43), the checksum. -/
def buildPage (ty col start : Nat) (dictPart : Bool) (wrap level : Nat) (e : Enc) (vs : Vals) : Bytes :=
  let rows := vs.length
  let nulls := (vs.filter (·.isNone)).length
  let valid := nulls ≠ 0
  let bitmap := if valid then padTo (pack 1 (vs.map fun o => Bool.asNat o.isSome)) (roundUp (ceilDiv rows 8) 8) else []
  let wrapped := if wrap = 0 || e.body.isEmpty then e.body
    else { format := wrap, level := level, cksum := false, unitKib := 0, dict := none, dictId := 0, input := e.body : EncodeReq }.bytes
  let useWrap := wrap ≠ 0 && wrapped.length < e.body.length
  let stored := if useWrap then wrapped else e.body
  let hdr (crc : Nat) : Bytes :=
    leBytes 4 0x47504C53 ++ [0x01, BitVec.ofNat 8 ty, BitVec.ofNat 8 (e.enc + 16 * (if useWrap then wrap else 0)),
      BitVec.ofNat 8 (Bool.asNat valid + 2 * Bool.asNat dictPart)] ++
    leBytes 4 rows ++ leBytes 4 nulls ++ leBytes 4 start ++ leBytes 4 e.body.length ++ leBytes 4 stored.length ++
    [BitVec.ofNat 8 e.bits, BitVec.ofNat 8 e.bits2, 0, 0] ++ leBytes 16 e.base ++ leBytes 4 crc ++ leBytes 2 col ++ zeros 10
  let crc := crc32c (hdr 0 ++ bitmap ++ stored)
  let all := hdr crc.toNat ++ bitmap ++ stored
  padTo all (roundUp all.length 64)

/-- Row pages of 65,536 rows or fewer (02 R48). -/
def buildRows (ty col hint wrap level : Nat) (dict : List Val) : Nat → Nat → Nat → Vals → List (Nat × Bytes)
  | 0, _, _, _ => []
  | fuel + 1, pageNo, start, vs =>
    if vs.isEmpty then []
    else
      let cand := vs.take 65536
      let enc := chooseEnc ty hint pageNo dict cand
      let n := fitRows ty enc dict cand 17 0
      let part := cand.take n
      match (encodeRows ty enc dict part).orElse fun _ => encodeRows ty 6 dict part with
      | none => []
      | some e => (e.enc, buildPage ty col start false wrap level e part) ::
          buildRows ty col hint wrap level dict fuel (pageNo + 1) (start + n) (vs.drop n)

/-- Two ascending lists of distinct values merged into one. -/
def mergeVals (ty : Nat) : Nat → List Val → List Val → List Val
  | 0, l, r => l ++ r
  | _, [], r => r
  | _, l, [] => l
  | fuel + 1, a :: l, b :: r =>
    if a = b then a :: mergeVals ty fuel l r
    else if valLt ty a b then a :: mergeVals ty fuel l (b :: r)
    else b :: mergeVals ty fuel (a :: l) r

/-- Values in ascending order without repeats, by halves. -/
def sortVals (ty : Nat) : Nat → List Val → List Val
  | 0, l => l
  | _, [] => []
  | _, [v] => [v]
  | fuel + 1, l =>
    let h := l.length / 2
    mergeVals ty l.length (sortVals ty fuel (l.take h)) (sortVals ty fuel (l.drop h))

/-- The distinct values in ascending order (02 R47). -/
def sortedVals (ty : Nat) (vs : Vals) : List Val :=
  let l := vs.filterMap id
  sortVals ty (Nat.log2 l.length + 1) l

/-- The segment that SEGMENT_WRITE builds: its bytes and its pages (04 R121). Its dictionary holds every value of the segment, whichever
pages use it (02 R46 says which order, not which entries; DESIGN CHOICE, log 260). -/
def buildSegment (ty col hint wrap level : Nat) (vs : Vals) : Bytes × Nat :=
  let dict := sortedVals ty vs
  let rows := buildRows ty col hint wrap level dict (vs.length + 1) 0 0 vs
  let ds := if rows.any (·.1 = 5) then
      buildRowsDict ty col wrap level (dict.length + 1) 0 (dict.map some)
    else []
  ((ds ++ rows.map (·.2)).flatten, ds.length + rows.length)
where
  /-- Dictionary pages in PLAIN (02 R45, R47). -/
  buildRowsDict (ty col wrap level : Nat) : Nat → Nat → Vals → List Bytes
    | 0, _, _ => []
    | fuel + 1, start, vs =>
      if vs.isEmpty then []
      else
        let cand := vs.take 65536
        let n := fitRows ty 0 [] cand 17 0
        match encodeRows ty 0 [] (cand.take n) with
        | none => []
        | some e => buildPage ty col start true wrap level e (cand.take n) ::
            buildRowsDict ty col wrap level fuel (start + n) (vs.drop n)

/-! ### The jobs of a segment's pages (12 R382, R384) -/

/-- The pages of a segment, cut at their lengths. -/
def cutPages : Nat → Bytes → List Bytes
  | 0, _ => []
  | fuel + 1, bs => if !pageLocated bs then [] else bs.take (Page.ofBytes bs).len :: cutPages fuel (bs.drop (Page.ofBytes bs).len)

/-- The payload of a page as stored. -/
def storedPayload (bs : Bytes) : Bytes := slice bs (64 + (Page.ofBytes bs).vb) (Page.ofBytes bs).stored

/-! ### Reading a stored segment (02 R34, R260) -/

/-- The pages of a segment, each checked. -/
def segmentPages (ty : Nat) (bs : Bytes) : SegCheck := walkSegment ty (bs.length / 64 + 1) 0 bs [] []

/-- Values that stand for a page whose payload cannot be read: its bitmap as it is stored. -/
def unreadVals (ty : Nat) (p : Page) (bs : Bytes) : Vals :=
  (pageValidity p bs).map fun v => if v then some (mkVal ty 0) else none

/-- The pages of a stored segment as they stand (R34): each is checked by itself, in its place (`dn` dictionary entries and
`rn` rows come before it), and one that does not check is found where it is read. From a page that cannot be located on, the
rows of the segment lie in pages that cannot be read. -/
def storedPages (ty col n : Nat) : Nat → Nat → Bytes → Nat → Nat → List Val → List SegPage
  | 0, _, _, _, _, _ => []
  | fuel + 1, off, bs, dn, rn, dict =>
    if !pageLocated bs then
      if n ≤ rn then []
      else [{
        off := off, page := { Page.ofBytes [] with ty := ty, rows := n - rn, start := rn }
        vals := List.replicate (n - rn) none, located := false, ok := false }]
    else
      let p := Page.ofBytes bs
      let start := if p.dict then dn else rn
      let vs := if pageCrcOk bs && p.start == start && p.column == col then checkPage ty dict bs else none
      let vals := vs.getD (unreadVals ty p bs)
      { off := off, page := { p with start := start }, vals := vals, located := true, ok := vs.isSome } ::
        (if p.dict then storedPages ty col n fuel (off + p.len) (bs.drop p.len) (dn + p.rows) rn (dict ++ vals.filterMap id)
         else storedPages ty col n fuel (off + p.len) (bs.drop p.len) dn (rn + p.rows) dict)

end Sys2Proof.Machine
end

