-- ==== Sys2Proof/Machine/Events.lean ====
section
/-! DEFINITION. Events, pending bits, vectors and the RAS log (20 R583-R593, R597, R598, R664), and the commands
of the vectors. -/

namespace Sys2Proof.Machine

/-! ### Vectors (20 R587-R592) -/

def Fn.vec (f : Fn) (v : BitVec 11) : Vec := f.vectors.get v Vec.reset
def Fn.setVec (f : Fn) (v : BitVec 11) (x : Vec) : Fn := { f with vectors := f.vectors.insert v x }

/-- Whether messages are sent for a function now (20 R592, 17 R516, R521; none once the state is being saved, 04 R133). -/
def State.canSignal (s : State) (i : BitVec 8) : Bool :=
  let f := s.fn i
  s.working && f.present && f.bme && ((s.inst i).st == .serving || (s.inst i).st == .quiescing)

/-- A message of a vector falls due: sent, or held under a mask (R589), in D3hot (R591) or while the function may
not signal (R592). -/
def State.messageDue (s : State) (i : BitVec 8) (v : BitVec 11) : State :=
  let f := s.fn i
  let x := f.vec v
  if !s.canSignal i then s.setFn i (f.setVec v { x with timer := false })
  else if f.d3hot then
    let s := s.setFn i (f.setVec v { x with timer := false, c := 0, pending := true })
    if f.pmeEn then s.emit (.pme i) else s
  else if x.masked || f.fnMask then
    s.setFn i (f.setVec v { x with timer := false, c := 0, pending := true })
  else
    (s.setFn i (f.setVec v { x with timer := false, c := 0, pending := false })).emit
      (.msix i v x.addr x.data)

/-- One occurrence on a vector (R587, R588); a vector whose message is held covers it (R589). -/
def State.occur (s : State) (i : BitVec 8) (v : BitVec 11) : State :=
  let f := s.fn i
  let x := f.vec v
  if x.pending then s
  else
    let x' := { x with c := x.c + 1, timer := x.timer || x.c == 0, since := if x.c = 0 then s.time else x.since }
    let s' := s.setFn i (f.setVec v x')
    if x.time == 0 || x.count ≤ x'.c then s'.messageDue i v else s'

/-- Every vector that holds a message is signalled once: on the return to D0 (R591). -/
def State.signalHeld (s : State) (i : BitVec 8) : State :=
  forEach (s.fn i).vectors s fun s e => if ((s.fn i).vec e.1).pending then s.messageDue i e.1 else s

/-- Every vector with occurrences or a held message is signalled once (R592). -/
def State.signalAll (s : State) (i : BitVec 8) : State :=
  forEach (s.fn i).vectors s fun s e =>
    if ((s.fn i).vec e.1).pending || ((s.fn i).vec e.1).c != 0 then s.messageDue i e.1 else s

/-! ### Records (20 R583-R586) -/

/-- A record appended to a function's event log: its ordinal, its pending bit, and the occurrence its route asks
for (R585, R586). -/
def State.deliver (s : State) (dst : BitVec 8) (r : EvRec) : State :=
  let f := s.fn dst
  let log := (if f.evtLog.length < 512 then f.evtLog else f.evtLog.drop 1) ++ [{ r with eseq := f.eseq }]
  let f' := { f with
    evtLog := log, eseq := f.eseq + 1,
    evtPend := f.evtPend ||| (1#1024 <<< r.id.toNat) }
  let route := f.evtRoute.get (r.id.setWidth 10) 0
  let s' := s.setFn dst f'
  if route.getLsbD 15 then s'.occur dst (route.setWidth 11) else s'

/-- A record for the manager's PF, or the holding log while the role is vacant (R583). -/
def State.deliverManager (s : State) (r : EvRec) : State :=
  match s.glb.manager with
  | some m => s.deliver m r
  | none =>
    let l := s.ras.holding
    let log := (if l.length < 512 then l else l.drop 1) ++ [{ r with eseq := s.ras.holdSeq }]
    { s with ras := { s.ras with holding := log, holdSeq := s.ras.holdSeq + 1 } }

/-- The severity of an event's RAS record (R664); HOST_AER names its own. -/
def severity (id : Nat) : BitVec 8 :=
  if id == 0 then 3
  else if [1, 3, 67, 73, 75, 320, 321].contains id then 2
  else if [2, 4, 6, 64, 65, 66, 70, 71, 72, 256, 257, 260, 261, 262, 324, 325].contains id then 1
  else 0

/-- Whether an event also appends a record to the RAS log (R598). -/
def rasLogged (id : Nat) : Bool := id < 512 && !([7, 8, 9, 192, 193, 259].contains id)

/-- A record appended to the RAS log; the second part says whether one was overwritten (R598). -/
def Ras.append (r : Ras) (x : RasRec) : Ras × Bool :=
  let full := r.log.length ≥ 4096
  ({ r with log := (if full then r.log.drop 1 else r.log) ++ [{ x with rseq := r.rseq }], rseq := r.rseq + 1 },
    full)

/-- An event record before its ordinal. -/
def State.record (s : State) (id : Nat) (inst : BitVec 8) (d0 d1 : BitVec 64) : EvRec where
  id := BitVec.ofNat 16 id
  inst := inst
  eseq := 0
  time := s.time
  d0 := d0
  d1 := d1

/-- A device-scope event with the bytes its RAS record carries besides (R583, R598). -/
def State.raiseDeviceX (s : State) (id : Nat) (inst : BitVec 8) (d0 d1 : BitVec 64) (sev : BitVec 8)
    (extra : BitVec 256) : State :=
  let s1 := s.deliverManager (s.record id inst d0 d1)
  if rasLogged id then
    let (r, flooded) := s1.ras.append
      { id := BitVec.ofNat 16 id, sev := sev, inst := inst, rseq := 0, time := s.time, d0 := d0, d1 := d1,
        extra := extra }
    let s2 := { s1 with ras := r }
    if flooded && !r.wrapped then
      let s3 := { s2 with ras := { s2.ras with wrapped := true } }
      let s4 := s3.deliverManager (s3.record 11 0xFF 0 0)
      { s4 with ras := (s4.ras.append
          { id := 11, sev := 0, inst := 0xFF, rseq := 0, time := s.time, d0 := 0, d1 := 0, extra := 0 }).1 }
    else s2
  else s1

/-- A device-scope event (R583, R584). -/
def State.raiseDevice (s : State) (id : Nat) (inst : BitVec 8) (d0 d1 : BitVec 64) : State :=
  s.raiseDeviceX id inst d0 d1 (severity id) 0

/-- An instance-scope event, to the instance's own function (R583). -/
def State.raiseInst (s : State) (id : Nat) (inst : BitVec 8) (d0 d1 : BitVec 64) : State :=
  s.deliver inst (s.record id inst d0 d1)

/-- An instance-scope event for every instance that exists (R584 IDs 520-522). -/
def State.raiseAll (s : State) (id : Nat) (d0 : BitVec 64) : State :=
  forEach (s.insts.filter fun e => e.2.st != .absent) s fun s e => s.raiseInst id e.1 d0 0

/-! ### RAS counters (20 R597, 21 R634) -/

/-- A RAS counter counts one, saturating; named by its offset in the RAS block. -/
def State.count (s : State) (off : BitVec 16) : State :=
  let v := s.ras.counters.get off 0
  { s with ras := { s.ras with
      counters := s.ras.counters.insert off (if v = 0xFFFFFFFF then v else v + 1) } }

def ctrStrCe (cluster : BitVec 3) : BitVec 16 := BitVec.ofNat 16 (4 * cluster.toNat)
def ctrStrAll : BitVec 16 := 0x20
def ctrAsaPe : BitVec 16 := 0x24
def ctrPageCrc : BitVec 16 := 0x28
def ctrCasChk : BitVec 16 := 0x2C
def ctrReplay (port : BitVec 2) : BitVec 16 := BitVec.ofNat 16 (0x30 + 4 * port.toNat)
def ctrPcieCe (port : BitVec 2) : BitVec 16 := BitVec.ofNat 16 (0x40 + 4 * port.toNat)
def ctrDramCe (ch : BitVec 4) (rank : BitVec 2) : BitVec 16 :=
  BitVec.ofNat 16 (0x100 + 4 * (4 * ch.toNat + rank.toNat))
def ctrDramUe (ch : BitVec 4) (rank : BitVec 2) : BitVec 16 :=
  BitVec.ofNat 16 (0x200 + 4 * (4 * ch.toNat + rank.toNat))

/-- Ends ALERT_N low: a device condition drives it (20 R600, R611; 19 R575). -/
def State.alertLow (s : State) : State := { s with glb := { s.glb with alert := true } }

/-! ### The commands of the vectors -/

/-- VECTOR_UNMASK (20 R589): a vector's mask or the function's mask is cleared, and messages held under it are
sent. -/
def State.unmaskVector (s : State) (inst : BitVec 8) (vector : Option (BitVec 11)) : State :=
  match vector with
  | some v =>
    if v.toNat < msixCount inst then
      let f := s.fn inst
      let s1 := s.setFn inst (f.setVec v { f.vec v with masked := false })
      (if (f.vec v).pending then s1.messageDue inst v else s1)
    else s
  | none =>
    let f := s.fn inst
    let s1 := s.setFn inst { f with fnMask := false }
    (forEach f.vectors s1 fun s e => if e.2.pending then s.messageDue inst e.1 else s)

/-- VECTOR_UNMASK. -/
def execVectorUnmask (inst : BitVec 8) (vector : Option (BitVec 11)) (s : State) : Host.Outcome State Fault Refusal :=
  .next (s.unmaskVector inst vector)

/-- MODERATION_TIMER (20 R588): the timer of a vector has reached TIME µs and its message falls due. -/
def execModerationTimer (inst : BitVec 8) (vector : BitVec 11) (s : State) : Host.Outcome State Fault Refusal :=
  let x := (s.fn inst).vec vector
  if x.timer && x.c != 0 && s.passed x.since (25 * x.time) then .next (s.messageDue inst vector)
  else .next s

end Sys2Proof.Machine
end

