-- ==== Sys2Proof/Machine/Relay.lean ====
section
/-! DEFINITION. Relay messages (18 R532-R540, R556): how they are sent, routed, checked and put together from their
fragments. -/

namespace Sys2Proof.Machine

/-- An engine's node ID as a message's SRC (R533). -/
def State.srcNode (s : State) : BitVec 16 :=
  match s.disc.nodeId with
  | some n => n.setWidth 16
  | none => 0xFFFF

/-- SRC of a message that leaves by a port (R533). -/
def State.srcOn (s : State) (port : BitVec 2) : BitVec 16 := if port = 0 then 0xFFFF else s.srcNode

/-- Whether a port's link is UP. -/
def State.linkUp (s : State) (port : BitVec 2) : Bool := (s.link port).st == .up

/-- A message sent to the engine at the other end of a link. -/
def State.sendLink (s : State) (port : BitVec 2) (cls : BitVec 8) (tag : BitVec 32) (payload : Bytes) : State :=
  if s.linkUp port then s.emit (.relay port cls 0xFFFF (s.srcOn port) tag payload) else s

/-- The port by which a message for a node leaves: the child port whose range holds it, else the parent (R556). -/
def State.route (s : State) (dst : BitVec 16) : Option (BitVec 2) :=
  match s.disc.children.find? fun c => decide (c.2.1 ≤ dst.toNat) && decide (dst.toNat < c.2.1 + c.2.2) with
  | some c => some c.1
  | none => s.disc.parent

/-- A message sent to a node (R556). -/
def State.sendNode (s : State) (dst : BitVec 16) (cls : BitVec 8) (tag : BitVec 32) (payload : Bytes) : State :=
  match s.route dst with
  | some p => if s.linkUp p then s.emit (.relay p cls dst s.srcNode tag payload) else s
  | none => s

/-- The fragments of a logical payload (R537): each with its header, at most `most` data bytes. -/
def fragmentsFrom (most total : Nat) : Nat → Nat → Bytes → List Bytes
  | 0, _, _ => []
  | _, _, [] => []
  | fuel + 1, off, bs =>
    let d := bs.take most
    let rest := bs.drop most
    let hdr := leBytes 4 off ++ leBytes 4 total ++ leBytes 2 d.length ++ leBytes 2 (Bool.asNat rest.isEmpty) ++ zeros 4
    (hdr ++ padTo d (roundUp d.length 16)) :: fragmentsFrom most total fuel (off + d.length) rest

def fragments (most : Nat) (bs : Bytes) : List Bytes := fragmentsFrom most bs.length (bs.length + 1) 0 bs

/-- A logical payload sent on P0 (R537). -/
def State.sendPair (s : State) (cls : BitVec 8) (tag : BitVec 32) (bs : Bytes) : State :=
  forEach (fragments 65520 bs) s fun s f => s.sendLink 0 cls tag f

/-- A malformed or unknown message is discarded and reported (R536). -/
def State.protocolError (s : State) (port : BitVec 2) : State :=
  s.raiseDevice 262 0xFF (port.setWidth 64) 0

/-- Whether a class may use a port (R535). -/
def classOn (cls : Nat) (port : BitVec 2) : Bool :=
  if port = 0 then [0x01, 0x02, 0x10, 0x11, 0x12, 0x13, 0x14, 0x30, 0x31].contains cls
  else !([0x01, 0x10, 0x11, 0x12, 0x13, 0x14].contains cls)

/-- The checks every received message meets, then its meaning: the engine has not saved its state (04 R133), the link is UP, the class may use the port, the
payload's length is a multiple of 16 of at most 65,536; a message for another node goes on along the tree (R533-R536,
R556). -/
def State.receive (s : State) (m : RelayMsg) (cls : Nat) (k : State → State) : State :=
  if !s.working || !s.linkUp m.port then s
  else if m.payload.length % 16 ≠ 0 || m.payload.length > 65536 || !classOn cls m.port then s.protocolError m.port
  else if m.dst ≠ 0xFFFF && m.dst ≠ s.srcNode then
    match s.route m.dst with
    | some p =>
      if s.linkUp p && m.port ≠ 0 then s.emit (.relay p (BitVec.ofNat 8 cls) m.dst m.src m.tag m.payload) else s
    | none => s
  else k s

/-- A message of fixed length. -/
def State.receiveLen (s : State) (m : RelayMsg) (cls len : Nat) (ok : Bytes → Bool) (k : State → State) : State :=
  s.receive m cls fun s => if m.payload.length = len && ok m.payload then k s else s.protocolError m.port

/-- The fragments a link holds of one logical payload, without them. -/
def Link.dropFrag (l : Link) (m : RelayMsg) (cls : BitVec 8) : Link :=
  { l with frags := l.frags.filter fun f => !(f.cls == cls && f.src == m.src && f.tag == m.tag) }

/-- One fragment received (R537): the whole payload goes to `k` with its last fragment; a fragment that does not
continue discards it all. -/
def State.receiveFrag (s : State) (m : RelayMsg) (cls : BitVec 8) (most : Nat) (k : Bytes → State → State) : State :=
  s.receive m cls.toNat fun s =>
    let p := m.payload
    let off := fld p 0 4
    let total := fld p 4 4
    let n := fld p 8 2
    let last := bit (fld p 10 2) 0
    let l := s.link m.port
    let have? := l.frags.find? fun f => f.cls == cls && f.src == m.src && f.tag == m.tag
    let got := (have?.map (·.got)).getD []
    let bad := p.length < 16 || fld p 10 2 > 1 || fld p 12 4 ≠ 0 || n = 0 || n > most || off % 16 ≠ 0 ||
      total = 0 || total > 16777280 || p.length ≠ 16 + roundUp n 16 || !allZero (p.drop (16 + n)) ||
      off ≠ got.length || (have?.isSome && (have?.map (·.total)) ≠ some total) || off + n > total ||
      (last && off + n ≠ total) || (!last && off + n = total)
    if bad then (s.setLink m.port (l.dropFrag m cls)).protocolError m.port
    else
      let all := got ++ slice p 16 n
      if last then k all (s.setLink m.port (l.dropFrag m cls))
      else s.setLink m.port { l.dropFrag m cls with
        frags := { cls := cls, src := m.src, tag := m.tag, total := total, got := all } :: (l.dropFrag m cls).frags }

end Sys2Proof.Machine
end

