-- ==== Sys2Proof/Machine/Rings.lean ====
section
/-! DEFINITION. Commands, batches and completions (03 R66-R100): the shared operations by which a fetched command
begins, finishes and is reported. -/

namespace Sys2Proof.Machine

/-! ### Status codes (03 R109) -/

def stOk : BitVec 15 := 0x0000
def stFieldInvalid : BitVec 15 := 0x0801
def stQueueMalformed : BitVec 15 := 0x0802
def stNotAuthorized : BitVec 15 := 0x0803
def stNotQuiesced : BitVec 15 := 0x0804
def stDataLost : BitVec 15 := 0x1001
def stIntegrity : BitVec 15 := 0x1002
def stQuota : BitVec 15 := 0x1801
def stChainEnd : BitVec 15 := 0x1802
def stOutputLimit : BitVec 15 := 0x1803
def stAborted : BitVec 15 := 0x2001
def stAbortedByReset : BitVec 15 := 0x2002
def stDeadlineMissed : BitVec 15 := 0x2801
def stPageFault : BitVec 15 := 0x3001
def stTopologyConflict : BitVec 15 := 0x3801
def stInternal : BitVec 15 := 0x3802

/-! ### Entries (03 R66) -/

/-- Bytes `off` to `off + n - 1` of an SQ entry as a number. -/
def ef (e : BitVec 512) (off n : Nat) : Nat := e.toNat / 256 ^ off % 256 ^ n

def Cmd.f (c : Cmd) (off n : Nat) : Nat := ef c.entry off n
def Cmd.opcode (c : Cmd) : Nat := c.f 1 1
def Cmd.nc (c : Cmd) : Bool := c.entry.getLsbD 1
def Cmd.batchEnd (c : Cmd) : Bool := c.entry.getLsbD 2
def Cmd.fua (c : Cmd) : Bool := c.entry.getLsbD 3

/-- Whether every byte of the body outside the given fields (offset, length) is zero (00 R8). -/
def Cmd.clean (c : Cmd) (used : List (Nat × Nat)) : Bool :=
  (List.range 56).all fun k =>
    let off := k + 8
    c.f off 1 == 0 || used.any fun u => decide (u.1 ≤ off) && decide (off < u.1 + u.2)

/-- The PASID of a word that holds PASID in bits 19:0 and PV in bit 31. -/
def pasidOf (w : Nat) : Option (BitVec 20) := if bit w 31 then some (BitVec.ofNat 20 w) else none

/-- Opcodes of the admin queue and of the I/O queues, and the manager-only ones (R107). -/
def adminOpcodes : List Nat :=
  [0x01, 0x02, 0x03, 0x04, 0x05, 0x06, 0x07, 0x08, 0x09, 0x0A, 0x10, 0x11, 0x18, 0x19, 0x1A, 0x1B, 0x1C, 0x1D]
def ioOpcodes : List Nat := [0x40, 0x41, 0x48, 0x49, 0x4A, 0x4B, 0x4C, 0x50, 0x51, 0x52, 0x53]
def managerOpcodes : List Nat := [0x10, 0x11, 0x18, 0x19, 0x1A, 0x1B, 0x1C]
/-- Opcodes on which FUA is permitted (R68). -/
def fuaOpcodes : List Nat := [0x48, 0x49, 0x4B, 0x40, 0x41]

/-! ### Completions -/

/-- A completion becomes ready: it joins the end of its CQ's list (R79, R83). -/
def State.pushCpl (s : State) (inst : BitVec 8) (c : Cpl) : State :=
  match s.sq inst c.sqid with
  | none => s
  | some q =>
    match s.cq inst q.cqid with
    | none => s
    | some cq => s.setCq inst q.cqid { cq with ready := cq.ready ++ [c] }

/-- A command's own completion (R79). -/
def ownCpl (t : Tag) (status : BitVec 15) (result : BitVec 64) (after : List Tag) : Cpl where
  sqid := t.sqid
  cid := t.cid
  status := status
  result := result
  batch := false
  sqhead := none
  covers := [t.cid]
  after := after

/-- The batch completion of a closed batch (R88); it follows the completions that its ABORTs must follow (04 R143). -/
def batchCpl (b : Batch) : Cpl where
  sqid := b.sqid
  cid := b.closing
  status := b.closingStatus
  result := BitVec.ofNat 64 (b.ok % 2 ^ 32 + b.failed * 2 ^ 32)
  batch := true
  sqhead := none
  covers := b.members
  after := b.afters

def State.batch? (s : State) (n : Nat) : Option Batch := s.rings.batches.find? (·.no == n)
def State.setBatch (s : State) (b : Batch) : State :=
  { s with rings := { s.rings with batches := b :: s.rings.batches.filter (·.no != b.no) } }
def State.dropBatch (s : State) (n : Nat) : State :=
  { s with rings := { s.rings with batches := s.rings.batches.filter (·.no != n) } }

/-- A batch is posted when it is closed and every entry of it has finished (R88). -/
def State.batchCheck (s : State) (n : Nat) : State :=
  match s.batch? n with
  | none => s
  | some b => if b.closed && b.ok + b.failed == b.total then (s.dropBatch n).pushCpl b.inst (batchCpl b) else s

/-- The open batch of an SQ closes at its last fetched NC entry (R90). -/
def State.closeBatch (s : State) (inst : BitVec 8) (sqid : BitVec 12) : State :=
  match s.sq inst sqid with
  | none => s
  | some q =>
    match q.openBatch with
    | none => s
    | some n =>
      let s := s.setSq inst sqid { q with openBatch := none }
      match s.batch? n with
      | none => s
      | some b =>
        let cid := b.lastNc.getD 0
        let st := ((b.failures.find? (·.1 == cid)).map (·.2)).getD stOk
        (s.setBatch { b with closed := true, closing := cid, closingStatus := st }).batchCheck n

/-- A command of a batch has finished (R87, R88, R105): an entry that failed posts its own completion, the closing entry too,
and the batch completion takes the closing entry's status; what must be written before a successful entry's completion must be
written before the batch's (04 R143). -/
def State.batchEntryDone (s : State) (n : Nat) (t : Tag) (status : BitVec 15) (result : BitVec 64)
    (after : List Tag) : State :=
  match s.batch? n with
  | none => s.pushCpl t.inst (ownCpl t status result after)
  | some b =>
    let b1 := if b.closed && b.closing == t.cid then { b with closingStatus := status } else b
    if status = stOk then (s.setBatch { b1 with ok := b1.ok + 1, afters := b1.afters ++ after }).batchCheck n
    else
      let b2 := { b1 with
        failed := b1.failed + 1, members := b1.members.filter (· ≠ t.cid), failures := (t.cid, status) :: b1.failures }
      ((s.setBatch b2).pushCpl t.inst (ownCpl t status result after)).batchCheck n

/-- Whether a page request is outstanding or waits that a test of its waiters finds (15 R451). -/
def State.waitsFor (s : State) (w : Waiter) : Bool :=
  s.xlat.reqs.any (fun r => r.waiters.contains w) || s.xlat.waiting.any (fun r => r.waiters.contains w)

/-- Waiters that a test finds wait no longer: what made the access has ended, and its tag or queue may name another by the time
the response comes. -/
def State.dropWaiters (s : State) (f : Waiter → Bool) : State :=
  let without (l : List PageReq) : List PageReq := l.map fun r => { r with waiters := r.waiters.filter fun w => !f w }
  { s with xlat := { s.xlat with reqs := without s.xlat.reqs, waiting := without s.xlat.waiting } }

/-- One waiter waits no longer. -/
def State.unwait (s : State) (w : Waiter) : State := if s.waitsFor w then s.dropWaiters (· == w) else s

/-- The jobs of owners that a test finds are discarded: their client has stopped or ended (12 R383). -/
def State.dropJobs (s : State) (f : JobOwner → Bool) : State :=
  { s with disp := { s.disp with jobq := s.disp.jobq.filter fun w => !f w.owner } }

/-- Whether a command still has a job at a compression engine. -/
def State.jobsWait (s : State) (t : Tag) : Bool := s.disp.jobq.any fun w => w.owner == .cmd t

/-- What the engine keeps for a command only until it finishes: its waits for a page (15 R451), the writes a FLUSH noted (04 R128), the
segment a SEGMENT_READ holds (02 R60), its jobs (12 R383). -/
def State.forget (s : State) (c : Cmd) : State :=
  let s := s.unwait (.cmd c.tag)
  let s := if s.jobsWait c.tag then s.dropJobs (· == .cmd c.tag) else s
  if c.opcode = 0x4C then { s with store := { s.store with flushes := s.store.flushes.erase c.tag } }
  else if c.opcode = 0x11 then { s with fw := { s.fw with late := s.fw.late.filter (· != c.tag) } }
  else if c.opcode = 0x4A then State.gcSegs { s with store := { s.store with reads := s.store.reads.erase c.tag } }
  else s

/-- A command finishes with a status and a RESULT; its completion, or its batch's, becomes ready (R79, R86-R88).
`after` names the tags whose completions must be written first (04 R143). -/
def State.finishAfter (s : State) (t : Tag) (status : BitVec 15) (result : BitVec 64) (after : List Tag) : State :=
  match s.cmd? t with
  | none => s
  | some c =>
    if c.stage = .finished then s
    else
      let s := (s.forget c).modCmd t fun c => { c with stage := .finished }
      match c.batch with
      | none => s.pushCpl t.inst (ownCpl t status result after)
      | some n => s.batchEntryDone n t status result after

def State.finish (s : State) (t : Tag) (status : BitVec 15) (result : BitVec 64) : State :=
  s.finishAfter t status result []

/-! ### Beginning a command -/

/-- The command of a tag that may be executed now under an opcode: it is outstanding and unfinished, waits for no
page request (15 R456), and no command fetched before it is still to begin (03 R76). -/
def State.begin? (s : State) (t : Tag) (op : Nat) : Option Cmd :=
  match s.cmd? t with
  | none => none
  | some c =>
    if c.stage ≠ .finished ∧ c.opcode = op ∧ s.ready ∧ ¬ s.waitsFor (.cmd t) ∧
        (c.stage = .begun ∨ ¬ s.rings.cmds.any (fun d => d.stage == .fetched && decide (d.no < c.no))) then some c
    else none

/-- The check that comes before any other: a manager-only opcode from another function (R108), then FUA where it is
not permitted (R68). -/
def State.preCheck (s : State) (c : Cmd) : Option (BitVec 15) :=
  if managerOpcodes.contains c.opcode && !s.isManager c.tag.inst then some stNotAuthorized
  else if c.fua && !fuaOpcodes.contains c.opcode then some stFieldInvalid
  else none

/-- A command has begun. -/
def State.begun (s : State) (t : Tag) : State := s.modCmd t fun c => { c with stage := .begun }

/-- The frame of every opcode's meaning: the command begins, the checks of R108 and R68 come first, then its own
effect. -/
def State.opcode (s : State) (t : Tag) (op : Nat) (f : Cmd → State → State) : Host.Outcome State Fault Refusal :=
  match s.begin? t op with
  | none => .next s
  | some c =>
    match s.preCheck c with
    | some st => .next ((s.begun t).finish t st 0)
    | none => .next (f c (s.begun t))

/-- A PV = 1 while the function's PASID Enable is 0 (15 R447). -/
def State.pvBad (s : State) (c : Cmd) (off : Nat) : Bool :=
  bit (c.f off 4) 31 && !(s.fn c.tag.inst).pasidEn

/-! ### Queues -/

def Sq.size (q : Sq) : Nat := 2 ^ q.log2
def Cq.size (q : Cq) : Nat := 2 ^ q.log2
/-- A CQ is full when every slot holds an entry not yet returned (R83). -/
def Cq.full (q : Cq) : Bool := decide (q.size ≤ q.unreturned)

/-- Whether any command of an SQ is outstanding or any completion of it is still to be written. -/
def State.sqBusy (s : State) (inst : BitVec 8) (sqid : BitVec 12) : Bool :=
  s.rings.cmds.any (fun c => c.tag.inst == inst && c.tag.sqid == sqid) ||
  s.rings.cqs.any (fun e => e.1.1 == inst && e.2.ready.any (·.sqid == sqid))

/-- The tokens of a fresh bucket: full (17 R512). -/
def fullTokens : Nat := 16

/-- The last outstanding completion of a DRAINING SQ has been written: RESET_QUEUE or DELETE_SQ takes effect and
completes (R95). A read of its ring that still waits for a page is forgotten, so that the SQ scans again only after a doorbell
(R97). -/
def State.drainCheck (s : State) (inst : BitVec 8) (sqid : BitVec 12) : State :=
  match s.sq inst sqid with
  | none => s
  | some q =>
    if q.st == .draining && !s.sqBusy inst sqid then
      match q.drain with
      | some (.reset t) =>
        ((s.unwait (.sqFetch inst sqid)).setSq inst sqid { q with
          st := .active, drain := none, head := 0, pass := 0, latchSlot := 0, latchReason := 0, scanDue := false,
          scanning := false, openBatch := none }).finish t stOk 0
      | some (.delete t) => ((s.unwait (.sqFetch inst sqid)).dropSq inst sqid).finish t stOk 0
      | _ => s
    else s

/-- An SQ enters DRAINING (R95): fetching stops and the open batch closes (R90). -/
def State.drainSq (s : State) (inst : BitVec 8) (sqid : BitVec 12) (d : Drain) : State :=
  match s.sq inst sqid with
  | none => s
  | some q =>
    (s.setSq inst sqid { q with st := .draining, drain := some d, scanDue := false, scanning := false }).closeBatch
      inst sqid

/-- The 16 bytes of a CQ entry (R79). -/
def cqEntry (c : Cpl) (sqhead : Nat) (phase : Bool) : Bytes :=
  leBytes 8 c.result.toNat ++ leBytes 2 sqhead ++
  leBytes 2 (c.sqid.toNat + 0x1000 * Bool.asNat c.batch) ++ leBytes 2 c.cid.toNat ++
  leBytes 2 (c.status.toNat + 0x8000 * Bool.asNat phase)

/-- A device-wide count of SQs and CQs that exist. -/
def State.ioSqs (s : State) (i : BitVec 8) : Nat :=
  (s.rings.sqs.filter fun e => e.1.1 == i && e.1.2 != 0).length
def State.ioCqs (s : State) (i : BitVec 8) : Nat :=
  (s.rings.cqs.filter fun e => e.1.1 == i && e.1.2 != 0).length
def State.allSqs (s : State) (i : BitVec 8) : Nat := (s.rings.sqs.filter fun e => e.1.1 == i).length
def State.allCqs (s : State) (i : BitVec 8) : Nat := (s.rings.cqs.filter fun e => e.1.1 == i).length

end Sys2Proof.Machine
end

