-- ==== Sys2Proof/Machine/QueryOps.lean ====
section
/-! DEFINITION. The shared operations on queries: the chain status word (05 R166), stopping (R168, R169), reaching
DONE, the deadline (05 R179, 07 R237), and on stored segments: what is retained and what is charged (02 R55, 15
R662). -/

namespace Sys2Proof

/-- The index of a cause's total (07 R238). -/
def ParkCause.total : ParkCause → Nat
  | .pacer => 0
  | .memhold => 2
  | .page _ _ => 3
  | .spill => 4
  | .stream => 6

end Sys2Proof

namespace Sys2Proof.Machine

/-! ### The segment map's keepings -/

/-- TABLE pages charged to an instance with `extra` further map entries and tables (15 R662). -/
def State.tableUseWith (s : State) (i : BitVec 8) (segPages entries tables : Nat) : Nat :=
  let segs := s.store.segs.filter fun e => e.2.inst == i
  let nTab := (s.store.tables.filter fun e => e.1.1 == i).length + tables
  let nSeg := segs.length
  (segs.map fun e => ceilDiv e.2.bytes.length 65536).sum + segPages +
  ((s.inst i).images.map fun e => ceilDiv e.2.length 65536).sum +
  ceilDiv (nTab + nSeg + entries) 2048 +
  (if nTab + nSeg + entries = 0 then 0 else 16)

/-- TABLE use (15 R662). -/
def State.tableUse (s : State) (i : BitVec 8) : Nat := s.tableUseWith i 0 0 0

/-- SPILL pages of the save of a COMPUTE item (07 R233). -/
def Core.savePages (c : Core) : Nat := Config.spillPages 0x10 0 (1024 * c.scratchKib)

/-- SPILL pages of the saves of an instance's items. -/
def State.saveUse (s : State) (i : BitVec 8) : Nat :=
  ((s.cores.saved.filter fun e => (s.item? e.1).any fun n => n.query.inst == i).map fun e => e.2.savePages).sum

/-- What the items of an instance hold themselves. -/
def State.itemsUse (s : State) (i : BitVec 8) (f : Item → Nat) : Nat :=
  ((s.disp.items.filter fun n => n.query.inst == i).map f).sum

/-- SPILL use of an instance: the pages its operators, items and saves hold (15 R460). -/
def State.spillUse (s : State) (i : BitVec 8) : Nat :=
  ((s.ops.filter fun e => e.1.1.inst == i).map fun e => e.2.spill).sum + s.itemsUse i (·.spill) + s.saveUse i

/-- STREAM_SPILL use of an instance: the middle pages of its streams (06 R203). -/
def State.sspillUse (s : State) (i : BitVec 8) : Nat :=
  ((s.streams.filter fun e => e.1.query.inst == i).map fun e => e.2.pages).sum

/-- LS units an instance has reserved. -/
def State.lsUse (s : State) (i : BitVec 8) : Nat :=
  ((s.ops.filter fun e => e.1.1.inst == i).map fun e => e.2.lsUnits).sum + s.itemsUse i (·.ls)

/-! ### The chain status word (05 R166) -/

def QState.code : QState → Nat
  | .validating => 1
  | .waiting => 2
  | .running => 3
  | .paused => 4
  | .stopping => 5
  | .done => 6

/-- STATUS as the CSW shows it. -/
def Query.cswStatus (q : Query) : BitVec 15 :=
  match q.st with
  | .validating | .waiting | .running => stOk
  | .paused => stChainEnd
  | .stopping | .done => q.status

/-- The chains at END as a mask. -/
def Query.pausedMask (q : Query) : Nat :=
  (q.chains.zipIdx.map fun e => if e.1.atEnd then 2 ^ e.2 else 0).sum

/-- The CSW's bytes. Until the chains have been read there is no BYTES_c beyond BYTES_0 (DESIGN CHOICE, log 262). -/
def Query.csw (q : Query) : Bytes :=
  leBytes 1 q.st.code ++ [0] ++ leBytes 2 q.cswStatus.toNat ++
  leBytes 2 q.pausedMask ++ [0, 0] ++
  leBytes 8 (q.chains.head?.elim 0 (·.bytes)) ++ leBytes 4 q.pauses.toNat ++
  leBytes 2 q.index.toNat ++ leBytes 2 q.reason.toNat ++
  leBytes 8 ((q.chains.find? (·.atEnd)).elim 0 (·.desc.toNat)) ++
  (q.chains.drop 1).flatMap fun c => leBytes 8 c.bytes

/-- A CSW as it stands now waits behind the write that faulted (15 R456). -/
def State.holdCsw (s : State) (t : Tag) : State :=
  s.modQuery t fun q => { q with cswHeld := q.cswHeld ++ [(q.csw, none)] }

/-- The CSW is written, unless it will never be written again; behind a write that waits it waits too (15 R456). -/
def State.emitCsw (s : State) (t : Tag) : State :=
  match s.query? t with
  | none => s
  | some q =>
    if q.noCsw then s
    else if s.waitsFor (.csw t) then s.holdCsw t
    else s.orderedWrite t.inst q.pasid q.cswAddr q.csw

/-! ### Items of a query -/

def ItemState.code : ItemState → Nat
  | .ready => 0
  | .slotted => 1
  | .running => 2
  | .parked => 3
  | .ended => 4

/-- A work item descriptor (07 R217). -/
def Item.desc (i : Item) : Bytes :=
  leBytes 2 i.op.toNat ++ leBytes 2 i.qid.toNat ++ leBytes 2 i.flowNo.toNat ++
  leBytes 1 (i.prio.toNat + 16 * Bool.asNat i.preempt + 32 * Bool.asNat i.atomic) ++ leBytes 1 i.query.inst.toNat ++
  leBytes 8 i.origin.toNat ++ leBytes 4 i.count ++ leBytes 4 i.progress ++
  leBytes 2 (i.subpos.toNat + 64 * i.subport.toNat) ++ leBytes 1 i.st.code ++ leBytes 1 i.lastStop.toNat ++
  leBytes 4 i.opstate.toNat

/-- Whether an item runs on a runner. -/
def State.anyRunning (s : State) (t : Tag) : Bool :=
  s.disp.items.any fun i => i.query == t && i.st == .running

def State.opItems (s : State) (t : Tag) (op : BitVec 16) : List Item :=
  s.disp.items.filter fun i => i.query == t && i.op == op

/-- Items of one flow of an operator. -/
def State.flowItems (s : State) (t : Tag) (op : BitVec 16) (flow : BitVec 8) : List Item :=
  (s.opItems t op).filter (·.flow == flow)

/-- Whether an item's flow lets it enter service: an atomic flow's first item, with none of the flow in service (07 R222). -/
def State.flowReady (s : State) (i : Item) : Bool :=
  !i.atomic || (s.flowItems i.query i.op i.flow).all fun j =>
    j.id == i.id || (decide (i.id < j.id) && j.st != .slotted && j.st != .running)

def State.grants (s : State) (inst : BitVec 8) (level : BitVec 4) : Nat := AMap.get s.disp.grants (inst, level) 0

/-- An eligible READY item (07 R223, R224). -/
def State.eligible (s : State) (i : Item) : Bool :=
  i.st == .ready && s.flowReady i && decide (s.grants i.query.inst i.prio < (s.inst i.query.inst).weight.toNat)

/-- A round ends at every level that has no eligible item left: the grant counts refill (07 R224). Every operation after which an item
may be eligible no longer ends with it. -/
def State.refill (s : State) : State :=
  { s with disp := { s.disp with
    grants := s.disp.grants.filter fun e => s.disp.items.any fun i => i.prio == e.1.2 && s.eligible i } }

/-- Items leave the Dispatcher: its lists, and the slots and places of the runners. -/
def State.removeItems (s : State) (f : Item → Bool) : State :=
  let gone := (s.disp.items.filter f).map (·.id)
  State.refill { s with disp := { s.disp with
    items := s.disp.items.filter fun i => !f i
    returned := s.disp.returned.filter fun n => !gone.contains n
    generated := s.disp.generated.filter fun n => !gone.contains n
    jobq := s.disp.jobq.filter fun w => match w.owner with
      | .page n _ _ => !gone.contains n
      | .cmd _ => true
    runners := s.disp.runners.mapVals fun _ r => { r with
      running := r.running.filter fun n => !gone.contains n
      slot := r.slot.filter fun n => !gone.contains n } } }

/-- A query's stall total grows, in ns (07 R238). -/
def State.addTotalNs (s : State) (t : Tag) (k : Nat) (ns : BitVec 64) : State :=
  s.modQuery t fun q => { q with totals := q.totals.set k (q.totals.getD k 0 + ns) }

/-- The same, in time base counts of 40 ns. -/
def State.addTotal (s : State) (t : Tag) (k : Nat) (counts : BitVec 64) : State := s.addTotalNs t k (40 * counts)

/-- A running item waits on a stream from now on, unless it does already (06 R204, 07 R234). -/
def State.stallItem (s : State) (n : Nat) : State :=
  s.modItem n fun i => { i with stall := some (i.stall.getD s.time) }

/-- A wait on a stream on the runner is over: it counts, for `least` counts of the time base at least (07 R238). -/
def State.endStall (s : State) (n : Nat) (least : BitVec 64) : State :=
  match s.item? n with
  | none => s
  | some i =>
    match i.stall with
    | none => s
    | some t0 =>
      let d := s.time - t0
      (s.modItem n fun i => { i with stall := none }).addTotal i.query 6 (if d.ult least then least else d)

/-- The waits of items that are withdrawn count up to now (07 R238). -/
def State.closeTotals (s : State) (f : Item → Bool) : State :=
  forEach (s.disp.items.filter f) s fun s i =>
    match i.st with
    | .parked => s.addTotal i.query ((i.cause.map ParkCause.total).getD 0) (s.time - i.since)
    | .ready => if i.lastStop = 1 || i.lastStop = 6 then s.addTotal i.query 5 (s.time - i.since) else s
    | .running => s.endStall i.id 0
    | _ => s

/-- The items of a query that enters STOPPING are withdrawn; one that runs stops at its next element boundary, which
a later command of its runner is (07 R219). -/
def State.withdraw (s : State) (t : Tag) : State :=
  (s.closeTotals fun i => i.query == t).removeItems fun i => i.query == t && i.st != .running

/-! ### Leave of a query (19 R571) -/

/-- The query a leave is for. -/
def leaveQuery : LeaveOp → Option Tag
  | .sprint _ => none
  | .sortUnit _ t => some t
  | .spread t _ => some t
  | .encode _ t => t
  | .exchange t _ => some t

/-- A cluster's request with the items that still wait for it, and the highest PRIO among them (R567). -/
def State.leaveLeft (s : State) (l : Leave) : Leave :=
  match l.op with
  | .sprint _ =>
    let left := l.items.filterMap s.item?
    { l with items := left.map (·.id), prio := left.foldl (fun p i => if i.prio.ult p then i.prio else p) 15 }
  | _ => l

/-- The order of waiting requests: by PRIO, then arrival (R569). -/
def leaveLt (a b : Leave) : Bool := a.prio.ult b.prio || (a.prio == b.prio && decide (a.no < b.no))

/-- A query's waiting requests are withdrawn and its held leave is released; a sort unit keeps its leave until it is
idle (R568). A cluster's request goes once none of the items that wait for it is left (R567). -/
def State.dropLeave (s : State) (t : Tag) : State :=
  let there (n : Nat) : Bool := s.disp.items.any fun i => i.id == n
  let unit (l : Leave) : Bool := match l.op with
    | .sortUnit _ _ => true
    | _ => false
  { s with power := { s.power with
    queue := sortBy leaveLt ((s.power.queue.filter fun (l : Leave) =>
      leaveQuery l.op != some t && (l.items.isEmpty || l.items.any there)).map s.leaveLeft)
    held := s.power.held.filter fun (l : Leave) => unit l || leaveQuery l.op != some t } }

/-! ### EXCHANGEs of a query (10 R329) -/

/-- A participant that enters STOPPING sends STOP to every other participant. -/
def State.stopExchanges (s : State) (t : Tag) : State :=
  forEach s.pair.xchs s fun s x =>
    if x.query = t && 1 < x.nodes.length then
      forEach x.nodes s fun s n => if n = s.srcNode then s else s.sendNode n 0x22 x.xid (2 :: zeros 15)
    else s

/-- The XIDs of a query that is DONE are free. -/
def State.dropExchanges (s : State) (t : Tag) : State :=
  let gone := (s.pair.xchs.filter (·.query == t)).map (·.xid)
  { s with pair := { s.pair with
    xchs := s.pair.xchs.filter (·.query != t)
    early := s.pair.early.filter fun e => !gone.contains e.1.1 } }

/-! ### DONE -/

/-- RESULT of a query's completion (05 R165). -/
def Query.result (q : Query) : BitVec 64 :=
  if q.qid.isNone && q.reason != 0 then BitVec.ofNat 64 (q.index.toNat + 65536 * q.reason.toNat)
  else BitVec.ofNat 64 ((q.chains.head?.elim 0 (·.bytes)) % 2 ^ 48)

/-- Operators of a query's image. -/
def Query.nOps (q : Query) : Nat := (q.image.map (·.ops.length)).getD 0

/-- The accounting record of a query (20 R596). -/
def Query.account (q : Query) : Account where
  tag := q.tag
  state := BitVec.ofNat 8 q.st.code
  status := q.cswStatus
  fetched := q.fetched
  finished := q.finished
  totals := q.totals
  overflows := (List.range q.nOps).map fun k => q.overflows.get (BitVec.ofNat 16 k) 0

/-- The head sends CLOSE down the line for every CTAG a query holds, and frees it (11 R368). -/
def State.closeCascade (s : State) (t : Tag) : State :=
  let mine := s.asa.ctags.filter fun e => e.2.query == some t
  let s := forEach mine s fun s e =>
    s.sendLink Config.cascadeDown 0x29 e.2.casId
      ([2, e.1.setWidth 8, s.asa.casPos.setWidth 8] ++ zeros 13)
  let gone (c : BitVec 4) : Bool := mine.any fun e => e.1 == c
  { s with asa := { s.asa with
    ctags := s.asa.ctags.filter fun e => e.2.query != some t
    known := s.asa.known.filter fun k => !gone k.ctag
    slots := s.asa.slots.map fun k => if gone k.ctag then { k with live := false } else k } }

/-- The pods of a query that has ended are CLEARING: every slot is invalid to a search from now on (11 R346, R348). -/
def State.releasePods (s : State) (t : Tag) : State :=
  { s with asa := { s.asa with pods := s.asa.pods.mapVals fun _ p =>
      match p.owner with
      | some o => if o.1 = t && p.st != .free then
          { p with st := .clearing, owner := none, slots := p.slots.mapVals fun _ x => { x with valid := false }, reload := [] }
          else p
      | none => p } }

/-- The waits for pages that belong to a query itself: none outlives it, since its tag may name another (03 R67; 15 R458). -/
def State.dropQueryWaits (s : State) (t : Tag) : State :=
  s.dropWaiters fun w => match w with
    | .query u => u == t
    | .chainLink u _ => u == t
    | _ => false

/-- A query enters DONE with a status: its items, flows, streams, pods and spill areas go (05 R168, 06 R214, 15 R463), at the entry of
DONE where R164 holds them to DONE and the table's last row releases when the completion is written (DESIGN CHOICE, log 268); an
accounting record stays (20 R596). -/
def State.queryClose (s : State) (t : Tag) (status : BitVec 15) : State :=
  let s := (s.closeTotals fun i => i.query == t).removeItems fun i => i.query == t
  let s := s.modQuery t fun q => { q with st := .done, status := status, finished := s.time, staged := 0, raw := none }
  let s := { s with
    streams := s.streams.filter fun e => e.1.query != t
    ops := s.ops.mapVals fun k c => if k.1 = t then { c with spill := 0, lsUnits := 0 } else c
    disp := { s.disp with flows := s.disp.flows.filter fun e => e.1.1 != t } }
  let s := ((((s.closeCascade t).releasePods t).dropLeave t).dropExchanges t).dropQueryWaits t
  match s.query? t with
  | none => s
  | some q => s.modInst t.inst fun v =>
      let l := v.accounts ++ [q.account]
      { v with accounts := l.drop (l.length - 64) }

/-- The completion of a query in DONE becomes ready, unless its CSW is still to be written (05 R168, 15 R456). -/
def State.completeQuery (s : State) (t : Tag) : State :=
  match s.query? t with
  | some q => if q.st == .done && !s.waitsFor (.csw t) then s.finish t q.status q.result else s
  | none => s

/-- A query reaches DONE: its contexts go, the CSW is written and the completion becomes ready. -/
def State.queryDone (s : State) (t : Tag) (status : BitVec 15) : State :=
  ((s.queryClose t status).emitCsw t).completeQuery t

/-- A query is stopped by an event with its status (05 R168, R169): from RUNNING or PAUSED it enters STOPPING, from
VALIDATING or WAITING it goes to DONE; later events change nothing. -/
def State.stopQueryAt (s : State) (t : Tag) (status : BitVec 15) (reason index : BitVec 16) : State :=
  match s.query? t with
  | none => s
  | some q =>
    match q.st with
    | .running | .paused =>
      (((((s.modQuery t fun q => { q with st := .stopping, status := status, reason := reason, index := index }).withdraw
        t).closeCascade t).dropLeave t).stopExchanges t).emitCsw t
    | .validating | .waiting =>
      (s.modQuery t fun q => { q with reason := reason, index := index }).queryDone t status
    | .stopping | .done => s

def State.stopQuery (s : State) (t : Tag) (status : BitVec 15) : State := s.stopQueryAt t status 0 0xFFFF

/-- The place of a status in the precedence of events that fall in one decision (05 R169). -/
def stopRank (status : BitVec 15) : Nat :=
  [stAbortedByReset, stAborted, stIntegrity, stDataLost, stPageFault, stOutputLimit, stQuota, stFieldInvalid,
    stDeadlineMissed].findIdx (· == status)

/-- Of several events that would stop a query in one decision, the one that does (05 R169): status, reason, index. -/
def firstStop : List (BitVec 15 × BitVec 16 × BitVec 16) → Option (BitVec 15 × BitVec 16 × BitVec 16)
  | [] => none
  | e :: r => match firstStop r with
    | some f => if stopRank f.1 < stopRank e.1 then some f else some e
    | none => some e

/-- A completion with DONE released the query's contexts, its snapshot and its resolved image (05 R168). -/
def State.dropQuery (s : State) (t : Tag) : State :=
  let s := (s.dropQueryWaits t).unwait (.csw t)
  State.gcSegs { s with
    queries := s.queries.filter fun q => q.tag != t
    ops := s.ops.filter fun e => e.1.1 != t }

/-! ### Deadlines (05 R179, 07 R237) -/

/-- The cascaded images of a query. -/
def Image.cascades (im : Image) : List (Nat × BitVec 32) :=
  im.asas.zipIdx.filterMap fun e => if e.1.cascade then some (e.2, e.1.casId) else none

/-- Time base counts since a query's fetch reach its deadline: 25 counts a microsecond. -/
def State.deadlineFallen (s : State) (q : Query) : Bool :=
  q.deadline != 0 && decide (25 * q.deadline.toNat ≤ (s.time - q.fetched).toNat)

/-- The operators that write chains. -/
def Image.outputs (im : Image) : List Nat := (im.ops.zipIdx.filter fun e => e.1.chain != 0xFF).map (·.2)

/-- Whether a member still waits for the CLOSE of an image (11 R368). -/
def State.awaitsClose (s : State) (q : Query) (im : Image) : Bool :=
  s.asa.casEn && s.asa.casPos != 0 && im.cascades.any fun e => !(q.closes.contains (BitVec.ofNat 8 e.1))

/-- Whether a RUNNING query has no output operator left that has not ended, nor a CLOSE to wait for. -/
def State.outputsOver (s : State) (q : Query) : Bool :=
  q.st == .running && q.image.any fun im =>
    (im.outputs.all fun k => (s.op? q.tag (BitVec.ofNat 16 k)).any (·.ended)) && !s.awaitsClose q im

/-- A finish after the deadline (05 R179). -/
def State.deadlinePassed (s : State) (q : Query) : Bool :=
  q.deadline != 0 && decide (25 * q.deadline.toNat < (s.time - q.fetched).toNat)

/-- One comparison of a query's clock with its deadline; the miss stops it, or ends it where its last output operator has
ended (R237). -/
def State.deadlineCheck (s : State) (t : Tag) : State :=
  match s.query? t with
  | none => s
  | some q =>
    if s.deadlineFallen q then
      if s.outputsOver q then s.queryDone t stDeadlineMissed else s.stopQuery t stDeadlineMissed
    else s

/-! ### Catching a command (04 R141, 05 R170, 03 R106) -/

/-- The writes a FLUSH noted at its fetch that are not yet durable (04 R128). -/
def State.flushLeft (s : State) (t : Tag) : List Nat :=
  (s.store.flushes.get t []).filter fun n =>
    s.store.writes.any fun w => w.no == n && w.phase == .committed && !(w.localDurable && w.partnerDurable)

/-- Whether a command's outcome is still open, so that it can be caught or stopped; a FLUSH until its condition holds (04 R141). -/
def State.canCatch (s : State) (c : Cmd) : Bool :=
  if c.stage == .finished then false
  else if [0x40, 0x41, 0x48, 0x49, 0x4B].contains c.opcode then
    !(s.store.writes.any fun w => w.tag == some c.tag && w.phase != .built && w.phase != .admitting)
  else if c.opcode = 0x4C then !(s.flushLeft c.tag).isEmpty
  else if [0x4A, 0x50].contains c.opcode then true
  else if c.opcode = 0x52 then
    match s.query? c.tag with
    | some q => q.st == .validating || q.st == .waiting || q.st == .running || q.st == .paused
    | none => true
  else false

/-- A command that can be caught is stopped with a status: a query is stopped, any other command has no effect and
finishes (04 R142). -/
def State.catchCmd (s : State) (c : Cmd) (status : BitVec 15) : State :=
  match (if c.opcode = 0x52 then s.query? c.tag else none) with
  | some _ => s.stopQuery c.tag status
  | none =>
    (State.gcSegs { s with store := { s.store with
        writes := s.store.writes.filter fun w => w.tag != some c.tag } }).finish c.tag status 0

end Sys2Proof.Machine
end

