-- ==== Sys2Proof/Machine/Faults.lean ====
section
/-! DEFINITION. Translation faults of host memory (15 R449-R458): page requests, their limits and their endings,
shared by every command that reaches host memory, and the commands of the translation interface. -/

namespace Sys2Proof.Machine

/-! ### A page request and its waiters -/

/-- The address at which a page starts. -/
def pageAddr (p : BitVec 52) : BitVec 64 := p.setWidth 64 <<< 12

/-- An item parks on a cause: it leaves its runner with its progress kept (07 R219, R234). -/
def State.parkItem (s : State) (n : Nat) (cause : ParkCause) (lastStop : BitVec 8) : State :=
  let s := s.modItem n fun i => { i with st := .parked, cause := some cause, lastStop := lastStop, since := s.time }
  { s with disp := { s.disp with
    runners := s.disp.runners.mapVals fun _ r => { r with running := r.running.filter (· ≠ n) } } }

/-- What a waiter does when its page request cannot be resolved (15 R456). A query that has been stopped keeps the status of the event
that stopped it (05 R169; 04 R143), one that ended well ends with PAGE_FAULT_UNRESOLVED. -/
def State.unresolved (s : State) (w : Waiter) : State :=
  match w with
  | .sqFetch i q => s.raiseInst 515 i (q.setWidth 64) 0
  | .cqWrite i q =>
    let s := match s.cq i q with
      | some c => s.setCq i q { c with faulted := true }
      | none => s
    s.raiseInst 516 i (q.setWidth 64) 0
  | .cmd t => s.finish t stPageFault 0
  | .query t => s.stopQuery t stPageFault
  | .csw t =>
    let s := s.modQuery t fun q => { q with noCsw := true, cswHeld := [] }
    match s.query? t with
    | some q =>
      if q.st == .done then
        if q.status = stOk then (s.modQuery t fun q => { q with status := stPageFault }).finish t stPageFault q.result
        else s.finish t q.status q.result
      else s.stopQuery t stPageFault
    | none => s
  | .item n =>
    match s.item? n with
    | some i => s.stopQuery i.query stPageFault
    | none => s
  | .chainLink t _ => s.stopQuery t stPageFault

/-- Page requests outstanding of a function, and of a port. -/
def State.reqsOf (s : State) (i : BitVec 8) : Nat := (s.xlat.reqs.filter (·.key.inst == i)).length
def State.reqsOnPort (s : State) (i : BitVec 8) : Nat :=
  (s.xlat.reqs.filter fun r => instPort r.key.inst == instPort i).length

/-- Whether a further page request may be issued for a function (15 R451). -/
def State.mayRequest (s : State) (i : BitVec 8) : Bool :=
  decide (s.reqsOf i < min (s.fn i).alloc.toNat 512) && decide (s.reqsOnPort i < 512)

/-- Waiters of a fault join the requests: one request for each key (15 R451). -/
def State.joinRequest (s : State) (k : PageKey) (w : Waiter) : State :=
  let add (l : List PageReq) : List PageReq :=
    l.map fun r => if r.key = k then { r with waiters := r.waiters ++ [w] } else r
  if s.xlat.reqs.any (·.key == k) then { s with xlat := { s.xlat with reqs := add s.xlat.reqs } }
  else if s.xlat.waiting.any (·.key == k) then { s with xlat := { s.xlat with waiting := add s.xlat.waiting } }
  else if s.mayRequest k.inst then
    ({ s with xlat := { s.xlat with reqs := s.xlat.reqs ++ [(⟨k, [w], s.time⟩ : PageReq)] } }).emit (.pageRequest k)
  else { s with xlat := { s.xlat with waiting := s.xlat.waiting ++ [(⟨k, [w], s.time⟩ : PageReq)] } }

/-- Whether a fault is unresolved at once: PRI gives no page request, or it is the third consecutive fault there (15 R450-R452). -/
def State.faultFails (s : State) (k : PageKey) : Bool :=
  !(s.fn k.inst).pri || (s.fn k.inst).priBlocked || (s.fn k.inst).alloc == 0 || decide (2 ≤ s.xlat.faults.get k 0)

/-- A fault of a function's access: a page request with the waiter, or unresolved at once when PRI gives none, or on
the third consecutive fault (15 R450-R452). -/
def State.hostFault (s : State) (i : BitVec 8) (pasid : Option (BitVec 20)) (page : BitVec 64) (write : Bool)
    (w : Waiter) : State :=
  let f := s.fn i
  let k : PageKey := { inst := i, pasid := pasid, page := pageOf page, write := write }
  if !f.pri || f.priBlocked || f.alloc == 0 then s.unresolved w
  else
    let n := s.xlat.faults.get k 0
    if 2 ≤ n then
      ({ s with xlat := { s.xlat with faults := s.xlat.faults.erase k } }).unresolved w
    else s.joinRequest k w

/-- What a read means under ATS: with ATS disabled no translation fault is seen, and a faulting read is lost (15
R449, R454). -/
def State.readOf (s : State) (i : BitVec 8) (r : HostRead) : HostRead :=
  match r with
  | .fault p => if (s.fn i).ats then .fault p else .lost
  | r => r

/-- What a write means under ATS: with ATS disabled a fault is not seen (15 R454). -/
def State.accOf (s : State) (i : BitVec 8) (a : HostAcc) : HostAcc :=
  match a with
  | .fault p => if (s.fn i).ats then .fault p else .ok
  | .ok => .ok

/-- A read of a command's host buffer: the meaning goes on with the data; a fault makes the command wait, no data at
all fails it (15 R454-R456). Data of another length than was read is no read: nothing happens. -/
def State.withRead (s : State) (t : Tag) (pasid : Option (BitVec 20)) (addr : BitVec 64) (len : Nat) (r : HostRead)
    (k : Bytes → State → State) : State :=
  match s.readOf t.inst r with
  | .data bs => if bs.length = len then k bs (s.accessed t.inst pasid addr len false) else s
  | .fault p => s.hostFault t.inst pasid p false (.cmd t)
  | .lost => s.unresolved (.cmd t)

/-- A write of a command's host buffer: done, or the command waits on the fault (15 R455, R456); what lies below the
faulting page has been written (R455). -/
def State.withWrite (s : State) (t : Tag) (pasid : Option (BitVec 20)) (addr : BitVec 64) (bs : Bytes) (a : HostAcc)
    (k : State → State) : State :=
  match s.accOf t.inst a with
  | .ok => k (s.dataWrite t.inst pasid addr bs)
  | .fault p =>
    let below := bs.take (p.toNat - addr.toNat)
    let s := if below.isEmpty then s else s.sendData t.inst pasid addr below
    s.hostFault t.inst pasid p true (.cmd t)

/-- The CSW is written, its translation given: a fault holds everything after it (15 R456). -/
def State.writeCsw (s : State) (t : Tag) (a : HostAcc) : State :=
  match s.query? t with
  | none => s
  | some q =>
    match s.accOf t.inst a with
    | .ok => s.emitCsw t
    | .fault p =>
      if q.noCsw then s
      else if s.waitsFor (.csw t) then s.holdCsw t
      else (s.holdCsw t).hostFault t.inst q.pasid p true (.csw t)

/-- CHAIN_END of a query (20 R584). -/
def State.cswEvent (s : State) (t : Tag) (mask : BitVec 64) : State :=
  s.raiseInst 514 t.inst (BitVec.ofNat 64 (t.sqid.toNat + 65536 * t.cid.toNat)) mask

/-- The CSWs held are written in their order, each with the event that follows it (05 R173; 15 R456). -/
def State.flushCsw (s : State) (t : Tag) : State :=
  match s.query? t with
  | none => s
  | some q =>
    forEach q.cswHeld (s.modQuery t fun q => { q with cswHeld := [] }) fun s h =>
      let s := s.orderedWrite t.inst q.pasid q.cswAddr h.1
      match h.2 with
      | some m => s.cswEvent t m
      | none => s

/-! ### Endings of a request -/

/-- A parked item returns to the head of its level: last of the returned part (07 R225, R234); the deadline is compared (R237). -/
def State.unparkItem (s : State) (n : Nat) (total : Nat) : State :=
  match s.item? n with
  | none => s
  | some i =>
    if i.st == .parked then
      let s := s.addTotal i.query total (s.time - i.since)
      let s := s.modItem n fun i => { i with st := .ready, cause := none, since := s.time }
      let s := { s with disp := { s.disp with returned := s.disp.returned ++ [n] } }
      s.deadlineCheck i.query
    else s

/-- What a waiter does on success (15 R452, R456): a fetch starts a new scan, a CQ is written again, an item returns,
a CSW is written; a command or a validation translates again when its read is made again; LINK is read again where the chain still
waits at END for it (05 R175). -/
def State.resolved (s : State) (w : Waiter) : State :=
  match w with
  | .sqFetch i q =>
    match s.sq i q with
    | some v => if v.st == .active then s.setSq i q { v with scanDue := true } else s
    | none => s
  | .cqWrite _ _ => s
  | .cmd _ => s
  | .query _ => s
  | .csw t => (s.flushCsw t).completeQuery t
  | .item n => s.unparkItem n 3
  | .chainLink t c => s.modQuery t fun q =>
      { q with chains := q.chains.modify c.toNat fun c =>
          if c.linkWait then { c with linkWait := false, linkDue := true } else c }

/-- Requests that waited for a free place are issued while the limits let them (15 R451). -/
def State.issueWaiting (s : State) : State :=
  forEach s.xlat.waiting s fun s r =>
    if s.mayRequest r.key.inst then
      ({ s with xlat := { s.xlat with
          waiting := s.xlat.waiting.filter (·.key ≠ r.key), reqs := s.xlat.reqs ++ [{ r with since := s.time }] } }).emit (.pageRequest r.key)
    else s

/-- A request leaves the list. -/
def State.dropReq (s : State) (k : PageKey) : State :=
  { s with xlat := { s.xlat with reqs := s.xlat.reqs.filter (·.key ≠ k) } }

/-- Every request of a function, outstanding or waiting, is unresolved (15 R452). -/
def State.failRequests (s : State) (i : BitVec 8) : State :=
  let mine := (s.xlat.reqs ++ s.xlat.waiting).filter (·.key.inst == i)
  let s := { s with xlat := { s.xlat with
    reqs := s.xlat.reqs.filter (·.key.inst != i), waiting := s.xlat.waiting.filter (·.key.inst != i) } }
  forEach mine s fun s r => forEach r.waiters s State.unresolved

/-- The function's requests, waits and ATC entries go without any report (17 R514, 15 R453). -/
def State.dropRequests (s : State) (i : BitVec 8) : State :=
  { s with xlat := { s.xlat with
    reqs := s.xlat.reqs.filter (·.key.inst != i)
    waiting := s.xlat.waiting.filter (·.key.inst != i)
    faults := s.xlat.faults.filter fun e => e.1.inst != i
    lastData := s.xlat.lastData.filter fun e => e.1.1 != i
    atc := s.xlat.atc.filter fun e => e.1 != i } }

/-- PAGE_REQUEST_RESPONSE (15 R452): a Page Request Group Response ends its request. -/
def execPageRequestResponse (k : PageKey) (a : PageAnswer) (s : State) : Host.Outcome State Fault Refusal :=
  match (if s.xlat.late.contains k then none else s.xlat.reqs.find? (·.key == k)) with
  | none => .next { s with xlat := { s.xlat with late := s.xlat.late.filter (· ≠ k) } }
  | some r =>
    let s1 := s.dropReq k
    match a with
    | .success =>
      let s2 := { s1 with xlat := { s1.xlat with faults := s1.xlat.faults.insert k (s1.xlat.faults.get k 0 + 1) } }
      .next (forEach r.waiters s2 State.resolved).issueWaiting
    | .invalidRequest => .next (forEach r.waiters s1 State.unresolved).issueWaiting
    | .responseFailure =>
      let s2 := forEach r.waiters s1 State.unresolved
      .next ((s2.modFn k.inst fun f => { f with priBlocked := true }).failRequests k.inst).issueWaiting

/-- PRI_TIMEOUT (15 R452): no response within the instance's PRI_TIMEOUT, in ms: unresolved, the event PRI_TIMEOUT is raised, and a late
response is discarded. -/
def execPriTimeout (k : PageKey) (s : State) : Host.Outcome State Fault Refusal :=
  match s.xlat.reqs.find? fun r => r.key == k && s.passed r.since (25000 * (s.inst k.inst).priTimeout.toNat) with
  | none => .next s
  | some r =>
    let s1 := s.dropReq k
    let s2 := forEach r.waiters { s1 with xlat := { s1.xlat with late := k :: s1.xlat.late } } State.unresolved
    let d0 : BitVec 64 := match k.pasid with
      | some p => p.setWidth 64 ||| 0x100000
      | none => 0
    .next (s2.raiseInst 517 k.inst d0 (pageAddr k.page)).issueWaiting

/-- ATS_INVALIDATE_REQUEST (15 R453): the matching ATC entries are dropped and the Invalidation Completion sent. -/
def execAtsInvalidateRequest (inst : BitVec 8) (pasid : Option (BitVec 20)) (page : BitVec 52) (s : State) :
    Host.Outcome State Fault Refusal :=
  .next ({ s with xlat := { s.xlat with
      atc := s.xlat.atc.filter fun e => e ≠ (inst, pasid, page) } }.emit (.invalidated inst pasid page))

/-- The PRI Stopped bit of a function (15 R450). -/
def State.priStopped (s : State) (i : BitVec 8) : Bool := !(s.fn i).pri && !(s.xlat.reqs.any (·.key.inst == i))

/-- PRI_ENABLE_CLEAR (15 R450): no further page request is issued for the function. -/
def execPriEnableClear (inst : BitVec 8) (s : State) : Host.Outcome State Fault Refusal :=
  let s1 := s.modFn inst fun f => { f with pri := false }
  let wait := s1.xlat.waiting.filter (·.key.inst == inst)
  let s2 := { s1 with xlat := { s1.xlat with waiting := s1.xlat.waiting.filter (·.key.inst != inst) } }
  .next (forEach wait s2 fun s r => forEach r.waiters s State.unresolved)

/-- PRI_ENABLE_SET (15 R452): page requests may be issued again; where PRI Enable had been cleared first, after a
Response Failure too. -/
def execPriEnableSet (inst : BitVec 8) (s : State) : Host.Outcome State Fault Refusal :=
  .next ((s.modFn inst fun f => { f with pri := true, priBlocked := f.priBlocked && f.pri }).issueWaiting)

/-- ATS_ENABLE_CLEAR (15 R453): every ATC entry of the function is dropped. -/
def execAtsEnableClear (inst : BitVec 8) (s : State) : Host.Outcome State Fault Refusal :=
  let s1 := s.modFn inst fun f => { f with ats := false }
  .next { s1 with xlat := { s1.xlat with atc := s1.xlat.atc.filter fun e => e.1 != inst } }

/-- OUTSTANDING_PAGE_REQUEST_ALLOCATION (15 R451): host software writes the function's allocation. -/
def execOutstandingPageRequestAllocation (inst : BitVec 8) (n : BitVec 32) (s : State) :
    Host.Outcome State Fault Refusal :=
  .next ((s.modFn inst fun f => { f with alloc := n }).issueWaiting)

end Sys2Proof.Machine
end

