-- ==== Sys2Proof/Machine/Queues.lean ====
section
/-! DEFINITION. The meanings of the queue commands, the doorbells, the fetch scan and the posting of completions (03;
17 R512, R521; 21 R626, R637). -/

namespace Sys2Proof.Machine

/-! ### Fetching -/

/-- OWN and SEQ say that the engine owns an entry in slot i on pass p (03 R69). -/
def owned (q : Sq) (e : BitVec 512) : Bool :=
  (e.getLsbD 0 == decide (q.pass % 2 = 0)) && ef e 4 2 == (q.pass * q.size + q.head) % 65536

/-- The reason an owned entry is malformed, the lowest that holds (03 R92). -/
def State.malformed (s : State) (inst : BitVec 8) (sqid : BitVec 12) (e : BitVec 512) : Option (BitVec 4) :=
  let op := ef e 1 1
  if bits (ef e 0 1) 7 4 ≠ 0 || ef e 6 2 ≠ 0 then some 1
  else if !(if sqid = 0 then adminOpcodes else ioOpcodes).contains op then some 2
  else if bit (ef e 0 1) 1 && bit (ef e 0 1) 2 then some 3
  else if s.rings.cmds.any fun c => c.tag == ⟨inst, sqid, BitVec.ofNat 16 (ef e 2 2)⟩ then some 4
  else none

/-- The batch an entry joins on its SQ, and the state with it (03 R86). -/
def State.joinBatch (s : State) (inst : BitVec 8) (sqid : BitVec 12) (q : Sq) (cid : BitVec 16) (nc close : Bool) :
    State × Option Nat :=
  if !nc && !close then (s, none)
  else
    let found := q.openBatch.bind s.batch?
    let n := s.rings.nextBatch
    let b : Batch := found.getD { no := n, inst := inst, sqid := sqid, members := [], total := 0, closed := false, closing := 0,
                                  closingStatus := stOk, lastNc := none, ok := 0, failed := 0, failures := [], afters := [] }
    let s := if found.isSome then s else { s with rings := { s.rings with nextBatch := n + 1 } }
    (s.setBatch { b with
      members := b.members ++ [cid], total := b.total + 1, failures := b.failures.filter (·.1 ≠ cid)
      lastNc := if nc then some cid else b.lastNc
      closed := close, closing := if close then cid else b.closing }, some b.no)

/-- Writes of an instance whose completions have become ready here and that are not yet durable (04 R128). -/
def State.undurable (s : State) (inst : BitVec 8) : List Nat :=
  (s.store.writes.filter fun w =>
    w.inst == inst && w.completed && w.tag.isSome && !(w.localDurable && w.partnerDurable)).map (·.no)

/-- One owned entry is fetched and the head advances (03 R69, R76); a FLUSH notes the writes it covers (04 R128), an
FW_ACTIVATE whether an activation is in progress (20 R608). -/
def State.fetchEntry (s : State) (inst : BitVec 8) (sqid : BitVec 12) (q : Sq) (e : BitVec 512) : State :=
  let cid := BitVec.ofNat 16 (ef e 2 2)
  let t : Tag := ⟨inst, sqid, cid⟩
  let nc := e.getLsbD 1
  let close := e.getLsbD 2
  let j := s.joinBatch inst sqid q cid nc close
  let s := j.1
  let b := j.2
  let wrap : Bool := decide (q.size ≤ q.head + 1)
  let q := { q with
    head := if wrap then 0 else q.head + 1
    pass := if wrap then q.pass + 1 else q.pass
    openBatch := if close then none else if nc then b else q.openBatch
    tokens := if (s.inst inst).fetchRate != 0 && sqid != 0 then q.tokens - 1 else q.tokens }
  let s := s.setSq inst sqid q
  let s := { s with rings := { s.rings with
    cmds := s.rings.cmds ++ [(⟨t, e, .fetched, s.rings.nextCmd, s.time, b, none⟩ : Cmd)], nextCmd := s.rings.nextCmd + 1 } }
  if ef e 1 1 = 0x4C then
    { s with store := { s.store with flushes := s.store.flushes.insert t (s.undurable inst) } }
  else if ef e 1 1 = 0x11 && s.fw.act.isSome then { s with fw := { s.fw with late := t :: s.fw.late } }
  else s

/-- A malformed entry in the head slot: latched, reported, and the SQ enters ERROR (03 R93, R94). Where it ends an open batch whose entries
have all finished, the batch's completion becomes ready first (DESIGN CHOICE, log 267). -/
def State.malformedEntry (s : State) (inst : BitVec 8) (sqid : BitVec 12) (q : Sq) (e : BitVec 512)
    (reason : BitVec 4) : State :=
  let s := s.setSq inst sqid { q with
    st := .error, scanDue := false, scanning := false, latchSlot := BitVec.ofNat 16 q.head, latchReason := reason }
  let s := if sqid = 0 then s.modFn inst fun f => { f with admSlot := BitVec.ofNat 16 q.head, admReason := reason } else s
  (s.closeBatch inst sqid).pushCpl inst
    { sqid := sqid, cid := BitVec.ofNat 16 (ef e 2 2), status := stQueueMalformed,
      result := BitVec.ofNat 64 (q.head + 65536 * reason.toNat), batch := false,
      sqhead := some (BitVec.ofNat 16 q.head), covers := [], after := [] }

/-- Whether the engine may fetch for an SQ now (03 R72, R95; 17 R515, R521; 04 R140; 20 R591). -/
def State.mayFetch (s : State) (inst : BitVec 8) (sqid : BitVec 12) (q : Sq) : Bool :=
  s.ready && (s.inst inst).st == .serving && (s.fn inst).bme && !(s.fn inst).d3hot && q.st == .active &&
  !s.glb.fetchPaused && !s.waitsFor (.sqFetch inst sqid) && !(s.pair.role == .fenced && sqid != 0)

/-- A scan over the reads of successive slots from the head (03 R72, R77): it ends at an entry that is not owned, a
malformed one, a fault, or an empty token bucket (17 R512), where it waits. -/
def State.scan (s : State) (inst : BitVec 8) (sqid : BitVec 12) : List SqRead → State
  | [] => s
  | r :: rest =>
    match s.sq inst sqid with
    | none => s
    | some q =>
      let stop := s.setSq inst sqid { q with scanning := false }
      match r with
      | .fault p =>
        if (s.fn inst).ats then stop.hostFault inst q.pasid p false (.sqFetch inst sqid)
        else stop.unresolved (.sqFetch inst sqid)
      | .lost => stop.unresolved (.sqFetch inst sqid)
      | .entry e =>
        let s := s.accessed inst q.pasid (q.base + BitVec.ofNat 64 (64 * q.head)) 64 false
        let stop := s.setSq inst sqid { q with scanning := false }
        if !owned q e then stop
        else match s.malformed inst sqid e with
          | some reason => s.malformedEntry inst sqid q e reason
          | none =>
            if (s.inst inst).fetchRate != 0 && sqid != 0 && q.tokens == 0 then s
            else (s.fetchEntry inst sqid q e).scan inst sqid rest

/-- Whether an SQ's pending scan can be served now: it may fetch, and its bucket holds a token (17 R512). -/
def State.scanPending (s : State) (inst : BitVec 8) (sqid : BitVec 12) (q : Sq) : Bool :=
  s.mayFetch inst sqid q && (q.scanning || q.scanDue) && !((s.inst inst).fetchRate != 0 && sqid != 0 && q.tokens == 0)

/-- SQs with scans pending are served round-robin (R76): one that has had its turn in the present round waits while another has
not. -/
def State.scanTurn (s : State) (inst : BitVec 8) (sqid : BitVec 12) : Bool :=
  !(s.rings.served.contains (inst, sqid)) ||
  !(s.rings.sqs.any fun e => e.1 != (inst, sqid) && !(s.rings.served.contains e.1) && s.scanPending e.1.1 e.1.2 e.2)

/-- An SQ has had its turn; the first of a new round begins it. -/
def State.takeTurn (s : State) (inst : BitVec 8) (sqid : BitVec 12) : State :=
  { s with rings := { s.rings with
    served := if s.rings.served.contains (inst, sqid) then [(inst, sqid)] else (inst, sqid) :: s.rings.served } }

/-- SQ_SCAN (R72, R76): a scan from the head over what the reads of the slots return, when it is the SQ's turn. A doorbell that
comes meanwhile causes one further scan (R73). -/
def execSqScan (inst : BitVec 8) (sqid : BitVec 12) (reads : List SqRead) (s : State) :
    Host.Outcome State Fault Refusal :=
  match s.sq inst sqid with
  | none => .next s
  | some q =>
    if s.mayFetch inst sqid q && (q.scanning || q.scanDue) && s.scanTurn inst sqid then
      let s := s.takeTurn inst sqid
      let q' := if q.scanning then q else { q with scanning := true, scanDue := false }
      .next ((s.setSq inst sqid q').scan inst sqid reads)
    else .next s

/-- FETCH_TOKEN (17 R512): one token accrues to an SQ's bucket of 16. -/
def execFetchToken (inst : BitVec 8) (sqid : BitVec 12) (s : State) : Host.Outcome State Fault Refusal :=
  match s.sq inst sqid with
  | none => .next s
  | some q =>
    if (s.inst inst).fetchRate != 0 && sqid != 0 then
      .next (s.setSq inst sqid { q with tokens := min fullTokens (q.tokens + 1) })
    else .next s

/-! ### Posting completions -/

/-- Whether a ready completion may be written now: the tags it follows have ended, or end with it (04 R143), and no write that comes
before it waits (15 R456). -/
def State.postable (s : State) (inst : BitVec 8) (c : Cpl) : Bool :=
  c.after.all (fun t => (s.cmd? t).isNone || (t.inst == inst && t.sqid == c.sqid && c.covers.contains t.cid)) &&
  !(c.covers.any fun cid => s.waitsFor (.csw ⟨inst, c.sqid, cid⟩))

/-- Whether completions of a function may be written now (17 R513-R521, 20 R591). -/
def State.mayPost (s : State) (inst : BitVec 8) : Bool :=
  s.ready && ((s.inst inst).st == .serving || (s.inst inst).st == .quiescing) && (s.fn inst).bme &&
  !(s.fn inst).d3hot

/-- An instance that is QUIESCING with nothing left enters QUIET and its QUIESCE completes (17 R513, R515). -/
def State.quiesceCheck (s : State) (inst : BitVec 8) : State :=
  let v := s.inst inst
  if v.st == .quiescing && !(s.rings.cmds.any fun c => c.tag.inst == inst) &&
      !(s.rings.cqs.any fun e => e.1.1 == inst && !e.2.ready.isEmpty) then
    let s := s.setInst inst { v with st := .quiet, quiesce := none }
    match v.quiesce with
    | some t => s.finish t stOk (BitVec.ofNat 64 (v.discarded % 2 ^ 32))
    | none => s
  else s

/-- The tags a written completion covers are no longer outstanding; a query's contexts are released (R67, 05 R168). -/
def State.endTags (s : State) (inst : BitVec 8) (sqid : BitVec 12) (cids : List (BitVec 16)) : State :=
  forEach cids s fun s cid =>
    let t : Tag := ⟨inst, sqid, cid⟩
    let s := s.dropCmds fun c => c.tag == t
    match s.query? t with
    | some q => if q.st == .done then s.dropQuery t else s
    | none => s

/-- A completion is written into the next slot of its CQ (R79): the tags it covers end, a DRAINING SQ may be done, a
QUIESCING instance may be quiet, and the CQ's vector sees an occurrence (20 R587). -/
def State.post (s : State) (inst : BitVec 8) (cqid : BitVec 12) (cq : Cq) (c : Cpl) : State :=
  let head := match c.sqhead with
    | some h => h.toNat
    | none => ((s.sq inst c.sqid).map (·.head)).getD 0
  let wrap : Bool := decide (cq.size ≤ cq.tail + 1)
  let cq' := { cq with
    tail := if wrap then 0 else cq.tail + 1
    pass := if wrap then cq.pass + 1 else cq.pass
    unreturned := cq.unreturned + 1
    ready := cq.ready.erase c }
  let addr := cq.base + BitVec.ofNat 64 (16 * cq.tail)
  let s := (s.setCq inst cqid cq').orderedWrite inst cq.pasid addr (cqEntry c head (decide (cq.pass % 2 = 0)))
  let s := s.endTags inst c.sqid c.covers
  let s := if cq.ien then s.occur inst (cq.vector.setWidth 11) else s
  (s.drainCheck inst c.sqid).quiesceCheck inst

/-- COMPLETION_POST (R79, R83): the first ready completion that may be written is written, if the CQ is not full; a
write that faults holds every later completion of the CQ (15 R456). -/
def execCompletionPost (inst : BitVec 8) (cqid : BitVec 12) (acc : HostAcc) (s : State) :
    Host.Outcome State Fault Refusal :=
  match s.cq inst cqid with
  | none => .next s
  | some cq =>
    if s.mayPost inst && !cq.full && !cq.faulted && !s.waitsFor (.cqWrite inst cqid) then
      match cq.ready.find? (s.postable inst) with
      | none => .next s
      | some c =>
        match s.accOf inst acc with
        | .ok => .next (s.post inst cqid cq c)
        | .fault p => .next (s.hostFault inst cq.pasid p true (.cqWrite inst cqid))
    else .next s

/-- CQ_STALLED (R84): a CQ has stayed full, or held by a fault (15 R456), for 10 ms: the event, once for that
stall. -/
def execCqStalled (inst : BitVec 8) (cqid : BitVec 12) (s : State) : Host.Outcome State Fault Refusal :=
  match s.cq inst cqid with
  | none => .next s
  | some cq =>
    if (cq.full || cq.faulted || s.waitsFor (.cqWrite inst cqid)) && !cq.stallRaised && !(s.fn inst).d3hot then
      .next ((s.setCq inst cqid { cq with stallRaised := true }).raiseInst 512 inst (cqid.setWidth 64) 0)
    else .next s

/-! ### Doorbells -/

/-- The value a doorbell slot takes from a write (21 R637): none for a write to the high half. -/
def dbValue (w : DbWidth) (value : BitVec 64) : Option (BitVec 64) :=
  match w with
  | .full => some value
  | .low => some (value &&& 0xFFFFFFFF)
  | .high => none

/-- SQ_DOORBELL (R72, R73; 21 R637): a scan from the head is due; kept while Bus Master Enable is 0 (17 R521). -/
def State.ringSq (s : State) (inst : BitVec 8) (sqid : BitVec 12) (w : DbWidth) (value : BitVec 64) : State :=
  match dbValue w value, s.sq inst sqid with
  | some _, some q =>
    if s.ready && (s.inst inst).st == .serving && q.st == .active then
      (s.setSq inst sqid { q with scanDue := true })
    else s
  | _, _ => s

/-- SQ_DOORBELL. -/
def execSqDoorbell (inst : BitVec 8) (sqid : BitVec 12) (w : DbWidth) (value : BitVec 64) (s : State) : Host.Outcome State Fault Refusal :=
  .next (s.ringSq inst sqid w value)

/-- CQ_HEAD_DOORBELL (R81-R83): slots are returned; an invalid write raises CQ_HEAD_INVALID. -/
def State.ringCq (s : State) (inst : BitVec 8) (cqid : BitVec 12) (w : DbWidth) (value : BitVec 64) : State :=
  match dbValue w value, s.cq inst cqid with
  | some v, some cq =>
    if s.ready && (s.inst inst).st == .serving then
      let new := v.toNat % 65536
      let d := if new = cq.head && cq.full then cq.size else (new + cq.size - cq.head) % cq.size
      if new ≥ cq.size || d > cq.unreturned then (s.raiseInst 513 inst (cqid.setWidth 64) v)
      else
        (s.setCq inst cqid { cq with
          head := new, unreturned := cq.unreturned - d, faulted := false
          stallRaised := cq.stallRaised && d == 0 && !cq.faulted })
    else s
  | _, _ => s

/-- CQ_HEAD_DOORBELL. -/
def execCqHeadDoorbell (inst : BitVec 8) (cqid : BitVec 12) (w : DbWidth) (value : BitVec 64) (s : State) : Host.Outcome State Fault Refusal :=
  .next (s.ringCq inst cqid w value)

/-! ### The admin queue -/

def freshSq (base : BitVec 64) (pasid : Option (BitVec 20)) (log2 : Nat) (cqid : BitVec 12) : Sq where
  base := base
  pasid := pasid
  log2 := log2
  cqid := cqid
  head := 0
  pass := 0
  st := .active
  drain := none
  scanDue := false
  scanning := false
  latchSlot := 0
  latchReason := 0
  openBatch := none
  tokens := fullTokens

def freshCq (base : BitVec 64) (pasid : Option (BitVec 20)) (log2 : Nat) (vector : BitVec 16) (ien : Bool) : Cq where
  base := base
  pasid := pasid
  log2 := log2
  vector := vector
  ien := ien
  tail := 0
  pass := 0
  head := 0
  unreturned := 0
  ready := []
  stallRaised := false
  faulted := false

/-- RDY: the admin queues exist and the instance is SERVING (21 R626). -/
def State.admRdy (s : State) (inst : BitVec 8) : Bool := (s.sq inst 0).isSome && (s.inst inst).st == .serving

/-- The sizes of a write to ADM_CTRL, taken while EN and RDY are 0 (21 R625). -/
def State.admSizes (s : State) (inst : BitVec 8) (value : BitVec 32) : State :=
  if (s.fn inst).admEn || s.admRdy inst then s
  else s.modFn inst fun f => { f with sqLog2 := value.extractLsb' 8 4, cqLog2 := value.extractLsb' 16 4 }

/-- Whether a function's registers other than the GLB block are served (21 R621, 17 R499). -/
def State.served (s : State) (inst : BitVec 8) : Bool := s.ready && (s.fn inst).present

/-- ADM_CTRL_ENABLE (R99; 21 R626): a write of EN = 1; on an ABSENT instance EN = 1 has no effect (17 R502), and
the sizes are stored. -/
def State.admEnable (s : State) (inst : BitVec 8) (value : BitVec 32) : State :=
  if !s.served inst || s.admRdy inst || (s.sq inst 0).isSome then s
  else if (s.inst inst).st = .absent then s.admSizes inst value
  else
    let s := s.admSizes inst value
    let f := s.fn inst
    if f.sqLog2 == 0 || f.sqLog2.toNat > 12 || f.cqLog2 == 0 || f.cqLog2.toNat > 12 || f.admSqBase == 0 ||
        f.admCqBase == 0 then
      (s.setFn inst { f with admEn := false, cfgErr := true })
    else
      let s := s.setFn inst { f with admEn := true, cfgErr := false, admSlot := 0, admReason := 0 }
      if (s.inst inst).st == .serving then
        ((s.setCq inst 0 (freshCq f.admCqBase none f.cqLog2.toNat 0 true)).setSq inst 0
          (freshSq f.admSqBase none f.sqLog2.toNat 0))
      else s

/-- ADM_CTRL_ENABLE. -/
def execAdmCtrlEnable (inst : BitVec 8) (value : BitVec 32) (s : State) : Host.Outcome State Fault Refusal :=
  .next (s.admEnable inst value)

/-- ADM_CTRL_DISABLE (R100): a write of EN = 0: fetching of admin entries stops; the queues go with
ADMIN_QUEUE_DELETE. -/
def State.admDisable (s : State) (inst : BitVec 8) (value : BitVec 32) : State :=
  if !s.served inst then s
  else
    let s := s.admSizes inst value
    let s := s.modFn inst fun f => { f with admEn := false }
    (s.drainSq inst 0 .disable)

/-- ADM_CTRL_DISABLE. -/
def execAdmCtrlDisable (inst : BitVec 8) (value : BitVec 32) (s : State) : Host.Outcome State Fault Refusal :=
  .next (s.admDisable inst value)

/-- ADMIN_QUEUE_DELETE (R100): with every admin command of the old queues ended, both admin queues are deleted and
RDY reads 0. -/
def execAdminQueueDelete (inst : BitVec 8) (s : State) : Host.Outcome State Fault Refusal :=
  match s.sq inst 0 with
  | none => .next s
  | some q =>
    if q.drain == some .disable && !s.sqBusy inst 0 then
      .next ((((s.unwait (.sqFetch inst 0)).unwait (.cqWrite inst 0)).dropSq inst 0).dropCq inst 0)
    else .next s

/-! ### Queue commands (R101-R106) -/

/-- Reserved bits of a CREATE_SQ or CREATE_CQ body, and what R103 and 15 R447 refuse of both. -/
def State.createBad (s : State) (c : Cmd) (ienReserved : Bool) : Bool :=
  let qid := c.f 16 2
  let b20 := c.f 20 1
  !c.clean [(8, 8), (16, 4), (20, 1), (24, 4)] || bits b20 7 6 ≠ 0 || (ienReserved && bit b20 5) ||
  bits (c.f 24 4) 30 20 ≠ 0 || s.pvBad c 24 || qid = 0 || qid > 4095 || bits b20 4 0 < 1 || bits b20 4 0 > 16 ||
  c.f 8 8 % 4096 ≠ 0

/-- CREATE_SQ (R101, R103). -/
def execCreateSq (t : Tag) (s : State) : Host.Outcome State Fault Refusal :=
  s.opcode t 0x05 fun c s =>
    let qid := BitVec.ofNat 12 (c.f 16 2)
    let cqid := BitVec.ofNat 12 (c.f 18 2)
    if s.createBad c true || (s.sq t.inst qid).isSome || c.f 18 2 = 0 || c.f 18 2 > 4095 || (s.cq t.inst cqid).isNone then
      s.finish t stFieldInvalid 0
    else if (s.inst t.inst).sqLimit.toNat ≤ s.ioSqs t.inst then s.finish t stQuota 0
    else
      (s.setSq t.inst qid (freshSq (BitVec.ofNat 64 (c.f 8 8)) (pasidOf (c.f 24 4)) (bits (c.f 20 1) 4 0) cqid)).finish
        t stOk 0

/-- CREATE_CQ (R101, R103). -/
def execCreateCq (t : Tag) (s : State) : Host.Outcome State Fault Refusal :=
  s.opcode t 0x06 fun c s =>
    let qid := BitVec.ofNat 12 (c.f 16 2)
    let ien := bit (c.f 20 1) 5
    if s.createBad c false || (s.cq t.inst qid).isSome || (ien && decide (msixCount t.inst ≤ c.f 18 2)) then
      s.finish t stFieldInvalid 0
    else if (s.inst t.inst).cqLimit.toNat ≤ s.ioCqs t.inst then s.finish t stQuota 0
    else
      (s.setCq t.inst qid (freshCq (BitVec.ofNat 64 (c.f 8 8)) (pasidOf (c.f 24 4)) (bits (c.f 20 1) 4 0)
        (BitVec.ofNat 16 (c.f 18 2)) ien)).finish t stOk 0

/-- The commands of an SQ that a stop reaches end with ABORTED_BY_RESET (R96). -/
def State.stopCmds (s : State) (inst : BitVec 8) (sqid : BitVec 12) (stopped : List (BitVec 16)) : State :=
  forEach stopped s fun s cid =>
    match s.cmd? ⟨inst, sqid, cid⟩ with
    | some c => if s.canCatch c then s.catchCmd c stAbortedByReset else s
    | none => s

/-- RESET_QUEUE and DELETE_SQ up to the drain (R95, R96, R102, R103). -/
def State.drainCmd (s : State) (t : Tag) (c : Cmd) (d : Drain) (stopped : List (BitVec 16)) : State :=
  let qid := BitVec.ofNat 12 (c.f 16 2)
  match (if !c.clean [(16, 2)] || c.f 16 2 = 0 || c.f 16 2 > 4095 then none else s.sq t.inst qid) with
  | none => s.finish t stFieldInvalid 0
  | some q =>
    if q.st == .draining then
      if q.drain == some d then s else s.finish t stFieldInvalid 0
    else ((s.drainSq t.inst qid d).stopCmds t.inst qid stopped).drainCheck t.inst qid

/-- DELETE_SQ (R95, R102): the SQ drains, then is freed. -/
def execDeleteSq (t : Tag) (stopped : List (BitVec 16)) (s : State) : Host.Outcome State Fault Refusal :=
  s.opcode t 0x07 fun c s => s.drainCmd t c (.delete t) stopped

/-- RESET_QUEUE (R95, R97, R102): the SQ drains, then is ACTIVE on pass 0. -/
def execResetQueue (t : Tag) (stopped : List (BitVec 16)) (s : State) : Host.Outcome State Fault Refusal :=
  s.opcode t 0x09 fun c s => s.drainCmd t c (.reset t) stopped

/-- DELETE_CQ (R98, R102). -/
def execDeleteCq (t : Tag) (s : State) : Host.Outcome State Fault Refusal :=
  s.opcode t 0x08 fun c s =>
    let qid := BitVec.ofNat 12 (c.f 16 2)
    if !c.clean [(16, 2)] || c.f 16 2 = 0 || c.f 16 2 > 4095 || (s.cq t.inst qid).isNone ||
        s.rings.sqs.any (fun e => e.1.1 == t.inst && e.2.cqid == qid) then s.finish t stFieldInvalid 0
    else ((s.unwait (.cqWrite t.inst qid)).dropCq t.inst qid).finish t stOk 0

/-- ABORT (R102, R104-R106; 04 R141-R144): `succeeds` is whether the engine manages to stop a target that can still be
caught. -/
def execAbort (t : Tag) (succeeds : Bool) (s : State) : Host.Outcome State Fault Refusal :=
  s.opcode t 0x0A fun c s =>
    let sqid := BitVec.ofNat 12 (c.f 16 2)
    let target : Tag := ⟨t.inst, sqid, BitVec.ofNat 16 (c.f 18 2)⟩
    if !c.clean [(16, 4)] || c.f 16 2 > 4095 || (s.sq t.inst sqid).isNone then s.finish t stFieldInvalid 0
    else
      match s.cmd? target with
      | none => s.finish t stOk 0
      | some d =>
        if d.opcode = 0x0A then s.finish t stOk 0
        else if succeeds && s.canCatch d then (s.catchCmd d stAborted).finishAfter t stOk 1 [target]
        else s.finishAfter t stOk 0 [target]

end Sys2Proof.Machine
end

