-- ==== Sys2Proof/Machine/Tables.lean ====
section
/-! DEFINITION. The table commands (04), the commit of a write and its durability (02 R52-R56, 04 R125-R130). -/

namespace Sys2Proof.Machine

/-! ### Tables -/

def State.table? (s : State) (i : BitVec 8) (tid : BitVec 16) : Option Table := s.store.tables.find? (i, tid)

/-- The segment in a column and slot of a table. -/
def Table.cell? (t : Table) (col : BitVec 12) (slot : BitVec 20) : Option Nat := t.cells.find? (col, slot)

def State.seg? (s : State) (n : Nat) : Option Segment := s.store.segs.find? n

/-- N_s as the columns besides one hold it (02 R20, R21). -/
def State.otherRows (s : State) (t : Table) (col : BitVec 12) (slot : BitVec 20) : Option Nat :=
  match List.find? (fun e => e.1.2 == slot && e.1.1 != col) t.cells with
  | some e => (s.seg? e.2).map (·.rows)
  | none => none

/-- N_s (02 R20). -/
def State.slotRows (s : State) (t : Table) (slot : BitVec 20) : Option Nat :=
  match List.find? (fun e => e.1.2 == slot) t.cells with
  | some e => (s.seg? e.2).map (·.rows)
  | none => none

/-- Column descriptors (04 R115): `none` where one is invalid. -/
def parseCols (bs : Bytes) : Option (List Col) :=
  let cols := (chunks 4 (bs.length / 4 + 1) bs).map fun d =>
    let ty := fld d 0 1
    let sc := fld d 1 1
    if isType ty && fld d 2 2 == 0 &&
        (if ty = 0x0C then decide (sc ≤ 18) else if ty = 0x0D then decide (sc ≤ 38) else sc == 0) then
      some (Col.mk (BitVec.ofNat 8 ty) (BitVec.ofNat 8 sc))
    else none
  if cols.all (·.isSome) then some (cols.filterMap id) else none

/-! ### Writes -/

/-- Writes that have been built and whose commit has not taken its place. -/
def State.openWrites (s : State) (i : BitVec 8) : List Write :=
  s.store.writes.filter fun w => w.inst == i && w.phase != .committed

/-- Whether the instance's TABLE quota holds a further segment or table beside what it holds and what its open writes
have taken (15 R461, R662). -/
def State.quotaFits (s : State) (i : BitVec 8) (pages entries tables : Nat) : Bool :=
  let ws := s.openWrites i
  let segPages := ((ws.filter (·.kind == .install)).map fun w => ceilDiv w.seg.length 65536).sum
  let segs := (ws.filter (·.kind == .install)).length
  let tabs := (ws.filter (·.kind == .create)).length
  decide (s.tableUseWith i (segPages + pages) (segs + entries) (tabs + tables) ≤ (s.inst i).tablePages.toNat)

def mkWrite (t : Tag) (kind : WriteKind) (tid : BitVec 16) (gen : Nat) (fua : Bool) : Write where
  no := 0
  tag := some t
  inst := t.inst
  kind := kind
  tid := tid
  col := 0
  slot := 0
  seg := []
  rows := 0
  cols := []
  boundGen := gen
  fua := fua
  phase := .built
  fwdId := none
  reqId := none
  mseq := none
  epoch := 0
  cseq := 0
  jpos := 0
  pjpos := 0
  applied := false
  localDurable := false
  partnerDurable := false
  completed := false
  result := 0
  undoCell := none
  undoTable := none

def State.addWrite (s : State) (w : Write) : State :=
  { s with store := { s.store with writes := s.store.writes ++ [w] } }

def State.setWrites (s : State) (f : Write → Write) : State :=
  { s with store := { s.store with writes := s.store.writes.map f } }

/-- A change of the segment map by one commit record, or the status that refuses it (02 R21, R52; 04 R114-R116, R124);
the result is the state, RESULT, and what a rollback puts back. -/
def State.applyRecord (s : State) (w : Write) : Except (BitVec 15) (State × BitVec 64 × Option Nat × Option Table) :=
  let put (s : State) (t : Table) : State :=
    { s with store := { s.store with tables := s.store.tables.insert (w.inst, w.tid) t } }
  match w.kind, s.table? w.inst w.tid with
  | .create, some _ => .error stFieldInvalid
  | .create, none =>
    if (s.store.tables.filter fun e => e.1.1 == w.inst).length ≥ 65536 || s.store.tables.length ≥ 1048576 then
      .error stQuota
    else
      let t : Table := { gen := s.store.nextGen, cols := w.cols, cells := [], cseq := 1, home := true }
      let s := put s t
      .ok ({ s with store := { s.store with nextGen := s.store.nextGen + 1 } }, 0, none, none)
  | _, none => .error stFieldInvalid
  | .drop, some t =>
    if t.gen ≠ w.boundGen then .error stFieldInvalid
    else .ok ({ s with store := { s.store with tables := s.store.tables.erase (w.inst, w.tid) } }, 0, none, some t)
  | .install, some t =>
    if t.gen ≠ w.boundGen || t.cols.length ≤ w.col.toNat then .error stFieldInvalid
    else if ((s.otherRows t w.col w.slot).getD w.rows) ≠ w.rows then .error stFieldInvalid
    else
      let n := s.store.nextSeg
      let g : Segment :=
        { inst := w.inst, bytes := w.seg, rows := w.rows, lost := false, poison := [], rebuild := false, repair := [],
          epoch := s.pair.epoch, cseq := t.cseq + 1 }
      let s := put s { t with cells := t.cells.insert (w.col, w.slot) n, cseq := t.cseq + 1 }
      .ok ({ s with store := { s.store with nextSeg := n + 1, segs := s.store.segs.insert n g } }, w.result,
        t.cell? w.col w.slot, none)
  | .empty, some t =>
    if t.gen ≠ w.boundGen || t.cols.length ≤ w.col.toNat then .error stFieldInvalid
    else
      let old := t.cell? w.col w.slot
      .ok (put s { t with cells := t.cells.erase (w.col, w.slot), cseq := t.cseq + 1 },
        BitVec.ofNat 64 (Bool.asNat old.isSome), old, none)

/-- Whether the partner must apply every commit before it completes (18 R544). -/
def State.mirrors (s : State) : Bool := s.pair.role == .paired

/-- Whether a commit is durable (04 R126, R129). -/
def Write.durable (w : Write) : Bool := w.localDurable && w.partnerDurable

/-- A commit that has been applied wherever it must completes (04 R125, R127): its completion becomes ready, with FUA
only once it is durable; what is completed and durable is forgotten. -/
def State.settleWrites (s : State) : State :=
  let ready (w : Write) : Bool := w.phase == .committed && w.applied && !w.completed && (!w.fua || w.durable)
  let fin := s.store.writes.filter ready
  let s := s.setWrites fun w => if ready w then { w with completed := true } else w
  let s := forEach fin s fun s w =>
    match w.tag with
    | some t => s.finish t stOk w.result
    | none => s
  let s := { s with store := { s.store with
    writes := s.store.writes.filter fun (w : Write) => !(w.phase == WritePhase.committed && w.completed && w.durable) } }
  s.gcSegs

/-- A FLUSH whose writes are all durable completes (04 R128). -/
def State.settleFlushes (s : State) : State :=
  forEach s.store.flushes s fun s e =>
    let left := e.2.filter fun n => s.store.writes.any fun w => w.no == n && w.phase == .committed && !w.durable
    let s := { s with store := { s.store with flushes := s.store.flushes.insert e.1 left } }
    match s.cmd? e.1 with
    | some c =>
      if left.isEmpty && c.stage == .begun then
        s.finish e.1 stOk 0
      else s
    | none => { s with store := { s.store with flushes := s.store.flushes.erase e.1 } }

/-- The commit header and body of a record (18 R539). -/
def commitPayload (w : Write) (fwd : Bool) (fwdId : BitVec 32) (home : Bool) : Bytes :=
  let kind : Nat := match w.kind with
    | .install => 0
    | .empty => 1
    | .create => 2
    | .drop => 3
  let cell : Bool := w.kind == .install || w.kind == .empty
  let body : Bytes := match w.kind with
    | .install => w.seg
    | .create => w.cols.flatMap fun c => [c.ty, c.scale, 0, 0]
    | _ => []
  let hdr := [w.inst, BitVec.ofNat 8 kind] ++ leBytes 2 w.tid.toNat ++ leBytes 2 (if cell then w.col.toNat else 0) ++
    [BitVec.ofNat 8 (Bool.asNat fwd + 2 * Bool.asNat w.fua), 0] ++ leBytes 4 (if cell then w.slot.toNat else 0) ++
    leBytes 4 (if home then w.epoch.toNat else 0) ++ leBytes 8 (if home then w.cseq.toNat else 0) ++
    leBytes 4 body.length ++ leBytes 4 (if w.kind = .install then w.rows else 0) ++ leBytes 4 fwdId.toNat
  hdr ++ leBytes 4 (crc32c (hdr ++ body)).toNat ++ zeros 24 ++ body

/-- The journal position up to which this engine's copy is durable (18 R538 JPOS). -/
def State.durableJpos (s : State) : BitVec 64 :=
  (s.store.writes.filter fun w => w.phase == .committed && !w.localDurable).foldl
    (fun (a : BitVec 64) w => if (w.jpos - 1).ult a then w.jpos - 1 else a) s.store.jpos

/-- The position a commit took in its table's home order. -/
def State.cseqOf (s : State) (w : Write) (before : Option Table) : BitVec 64 :=
  match s.table? w.inst w.tid with
  | some t => t.cseq
  | none => (before.map (·.cseq + 1)).getD 0

/-- A write's commit takes its place in the home's order (02 R54, 04 R114): refused with a status, or applied,
mirrored to the partner of a pair (18 R544), and completed where no partner must apply it. `w` is in the list of
writes under its tag and forward identity; `refuse` is what a refusal does. -/
def State.commitWrite (s : State) (w : Write) (fwd : Bool) (fwdId : BitVec 32) (refuse : BitVec 15 → State → State) :
    State :=
  let out (s : State) : State :=
    { s with store := { s.store with writes := s.store.writes.filter (· ≠ w) } }
  match s.applyRecord w with
  | .error st => refuse st (out s)
  | .ok (s1, result, undoCell, undoTable) =>
    let w' := { w with
      no := s1.store.nextWrite, phase := .committed, epoch := s1.pair.epoch
      cseq := s1.cseqOf w (s.table? w.inst w.tid)
      jpos := s1.store.jpos + 1, applied := !s1.mirrors, partnerDurable := !s1.mirrors, result := result
      undoCell := undoCell, undoTable := undoTable, seg := [], mseq := if s1.mirrors then some s1.pair.mseq else none }
    let s2 := { s1 with store := { s1.store with
      nextWrite := s1.store.nextWrite + 1, jpos := s1.store.jpos + 1
      writes := s1.store.writes.map fun x => if x = w then w' else x } }
    let payload := commitPayload { w' with seg := w.seg } fwd fwdId true
    let s2 := if s2.glb.straps.pairEn then
        { s2 with store := { s2.store with journal := s2.store.journal ++ [(w'.jpos, payload)] } } else s2
    let s3 := if s2.mirrors || s2.pair.syncTo.isSome then
        let s := s2.sendPair 0x10 s2.pair.mseq payload
        { s with pair := { s.pair with
          mseq := s.pair.mseq + 1, syncTo := s.pair.syncTo.map fun _ => s.pair.mseq } }
      else s2
    let s4 := if w.kind = .drop && s3.mirrors then
        { s3 with pair := { s3.pair with directory := s3.pair.directory.filter (· ≠ (w.inst, w.tid)) } }
      else s3
    let s5 := if w.kind = .drop && s4.mirrors && !s4.pair.lead then
        s4.sendLink 0 0x14 s4.pair.reqId ([3, w.inst] ++ leBytes 2 w.tid.toNat ++ zeros 12)
      else s4
    s5.settleWrites

/-! ### The table commands -/

/-- The reserved bits of the shared body (R111). -/
def bodyBits (c : Cmd) : Bool := bits (c.f 20 4) 30 20 ≠ 0 || bits (c.f 26 2) 15 12 ≠ 0 || bits (c.f 28 4) 31 20 ≠ 0

def Cmd.tid (c : Cmd) : BitVec 16 := BitVec.ofNat 16 (c.f 24 2)
def Cmd.col (c : Cmd) : BitVec 12 := BitVec.ofNat 12 (c.f 26 2)
def Cmd.slot (c : Cmd) : BitVec 20 := BitVec.ofNat 20 (c.f 28 4)
def Cmd.addr (c : Cmd) : BitVec 64 := BitVec.ofNat 64 (c.f 8 8)
def Cmd.bufLen (c : Cmd) : Nat := c.f 16 4
def Cmd.pasid (c : Cmd) : Option (BitVec 20) := pasidOf (c.f 20 4)

/-- Whether a write of this tag has been built already. -/
def State.hasWrite (s : State) (t : Tag) : Bool := s.store.writes.any (·.tag == some t)

/-- A write that reads host memory goes on with the table that it was bound to when it began (R114); a TID that names none, or
another table by now, fails it. While the instance is unsynced this copy may not hold the table yet, and the write waits (18 R552). -/
def State.withTable (s : State) (t : Tag) (c : Cmd) (k : Table → State → State) : State :=
  match s.table? t.inst c.tid with
  | none => if (s.inst t.inst).unsynced then s else s.finish t stFieldInvalid 0
  | some tb =>
    if c.stage ≠ .fetched ∧ c.bound ≠ some tb.gen then s.finish t stFieldInvalid 0
    else k tb (s.modCmd t fun d => { d with bound := some tb.gen })

/-- The table a write without host data is bound to when it begins (R114): none fails it, but for an unsynced instance, whose writes
the other engine orders and checks (18 R552). -/
def State.boundGen (s : State) (i : BitVec 8) (tid : BitVec 16) : Option Nat :=
  match s.table? i tid with
  | some tb => some tb.gen
  | none => if (s.inst i).unsynced then some 0 else none

/-- TABLE_CREATE (R115): the descriptors are read and checked; the commit is WRITE_COMMIT. -/
def execTableCreate (t : Tag) (src : HostRead) (s : State) : Host.Outcome State Fault Refusal :=
  s.opcode t 0x40 fun c s =>
    if s.hasWrite t then s
    else if !c.clean [(8, 8), (16, 4), (20, 4), (24, 2)] || bodyBits c || s.pvBad c 20 || c.bufLen % 4 ≠ 0 ||
        c.bufLen < 4 || c.bufLen > 16384 then s.finish t stFieldInvalid 0
    else s.withRead t c.pasid c.addr c.bufLen src fun bs s =>
      match parseCols bs with
      | none => s.finish t stFieldInvalid 0
      | some cols =>
        if !s.quotaFits t.inst 0 0 1 then s.finish t stQuota 0
        else s.addWrite { mkWrite t .create c.tid 0 c.fua with cols := cols }

/-- TABLE_DROP (R116): the commit is WRITE_COMMIT. -/
def execTableDrop (t : Tag) (s : State) : Host.Outcome State Fault Refusal :=
  s.opcode t 0x41 fun c s =>
    if s.hasWrite t then s
    else if !c.clean [(24, 2)] then s.finish t stFieldInvalid 0
    else match s.boundGen t.inst c.tid with
      | none => s.finish t stFieldInvalid 0
      | some gen => s.addWrite (mkWrite t .drop c.tid gen c.fua)

/-- The raw values of a fixed-width column (R117); `none` where a BOOL byte of a
valid row is neither 0 nor 1 (R118). -/
def rawFixed (ty : Nat) (valid : List Bool) (bs : Bytes) : Option Vals :=
  let vs := (chunks (tyBytes ty) (bs.length + 1) bs).map leNat
  let rows := vs.zip valid
  if ty = 0x01 && rows.any (fun e => e.2 && decide (e.1 > 1)) then none
  else some (rows.map fun e => if e.2 then some (mkVal ty e.1) else none)

/-- The raw values of a STRING or BINARY column by its offsets (R117). -/
def rawStrings (valid : List Bool) (offs : List Nat) (bs : Bytes) : Option Vals :=
  let pairs := offs.zip (offs.drop 1)
  if offs.headD 1 ≠ 0 || pairs.any (fun e => decide (e.2 < e.1) || decide (e.2 - e.1 > 65535)) ||
      offs.getLastD 0 ≠ bs.length then none
  else some ((pairs.zip valid).map fun e => if e.2 then some (.str (slice bs e.1.1 (e.1.2 - e.1.1))) else none)

/-- The hint fields break R119 or R120 for a type. -/
def hintBad (ty hint wrap effort : Nat) : Bool :=
  (hint ≠ 15 && (hint > 6 || !encPermitted hint ty)) || wrap = 3 || (wrap = 0 && effort ≠ 0) ||
  (wrap = 1 && effort > 9) || (wrap = 2 && effort > 12)

/-- The level an EFFORT selects (12 R378). -/
def levelOf (effort : Nat) : Nat := if effort = 0 then 3 else effort

/-! ### Compression jobs (12 R381-R384) -/

/-- A job descriptor (R381). -/
def compJobDesc (j : CompJob) (decode : Bool) (inDone outDone ctx : Nat) : Bytes :=
  [if decode then 1 else 2, j.format, if decode then 0 else j.level,
    BitVec.ofNat 8 (Bool.asNat (j.cksum && !decode) + 2 * Bool.asNat j.dict.isSome), j.inst, j.client] ++
  leBytes 2 j.qid.toNat ++ leBytes 4 j.input.length ++ leBytes 4 j.maxOut.toNat ++ leBytes 4 inDone ++ leBytes 4 outDone ++
  leBytes 8 ctx

/-- COMPRESS_ERR with the descriptor of a decode job that ended undecodable or with OUTPUT_LIMIT (12 R381; 20 R584, R598): the bytes
it has consumed and produced; its context lies at a 64-byte aligned address of the engine's own (log 106). -/
def State.jobError (s : State) (j : CompJob) (d : Decoded) : State :=
  let desc := compJobDesc j true (j.input.length - d.rest.length) d.output.length ((Config.freeWord s.free).toNat / 64 * 64)
  (s.raiseDeviceX 325 j.inst 0 0 (severity 325) (BitVec.ofNat 256 (leNat desc))).tick

/-- What a decode job comes to. -/
def jobDecoded (j : CompJob) : Decoded :=
  decodeJob j.format.toNat (j.dict.getD []) j.dictId.toNat j.input j.maxOut.toNat

/-- The job of PAGES_PUT that unwraps a page (12 R384). -/
def putJob (i : BitVec 8) (p : Page) (bs : Bytes) : CompJob where
  format := BitVec.ofNat 8 p.wrap
  level := 0
  cksum := false
  dict := none
  dictId := 0
  inst := i
  client := 1
  qid := 0xFFFF
  maxOut := BitVec.ofNat 32 p.encSize
  unitKib := 0
  input := slice bs (64 + p.vb) p.stored

/-- The job of SEGMENT_WRITE that wraps a payload (12 R384). -/
def wrapJob (i : BitVec 8) (wrap level : Nat) (payload : Bytes) : CompJob where
  format := BitVec.ofNat 8 wrap
  level := BitVec.ofNat 8 level
  cksum := false
  dict := none
  dictId := 0
  inst := i
  client := 2
  qid := 0xFFFF
  maxOut := Config.encodeBound (BitVec.ofNat 8 wrap) payload.length
  unitKib := 0
  input := payload

/-- A command's page jobs wait at the engines, spread over all eight, with the PRIO of the load path (12 R382). -/
def State.queueJobs (s : State) (t : Tag) (decode : Bool) (jobs : List CompJob) : State :=
  { s with disp := { s.disp with jobq := s.disp.jobq ++ jobs.zipIdx.map fun e =>
    { engine := BitVec.ofNat 3 e.2, prio := 8, owner := .cmd t, decode := decode, job := e.1 } } }

/-- The segment is built from the raw values and the write is ready for its commit (R119-R121), which waits for the jobs that wrap
its pages (12 R380, R382). -/
def State.buildWrite (s : State) (t : Tag) (c : Cmd) (ty gen : Nat) (vs : Option Vals) : State :=
  match vs with
  | none => s.finish t stFieldInvalid 0
  | some vs =>
    let b := c.f 36 1
    let (seg, pages) := buildSegment ty c.col.toNat (b % 16) (bits b 5 4) (levelOf (bits (c.f 37 1) 3 0)) vs
    if seg.length > 4194304 || pages > 65536 then s.finish t stFieldInvalid 0
    else if !s.quotaFits t.inst (ceilDiv seg.length 65536) 1 0 then s.finish t stQuota 0
    else
      let wrap := bits b 5 4
      let level := levelOf (bits (c.f 37 1) 3 0)
      let plain := (buildSegment ty c.col.toNat (b % 16) 0 level vs).1
      let jobs := if wrap = 0 then [] else
        ((cutPages (plain.length / 64 + 1) plain).filter fun p => !(storedPayload p).isEmpty).map fun p =>
          wrapJob t.inst wrap level (storedPayload p)
      (s.addWrite { mkWrite t .install c.tid gen c.fua with
        col := c.col, slot := c.slot, seg := seg, rows := c.f 32 4
        result := BitVec.ofNat 64 (seg.length + 2 ^ 32 * pages) }).queueJobs t false jobs

/-- SEGMENT_WRITE (R117-R121): the raw values are read and the engine builds the segment; the commit is
WRITE_COMMIT. -/
def execSegmentWrite (t : Tag) (vals vmap offs : HostRead) (s : State) : Host.Outcome State Fault Refusal :=
  s.opcode t 0x48 fun c s =>
    let b := c.f 36 1
    let rows := c.f 32 4
    if s.hasWrite t then s
    else if c.f 38 2 ≠ 0 || c.f 56 8 ≠ 0 || bodyBits c || s.pvBad c 20 || bits b 7 6 ≠ 0 || bits (c.f 37 1) 7 4 ≠ 0 ||
        rows < 1 || rows > 4194304 then s.finish t stFieldInvalid 0
    else s.withTable t c fun tb s =>
        match tb.cols[c.col.toNat]? with
        | none => s.finish t stFieldInvalid 0
        | some col =>
          let ty := col.ty.toNat
          if hintBad ty (b % 16) (bits b 5 4) (bits (c.f 37 1) 3 0) || (isStr ty && c.f 48 8 == 0) ||
              (!isStr ty && (c.f 48 8 != 0 || c.bufLen != rows * tyBytes ty)) then s.finish t stFieldInvalid 0
          else
            let withMap (k : List Bool → State → State) (s : State) : State :=
              if c.f 40 8 = 0 then k (List.replicate rows true) s
              else s.withRead t c.pasid (BitVec.ofNat 64 (c.f 40 8)) (ceilDiv rows 8) vmap fun m s =>
                k ((bitsOf m).take rows) s
            withMap (fun valid s =>
              s.withRead t c.pasid c.addr c.bufLen vals fun bs s =>
                if isStr ty then
                  s.withRead t c.pasid (BitVec.ofNat 64 (c.f 48 8)) (4 * (rows + 1)) offs fun o s =>
                    s.buildWrite t c ty tb.gen
                      (rawStrings valid ((chunks 4 (rows + 2) o).map leNat) bs)
                else s.buildWrite t c ty tb.gen (rawFixed ty valid bs)) s

/-- A segment fails its page rules: where a page's own unwrapping job failed, that is reported (12 R381, R384). -/
def State.putRefused (s : State) (i : BitVec 8) (ty : Nat) (bs : Bytes) : State :=
  match failingPage ty (bs.length / 64 + 1) bs [] with
  | none => s
  | some rest =>
    if unwrapJobFails ty rest then
      let p := Page.ofBytes rest
      s.jobError (putJob i p rest) (jobDecoded (putJob i p rest))
    else s

/-- PAGES_PUT (R122; 02 R49, R50): the segment is checked; the commit is WRITE_COMMIT. -/
def execPagesPut (t : Tag) (src : HostRead) (s : State) : Host.Outcome State Fault Refusal :=
  s.opcode t 0x49 fun c s =>
    let rows := c.f 32 4
    if s.hasWrite t then s
    else if !c.clean [(8, 28)] || bodyBits c || s.pvBad c 20 || rows < 1 || rows > 4194304 || c.bufLen % 64 ≠ 0 ||
        c.bufLen < 64 || c.bufLen > 4194304 then s.finish t stFieldInvalid 0
    else s.withTable t c fun tb s =>
        match tb.cols[c.col.toNat]? with
        | none => s.finish t stFieldInvalid 0
        | some col =>
          s.withRead t c.pasid c.addr c.bufLen src fun bs s =>
            match checkSegment col.ty.toNat c.col.toNat rows bs with
            | .integrity => s.finish t stIntegrity 0
            | .fieldInvalid => (s.putRefused t.inst col.ty.toNat bs).finish t stFieldInvalid 0
            | .ok _ =>
              if !s.quotaFits t.inst (ceilDiv bs.length 65536) 1 0 then s.finish t stQuota 0
              else
                let jobs := ((cutPages (bs.length / 64 + 1) bs).filter fun p => (Page.ofBytes p).wrap != 0).map fun p =>
                  putJob t.inst (Page.ofBytes p) p
                (s.addWrite { mkWrite t .install c.tid tb.gen c.fua with
                  col := c.col, slot := c.slot, seg := bs, rows := rows }).queueJobs t true jobs

/-- A page checksum failure or an invalid stored page: the event PAGE_CRC and its counter (R34, 08 R245, 20 R584,
R597). -/
def State.pageCrcEvent (s : State) (i : BitVec 8) (tid : BitVec 16) (col : BitVec 12) (slot : BitVec 20) : State :=
  (s.raiseDevice 3 i (BitVec.ofNat 64 (i.toNat + 256 * tid.toNat))
    (BitVec.ofNat 64 (col.toNat + 2 ^ 32 * slot.toNat))).count ctrPageCrc

/-- Whether every page of a stored segment still has its CRC. -/
def crcsOk : Nat → Bytes → Bool
  | 0, _ => true
  | fuel + 1, bs =>
    if bs.isEmpty then true
    else pageLocated bs && pageCrcOk bs && crcsOk fuel (bs.drop (Page.ofBytes bs).len)

/-- SEGMENT_READ (R123; 02 R51, R60): the stored segment is written to the host buffer. -/
def execSegmentRead (t : Tag) (acc : HostAcc) (s : State) : Host.Outcome State Fault Refusal :=
  s.opcode t 0x4A fun c s =>
    if !c.clean [(8, 24)] || bodyBits c || s.pvBad c 20 then s.finish t stFieldInvalid 0
    else
      let found : Option Nat := match s.store.reads.find? t with
        | some n => some n
        | none => (s.table? t.inst c.tid).bind fun tb =>
            if c.col.toNat < tb.cols.length then tb.cell? c.col c.slot else none
      match found.bind fun n => (s.seg? n).map (n, ·) with
      | none => s.finish t stFieldInvalid 0
      | some (n, g) =>
        let s := { s with store := { s.store with reads := s.store.reads.insert t n } }
        let done (s : State) (st : BitVec 15) (r : Nat) : State := s.finish t st (BitVec.ofNat 64 r)
        if c.bufLen < g.bytes.length then done s stFieldInvalid g.bytes.length
        else if g.rebuild || !g.repair.isEmpty then s
        else if g.lost || !g.poison.isEmpty then done s stDataLost 0
        else if !crcsOk (g.bytes.length / 64 + 1) g.bytes then
          done (s.pageCrcEvent t.inst c.tid c.col c.slot) stIntegrity 0
        else s.withWrite t c.pasid c.addr g.bytes acc fun s => done s stOk g.bytes.length

/-- SEGMENT_DELETE (R124): the commit is WRITE_COMMIT. -/
def execSegmentDelete (t : Tag) (s : State) : Host.Outcome State Fault Refusal :=
  s.opcode t 0x4B fun c s =>
    if s.hasWrite t then s
    else if !c.clean [(24, 8)] || bodyBits c then s.finish t stFieldInvalid 0
    else match s.boundGen t.inst c.tid with
      | none => s.finish t stFieldInvalid 0
      | some gen => s.addWrite { mkWrite t .empty c.tid gen c.fua with col := c.col, slot := c.slot }

/-- FLUSH (R128, R130): completes once the writes it noted at its fetch are durable. -/
def execFlush (t : Tag) (s : State) : Host.Outcome State Fault Refusal :=
  s.opcode t 0x4C fun c s => if !c.clean [] then s.finish t stFieldInvalid 0 else s.settleFlushes

/-- Whether the write's table is ordered by the partner, so that the write is forwarded (18 R543, R552). -/
def State.forwards (s : State) (w : Write) : Bool :=
  (s.pair.role == .paired &&
    (match s.table? w.inst w.tid with
      | some tb => !tb.home
      | none => false)) ||
  (s.pair.role == .syncing && (s.inst w.inst).unsynced)

/-- Whether the table that a write was bound to has been dropped since (R114). -/
def State.lostTable (s : State) (w : Write) : Bool :=
  w.kind != .create && !((s.table? w.inst w.tid).any (·.gen == w.boundGen))

/-- Why the partner of a paired engine cannot take a write that this engine orders: it cannot charge it, or a new table's
instance is ABSENT there, which the directory tells where the partner keeps it (18 R541, R542). -/
def State.partnerRefuses (s : State) (w : Write) : Option (BitVec 15) :=
  if !s.mirrors || w.kind == .empty || w.kind == .drop then none
  else if w.kind == .create && s.pair.lead && !Config.partnerHas w.inst s.free then some stFieldInvalid
  else if !Config.partnerCharges w.inst s.free then some stQuota
  else none

/-- A write of this engine's own commits, unless the partner cannot take it: then it has no effect on either engine. -/
def State.commitOwn (s : State) (w : Write) (refuse : BitVec 15 → State → State) : State :=
  match s.partnerRefuses w with
  | some st => refuse st (State.tick { s with store := { s.store with writes := s.store.writes.filter (· ≠ w) } })
  | none => (if s.mirrors then s.tick else s).commitWrite w false 0 refuse

/-- WRITE_COMMIT (R114, R125; 02 R52-R54): a built write's commit takes its place, once the jobs of its pages have ended. On a pair a TABLE_CREATE is first
admitted by the directory (18 R542), and a write to a table of the partner is forwarded (18 R543) while its table is the one it
was bound to. -/
def execWriteCommit (t : Tag) (s : State) : Host.Outcome State Fault Refusal :=
  match s.store.writes.find? fun w => w.tag == some t with
  | none => .next s
  | some w =>
    let refuse (st : BitVec 15) (s : State) : State := s.finish t st 0
    if !s.ready || s.pair.role == .fenced || s.pair.role == .joining || s.jobsWait t then .next s
    else if w.phase = .built && s.pair.role == .paired && s.lostTable w then
      .next (refuse stFieldInvalid { s with store := { s.store with writes := s.store.writes.filter (· ≠ w) } })
    else if w.phase = .built && s.forwards w then
      let id := s.pair.fwdId
      let s := s.setWrites fun x => if x = w then { x with phase := .forwarded, fwdId := some id } else x
      .next ({ s with pair := { s.pair with fwdId := id + 1 } }.sendPair 0x13 id (commitPayload w false 0 false))
    else if w.phase = .built && w.kind = .create && s.mirrors then
      if s.pair.lead then
        if s.pair.directory.contains (w.inst, w.tid) then
          .next (refuse stFieldInvalid { s with store := { s.store with writes := s.store.writes.filter (· ≠ w) } })
        else
          let s := { s with pair := { s.pair with directory := (w.inst, w.tid) :: s.pair.directory } }
          .next (s.commitOwn w fun st s => refuse st
            { s with pair := { s.pair with directory := s.pair.directory.filter (· ≠ (w.inst, w.tid)) } })
      else
        let id := s.pair.reqId
        let s := s.setWrites fun x => if x = w then { x with phase := .admitting, reqId := some id } else x
        .next ({ s with pair := { s.pair with reqId := id + 1 } }.sendLink 0 0x14 id
          ([0, w.inst] ++ leBytes 2 w.tid.toNat ++ zeros 12))
    else if w.phase = .built || w.phase = .admitted then .next (s.commitOwn w refuse)
    else .next s

/-- WRITE_DURABLE (R126-R128): the pages and the commit record of a commit are in DRAM here; commits of one table
become so in their order. On a pair the engine then reports its journal position (18 R544). -/
def execWriteDurable (seq : Nat) (s : State) : Host.Outcome State Fault Refusal :=
  match s.store.writes.find? fun w => w.no == seq && w.phase == .committed && !w.localDurable with
  | none => .next s
  | some w =>
    if s.store.writes.any (fun x => x.phase == .committed && x.inst == w.inst && x.tid == w.tid && !x.localDurable &&
        decide (x.no < w.no)) then .next s
    else
      let s := s.setWrites fun x => if x.no = seq && x.phase = .committed then { x with localDurable := true } else x
      let s := s.settleWrites.settleFlushes
      .next (if s.mirrors then
        s.sendLink 0 0x12 0 (leBytes 8 s.durableJpos.toNat ++ leBytes 4 s.pair.epoch.toNat ++ zeros 4)
      else s)

end Sys2Proof.Machine
end

