-- ==== Sys2Proof/Machine/Instances.lean ====
section
/-! DEFINITION. Instances and functions: their life (17 R501-R527), forced stops (R514), the reset effect (R517), the
manager (R503-R506), and the events of the host ports. -/

namespace Sys2Proof.Machine

/-! ### The pool's size (16 R475, R477) -/

/-- The pool's capacity in GiB: the sum of SIZE_GIB while the pool is enabled (R477). -/
def State.poolGib (s : State) : Nat :=
  if s.dram.poolEn then (s.dram.map.map fun e => if mapValid e.2 then mapSize e.2 else 0).sum else 0

/-- Pool pages of 64 KiB. -/
def State.poolPages (s : State) : Nat := s.poolGib * 16384

/-! ### Device supplies (17 R508) -/

def State.live (s : State) : List Inst := (s.insts.filter fun e => e.2.st != .absent).map (·.2)
def State.sqDrawn (s : State) : Nat := (s.live.map fun v => v.maxSq.toNat + 1).sum
def State.cqDrawn (s : State) : Nat := (s.live.map fun v => v.maxCq.toNat + 1).sum
def State.flowsDrawn (s : State) : Nat := (s.live.map fun v => v.maxFlows.toNat).sum
def State.lsDrawn (s : State) : Nat := (s.live.map fun v => v.lsUnits.toNat).sum
def Inst.pages (v : Inst) : Nat := v.tablePages.toNat + v.spillPages.toNat + v.sspillPages.toNat
def State.pagesDrawn (s : State) : Nat := (s.live.map Inst.pages).sum

/-- The manager's instance as the engine creates it (R503). -/
def Inst.managerFirst : Inst := { Inst.absent with
  st := .serving, maxSq := 16, maxCq := 16, maxFlows := 1024, sqLimit := 16, cqLimit := 16, lsUnits := 16, weight := 1,
  pacerPct := 10, fetchRate := 0 }

/-! ### Forced stop and reset effect -/

/-- The queries of an instance stop without a CSW write or a completion (05 R168): their contexts, leave and exchanges go; the
other participants of one that was not stopped before are told (10 R329). -/
def State.dropQueries (s : State) (i : BitVec 8) : State :=
  let mine := s.queries.filter fun q => q.tag.inst == i
  let s := forEach mine s fun s q =>
    let s := if q.st == .running || q.st == .paused then s.stopExchanges q.tag else s
    (((s.closeCascade q.tag).releasePods q.tag).dropLeave q.tag).dropExchanges q.tag
  let s := s.removeItems fun x => x.query.inst == i
  State.gcSegs { s with
    queries := s.queries.filter fun q => q.tag.inst != i
    streams := s.streams.filter fun e => e.1.query.inst != i
    ops := s.ops.filter fun e => e.1.1.inst != i
    disp := { s.disp with flows := s.disp.flows.filter fun e => e.1.1.inst != i }
    power := { s.power with queue := s.power.queue.filter fun (l : Leave) =>
      l.items.isEmpty || l.items.any fun n => s.disp.items.any fun x => x.id == n } }

/-- The writes of an instance that are under way: each of the given tags is wholly committed, each other that has not
been sent on has no effect (R514). -/
def State.stopWrites (s : State) (i : BitVec 8) (committed : List Tag) : State :=
  let mine := s.store.writes.filter fun w => w.inst == i && (w.phase == .built || w.phase == .admitted)
  let s := forEach mine s fun s w =>
    let w' := { w with tag := none }
    let s := s.setWrites fun x => if x = w then w' else x
    match w.tag with
    | some t =>
      if committed.contains t then s.commitWrite w' false 0 fun _ s => s
      else { s with store := { s.store with writes := s.store.writes.filter (· ≠ w') } }
    | none => s
  s.setWrites fun w => if w.inst = i then { w with tag := none } else w

/-- Commands, batches and held completions of an instance go without report; how many commands had no completion
(R514, R515). -/
def State.dropCommands (s : State) (i : BitVec 8) : State × Nat :=
  let n := (s.rings.cmds.filter fun c => c.tag.inst == i).length
  ({ s.dropJobs (fun o => match o with
      | .cmd t => t.inst == i
      | .page _ _ _ => false) with
      rings := { s.rings with
        cmds := s.rings.cmds.filter fun c => c.tag.inst != i
        batches := s.rings.batches.filter fun b => b.inst != i
        cqs := s.rings.cqs.mapVals fun k q => if k.1 = i then { q with ready := [], faulted := false } else q
        sqs := s.rings.sqs.mapVals fun k q =>
          if k.1 = i then { q with openBatch := none, scanDue := false, scanning := false } else q }
      store := { s.store with
        flushes := s.store.flushes.filter fun e => e.1.inst != i
        reads := s.store.reads.filter fun e => e.1.inst != i }
      fw := { s.fw with
        late := s.fw.late.filter fun t => t.inst != i
        act := s.fw.act.map fun a => { a with tag := a.tag.filter fun t => t.inst != i } } }, n)

/-- Interrupts pending on a function's vectors are discarded (R514). -/
def State.dropInterrupts (s : State) (i : BitVec 8) : State :=
  s.modFn i fun f =>
    { f with vectors := f.vectors.mapVals fun _ x => { x with c := 0, timer := false, pending := false } }

/-- A forced stop (R514); the second part is how many commands ended without a completion. -/
def State.forcedStop (s : State) (i : BitVec 8) (committed : List Tag) : State × Nat :=
  let s := (s.stopWrites i committed).dropQueries i
  let r := s.dropCommands i
  ((r.1.dropInterrupts i).dropRequests i, r.2)

/-- The reset effect (R517; 20 R593, 21 R623). -/
def State.resetEffect (s : State) (i : BitVec 8) : State :=
  let s := { s with rings := { s.rings with
    sqs := s.rings.sqs.filter fun e => e.1.1 != i, cqs := s.rings.cqs.filter fun e => e.1.1 != i } }
  let s := s.modInst i fun v =>
    { v with images := [], nextHandle := 1, priTimeout := 1000, quiesce := none, discarded := 0 }
  s.modFn i fun f => { f with
    admSqBase := 0, admCqBase := 0, admEn := false, sqLog2 := 0, cqLog2 := 0, cfgErr := false, admSlot := 0, admReason := 0, evtRoute := []
    vectors := f.vectors.mapVals fun _ x => { x with count := 1, time := 0 } }

/-- A QUIESCE of an instance completes, with DISCARDED (R513, R515). -/
def State.endQuiesce (s : State) (t : Option Tag) (discarded : Nat) : State :=
  match t with
  | some t => s.finish t stOk (BitVec.ofNat 64 (discarded % 2 ^ 32))
  | none => s

/-- FLR or Bus Master Enable cleared (R513): a SERVING instance stands SERVING with the reset effect, a QUIESCING one
becomes QUIET. -/
def State.stopForReset (s : State) (i : BitVec 8) (committed : List Tag) : State :=
  let v := s.inst i
  match v.st with
  | .serving => ((s.forcedStop i committed).1).resetEffect i
  | .quiescing =>
    let r := s.forcedStop i committed
    ((r.1.resetEffect i).modInst i fun v => { v with st := .quiet }).endQuiesce v.quiesce (v.discarded + r.2)
  | _ => s

/-- The enables PCI Express resets (R520). -/
def Fn.enablesOff (f : Fn) : Fn :=
  { f with bme := false, ats := false, pri := false, pasidEn := false, relaxedEn := true, alloc := 0, priBlocked := false }

/-- A function is no longer present (R513): the instance is DETACHED, holding whether it returns as QUIET. -/
def State.detach (s : State) (i : BitVec 8) (committed : List Tag) : State :=
  let v := s.inst i
  let s := match v.st with
    | .serving | .quiescing | .quiet =>
      let r := s.forcedStop i committed
      ((r.1.resetEffect i).modInst i fun x => { x with st := .detached, hold := v.st != InstState.serving }).endQuiesce v.quiesce
        (v.discarded + r.2)
    | _ => s
  s.modFn i fun f => { f.enablesOff with present := false, d3hot := false }

/-- A function is present (again) (R513, R520). -/
def State.attach (s : State) (i : BitVec 8) : State :=
  if (s.fn i).present then s
  else
    let s := s.modFn i fun f => { f.enablesOff with present := true }
    if (s.inst i).st = .detached then
      s.modInst i fun v => { v with st := if v.hold then .quiet else .serving, hold := false }
    else s

/-- The function numbers of a port. -/
def portInsts (port : BitVec 2) : List (BitVec 8) := (List.range 64).map fun k => BitVec.ofNat 8 (64 * port.toNat + k)

/-- NumVFs of a port, 0 while VF Enable is 0. -/
def State.numVfs (s : State) (port : BitVec 2) : BitVec 6 := s.glb.vfs.get port 0
def State.portUp (s : State) (port : BitVec 2) : Bool := s.glb.ports.getLsbD port.toNat

/-- Every function of a port that should be present is attached (R513). -/
def State.attachPort (s : State) (port : BitVec 2) : State :=
  if s.portUp port then
    forEach (portInsts port) s fun s i => if instFn i ≤ (s.numVfs port).toNat then s.attach i else s
  else s

def State.detachPort (s : State) (port : BitVec 2) (committed : List Tag) : State :=
  forEach (portInsts port) s fun s i => if (s.fn i).present then s.detach i committed else s

/-! ### Events of the functions -/

/-- A function-level reset (R513, R520). -/
def State.flr (s : State) (inst : BitVec 8) (committed : List Tag) : State :=
  State.raiseDevice (((s.stopForReset inst committed).dropRequests inst).modFn inst Fn.enablesOff) 10 inst (inst.setWidth 64) 0

/-- The FLRs that arrived during an activation pause are served after it, as they came (20 R610). -/
def State.serveFlrs (s : State) : State :=
  forEach s.glb.flrDue { s with glb := { s.glb with flrDue := [] } } fun s e => if (s.fn e.1).present then s.flr e.1 e.2 else s

/-- FLR (R513, R520): one that arrives during an activation pause waits for its end (20 R610). -/
def execFlr (inst : BitVec 8) (committed : List Tag) (s : State) : Host.Outcome State Fault Refusal :=
  if !s.ready || !(s.fn inst).present then .next s
  else if s.glb.fetchPaused then .next { s with glb := { s.glb with flrDue := s.glb.flrDue ++ [(inst, committed)] } }
  else .next (s.flr inst committed)

/-- BME_CLEAR (R513, R514): Bus Master Enable is cleared. -/
def execBmeClear (inst : BitVec 8) (committed : List Tag) (s : State) : Host.Outcome State Fault Refusal :=
  if !s.ready || !(s.fn inst).present then .next s
  else
    let s := s.modFn inst fun f => { f with bme := false }
    let s := s.stopForReset inst committed
    .next { s with xlat := { s.xlat with atc := s.xlat.atc.filter fun e => e.1 != inst } }

/-- BME_SET (R521; 20 R592): scans of SQs that received a doorbell are due as they were kept; vectors with
occurrences are signalled once. -/
def execBmeSet (inst : BitVec 8) (s : State) : Host.Outcome State Fault Refusal :=
  if !(s.fn inst).present then .next s
  else .next ((s.modFn inst fun f => { f with bme := true }).signalAll inst)

/-- VF_ENABLE_CLEAR (R513): VF Enable is cleared or NumVFs falls; the VFs above it detach. -/
def execVfEnableClear (port : BitVec 2) (numVfs : BitVec 6) (committed : List Tag) (s : State) :
    Host.Outcome State Fault Refusal :=
  let s := { s with glb := { s.glb with vfs := s.glb.vfs.insert port numVfs } }
  .next (forEach (portInsts port) s fun s i =>
    if (s.fn i).present && decide (numVfs.toNat < instFn i) then s.detach i committed else s)

/-- VF_ENABLE_SET (R513): VFs 1 to NumVFs of a port are present while its link is up. -/
def execVfEnableSet (port : BitVec 2) (numVfs : BitVec 6) (s : State) : Host.Outcome State Fault Refusal :=
  .next ({ s with glb := { s.glb with vfs := s.glb.vfs.insert port numVfs } }.attachPort port)

/-- PERST_ASSERT (R513, R523; 21 R623): every function of the port detaches, its MSI-X table and PBA return to their
reset values. -/
def execPerstAssert (port : BitVec 2) (committed : List Tag) (s : State) : Host.Outcome State Fault Refusal :=
  let s := s.detachPort port committed
  let s := forEach (portInsts port) s fun s i => s.modFn i fun f => { f with
    vectors := f.vectors.mapVals fun _ x => { x with masked := true, pending := false, addr := 0, data := 0 }
    fnMask := false }
  .next { s with glb := { s.glb with
    ports := s.glb.ports &&& ~~~ (1#4 <<< port.toNat), perst := s.glb.perst ||| (1#4 <<< port.toNat)
    vfs := s.glb.vfs.insert port 0 } }

/-- PERST_DEASSERT (R499): the port trains; its functions are present once its link is up. -/
def execPerstDeassert (port : BitVec 2) (s : State) : Host.Outcome State Fault Refusal :=
  .next { s with glb := { s.glb with perst := s.glb.perst &&& ~~~ (1#4 <<< port.toNat) } }

/-- HOST_LINK_DOWN (R513, R523; 20 R584). -/
def execHostLinkDown (port : BitVec 2) (committed : List Tag) (s : State) : Host.Outcome State Fault Refusal :=
  if s.portUp port then
    let s := s.detachPort port committed
    let s := { s with glb := { s.glb with
      ports := s.glb.ports &&& ~~~ (1#4 <<< port.toNat), vfs := s.glb.vfs.insert port 0 } }
    .next (s.raiseDevice 192 0xFF (port.setWidth 64) 0)
  else .next s

/-- HOST_LINK_UP (R513; 20 R584): the port's functions are present; the event copies Link Status. -/
def execHostLinkUp (port : BitVec 2) (status : BitVec 16) (flit : Bool) (s : State) :
    Host.Outcome State Fault Refusal :=
  if s.portUp port || s.glb.perst.getLsbD port.toNat then .next s
  else
    let s := { s with glb := { s.glb with ports := s.glb.ports ||| (1#4 <<< port.toNat) } }
    let s := s.attachPort port
    .next (s.raiseDevice 193 0xFF (port.setWidth 64) (status.setWidth 64 ||| (if flit then 0x10000 else 0)))

/-- HOST_AER (20 R599): logged and reported; correctable and advisory errors are counted; an uncorrectable error of
one function's request fails only the command or query that carried it. -/
def execHostAer (port : BitVec 2) (bit : BitVec 64) (kind : AerKind) (victim : Option Tag) (s : State) :
    Host.Outcome State Fault Refusal :=
  let sev : BitVec 8 := if kind = .uncorrectable then 1 else 0
  let s := s.raiseDeviceX 194 0xFF (port.setWidth 64) bit sev 0
  let s := if kind = .uncorrectable then s else s.count (ctrPcieCe port)
  match kind, victim with
  | .uncorrectable, some t =>
    match s.query? t with
    | some _ => .next (s.stopQuery t stInternal)
    | none => .next (s.finish t stInternal 0)
  | _, _ => .next s

/-- D3HOT_ENTRY (20 R591). -/
def execD3hotEntry (inst : BitVec 8) (pmeEn : Bool) (s : State) : Host.Outcome State Fault Refusal :=
  .next (s.modFn inst fun f => { f with d3hot := true, pmeEn := pmeEn })

/-- D0_RETURN (20 R591): held completions may be written again, and held messages are sent after the completions
that are ready. -/
def execD0Return (inst : BitVec 8) (s : State) : Host.Outcome State Fault Refusal :=
  if !(s.fn inst).d3hot then .next s
  else
    let s := s.modFn inst fun f => { f with d3hot := false }
    -- the engine writes the held completions first
    let held := (s.rings.cqs.filter fun e => e.1.1 == inst)
    let s := forEach held s fun s e => forEach e.2.ready s fun s c =>
      match s.cq e.1.1 e.1.2 with
      | some cq => if s.mayPost inst && !cq.full && !cq.faulted && s.postable inst c && cq.ready.contains c then
          s.post e.1.1 e.1.2 cq c else s
      | none => s
    .next (s.signalHeld inst)

/-- COMPLETION_TIMEOUT (15 R454): a read of a function got no successful completion: its owner's transfer is
unresolved. -/
def execCompletionTimeout (inst : BitVec 8) (owner : Tag) (s : State) : Host.Outcome State Fault Refusal :=
  if owner.inst ≠ inst then .next s
  else match s.query? owner with
    | some _ => .next (s.stopQuery owner stPageFault)
    | none => .next (s.unresolved (.cmd owner))

/-- QUIESCE_GRACE_END (R515): GRACE_MS have passed: what is left of a QUIESCING instance is discarded and it is QUIET. -/
def execQuiesceGraceEnd (inst : BitVec 8) (committed : List Tag) (s : State) : Host.Outcome State Fault Refusal :=
  let v := s.inst inst
  if v.st = .quiescing && s.reached v.graceEnd then
    let s := (s.stopWrites inst committed).dropQueries inst
    let r := s.dropCommands inst
    let s := r.1
    let s := { s with xlat := { s.xlat with
      reqs := s.xlat.reqs.filter (·.key.inst != inst), waiting := s.xlat.waiting.filter (·.key.inst != inst) } }
    .next ((s.modInst inst fun x => { x with st := .quiet, quiesce := none }).endQuiesce v.quiesce (v.discarded + r.2))
  else .next s

/-! ### The manager's commands (R505-R519) -/

def Cmd.inst (c : Cmd) : BitVec 8 := BitVec.ofNat 8 (c.f 16 1)

/-- The fields of R507 and R508 are in range; `sel k` says whether field k of MASK is selected. -/
def fieldsBad (s : State) (c : Cmd) (maxSq maxCq : Nat) (sel : Nat → Bool) : Bool :=
  (sel 0 && decide (maxSq < c.f 28 2)) || (sel 1 && decide (maxCq < c.f 30 2)) ||
  (sel 2 && decide (s.poolPages < c.f 32 4)) || (sel 3 && decide (s.poolPages < c.f 36 4)) ||
  (sel 4 && decide (s.poolPages < c.f 40 4)) || (sel 5 && (decide (c.f 44 2 < 16) || decide (2560 < c.f 44 2))) ||
  (sel 6 && c.f 46 1 == 0) || (sel 7 && (c.f 47 1 == 0 || decide (100 < c.f 47 1))) ||
  (sel 8 && decide (16777215 < c.f 48 4))

/-- INSTANCE_CREATE (R507-R509). -/
def execInstanceCreate (t : Tag) (s : State) : Host.Outcome State Fault Refusal :=
  s.opcode t 0x18 fun c s =>
    let i := c.inst
    if !c.clean [(16, 1), (20, 32)] || c.f 20 2 > 4095 || c.f 22 2 > 4095 || c.f 24 4 < 1 || c.f 24 4 > 65536 ||
        fieldsBad s c (c.f 20 2) (c.f 22 2) (fun _ => true) || (s.inst i).st != .absent then
      s.finish t stFieldInvalid 0
    else if s.sqDrawn + c.f 20 2 + 1 > 4096 || s.cqDrawn + c.f 22 2 + 1 > 4096 || s.flowsDrawn + c.f 24 4 > 65536 ||
        s.pagesDrawn + c.f 32 4 + c.f 36 4 + c.f 40 4 > s.poolPages || s.lsDrawn + c.f 44 2 > 2560 then
      s.finish t stQuota 0
    else
      let v : Inst := { Inst.absent with
        st := if (s.fn i).present then .serving else .detached
        maxSq := BitVec.ofNat 16 (c.f 20 2), maxCq := BitVec.ofNat 16 (c.f 22 2), maxFlows := BitVec.ofNat 32 (c.f 24 4)
        sqLimit := BitVec.ofNat 16 (c.f 28 2), cqLimit := BitVec.ofNat 16 (c.f 30 2)
        tablePages := BitVec.ofNat 32 (c.f 32 4), spillPages := BitVec.ofNat 32 (c.f 36 4)
        sspillPages := BitVec.ofNat 32 (c.f 40 4), lsUnits := BitVec.ofNat 16 (c.f 44 2)
        weight := BitVec.ofNat 8 (c.f 46 1), pacerPct := BitVec.ofNat 8 (c.f 47 1)
        fetchRate := BitVec.ofNat 32 (c.f 48 4) }
      (s.setInst i v).finish t stOk 0

/-- A resize's new value of a field, or the old one. -/
def pick (sel : Bool) (new old : Nat) : Nat := if sel then new else old

/-- Every parked SPILL item of an instance returns to READY (R511, 15 R463). -/
def State.unparkSpill (s : State) (i : BitVec 8) : State :=
  forEach (s.disp.items.filter fun x => x.query.inst == i && x.cause == some .spill) s fun s x => s.unparkItem x.id 4

/-- INSTANCE_RESIZE (R507, R508, R510-R512); a WEIGHT that leaves no eligible item ends its round (07 R224). -/
def execInstanceResize (t : Tag) (s : State) : Host.Outcome State Fault Refusal :=
  s.opcode t 0x19 fun c s =>
    let i := c.inst
    let v := s.inst i
    let sel (k : Nat) : Bool := bit (c.f 18 2) k
    let unsel : Bool := (c.f 28 2 ≠ 0 && !sel 0) || (c.f 30 2 ≠ 0 && !sel 1) || (c.f 32 4 ≠ 0 && !sel 2) ||
      (c.f 36 4 ≠ 0 && !sel 3) || (c.f 40 4 ≠ 0 && !sel 4) || (c.f 44 2 ≠ 0 && !sel 5) || (c.f 46 1 ≠ 0 && !sel 6) ||
      (c.f 47 1 ≠ 0 && !sel 7) || (c.f 48 4 ≠ 0 && !sel 8)
    let below : Bool := (sel 0 && decide (c.f 28 2 < s.ioSqs i)) || (sel 1 && decide (c.f 30 2 < s.ioCqs i)) ||
      (sel 2 && decide (c.f 32 4 < s.tableUse i)) || (sel 3 && decide (c.f 36 4 < s.spillUse i)) ||
      (sel 4 && decide (c.f 40 4 < s.sspillUse i)) || (sel 5 && decide (c.f 44 2 < s.lsUse i))
    if !c.clean [(16, 1), (18, 2), (28, 24)] || bits (c.f 18 2) 15 9 ≠ 0 || v.st == .absent || unsel ||
        fieldsBad s c v.maxSq.toNat v.maxCq.toNat sel || below then s.finish t stFieldInvalid 0
    else
      let tp := pick (sel 2) (c.f 32 4) v.tablePages.toNat
      let sp := pick (sel 3) (c.f 36 4) v.spillPages.toNat
      let ssp := pick (sel 4) (c.f 40 4) v.sspillPages.toNat
      let ls := pick (sel 5) (c.f 44 2) v.lsUnits.toNat
      if (tp + sp + ssp > v.pages && s.pagesDrawn - v.pages + tp + sp + ssp > s.poolPages) ||
          (ls > v.lsUnits.toNat && s.lsDrawn - v.lsUnits.toNat + ls > 2560) then s.finish t stQuota 0
      else
        let s := s.setInst i { v with
          sqLimit := BitVec.ofNat 16 (pick (sel 0) (c.f 28 2) v.sqLimit.toNat)
          cqLimit := BitVec.ofNat 16 (pick (sel 1) (c.f 30 2) v.cqLimit.toNat)
          tablePages := BitVec.ofNat 32 tp, spillPages := BitVec.ofNat 32 sp, sspillPages := BitVec.ofNat 32 ssp
          lsUnits := BitVec.ofNat 16 ls
          weight := BitVec.ofNat 8 (pick (sel 6) (c.f 46 1) v.weight.toNat)
          pacerPct := BitVec.ofNat 8 (pick (sel 7) (c.f 47 1) v.pacerPct.toNat)
          fetchRate := BitVec.ofNat 32 (pick (sel 8) (c.f 48 4) v.fetchRate.toNat) }
        let s := if sel 8 then { s with rings := { s.rings with
            sqs := s.rings.sqs.mapVals fun k q => if k.1 = i then { q with tokens := fullTokens } else q } } else s
        let s := if sel 6 then s.refill else s
        let s := if sp > v.spillPages.toNat then s.unparkSpill i else s
        s.finish t stOk 0

/-- INSTANCE_QUIESCE (R505, R513, R515): fetching stops; it completes when the instance is QUIET. -/
def execInstanceQuiesce (t : Tag) (s : State) : Host.Outcome State Fault Refusal :=
  s.opcode t 0x1A fun c s =>
    let i := c.inst
    let v := s.inst i
    if v.quiesce = some t then s
    else if !c.clean [(16, 1), (18, 2)] || s.isManager i || v.st == .absent || v.st == .quiescing then
      s.finish t stFieldInvalid 0
    else if v.st == .serving then
      (s.setInst i { v with st := .quiescing, quiesce := some t, discarded := 0, graceEnd := s.time + BitVec.ofNat 64 (25000 * c.f 18 2) }).quiesceCheck i
    else s.finish t stOk 0

/-- INSTANCE_RESET (R505, R513, R518). -/
def execInstanceReset (t : Tag) (s : State) : Host.Outcome State Fault Refusal :=
  s.opcode t 0x1B fun c s =>
    let i := c.inst
    if !c.clean [(16, 1)] || s.isManager i then s.finish t stFieldInvalid 0
    else match (s.inst i).st with
      | .absent => s.finish t stFieldInvalid 0
      | .quiet => (((s.resetEffect i).modInst i fun v => { v with st := .serving }).signalAll i).finish t stOk 0
      | .detached => (s.modInst i fun v => { v with hold := false }).finish t stOk 0
      | _ => s.finish t stNotQuiesced 0

/-- INSTANCE_DESTROY (R505, R513, R518, R519). -/
def execInstanceDestroy (t : Tag) (s : State) : Host.Outcome State Fault Refusal :=
  s.opcode t 0x1C fun c s =>
    let i := c.inst
    if !c.clean [(16, 1)] || s.isManager i then s.finish t stFieldInvalid 0
    else match (s.inst i).st with
      | .absent => s.finish t stFieldInvalid 0
      | .quiet | .detached =>
        let s := s.resetEffect i
        let s := { s with
          store := { s.store with
            tables := s.store.tables.filter fun e => e.1.1 != i
            writes := s.store.writes.filter fun w => w.inst != i }
          pair := { s.pair with directory := s.pair.directory.filter fun e => e.1 != i } }
        ((s.setInst i Inst.absent).gcSegs).finish t stOk 0
      | _ => s.finish t stNotQuiesced 0

/-- MANAGER_TRANSFER (R504): the role moves once no manager-only command of the old manager is outstanding. A holding
log kept while the role was vacant becomes the new manager's (20 R583). The instance that the engine creates for the new manager takes its
queues with no check of the device's totals (03 R63; DESIGN CHOICE, log 258). -/
def execManagerTransfer (s : State) : Host.Outcome State Fault Refusal :=
  match s.glb.nextManager with
  | none => .next s
  | some m =>
    let busy := match s.glb.manager with
      | some o => s.rings.cmds.any fun c => c.tag.inst == o && managerOpcodes.contains c.opcode
      | none => false
    if busy then .next s
    else
      let old := s.glb.manager
      let s := { s with glb := { s.glb with manager := some m, nextManager := none } }
      let s := if (s.inst m).st = .absent then s.setInst m Inst.managerFirst else s
      let held := s.ras.holding
      let s := { s with ras := { s.ras with holding := [], holdSeq := 0 } }
      let s := forEach held s fun s r => s.deliver m r
      let s := match old with
        | some o => if o = m then s else s.raiseInst 519 o (m.setWidth 64) 0
        | none => s
      .next ((s.raiseInst 519 m (m.setWidth 64) 0).emit (.mgmt [m]))

/-! ### The Liaison Page (R524-R527) -/

/-- Whether a function reaches a page through BAR4 (R524). -/
def State.reachesPage (s : State) (writer page : BitVec 8) : Bool :=
  (s.fn writer).present && (s.inst page).st != .absent && (writer == page || s.isManager writer)

/-- The tenant side of a page: the function itself; the manager on its own page is the tenant (R525). -/
def isTenant (writer page : BitVec 8) : Bool := writer == page

/-- T_DB (R524, R526): with bit 0 set, LIAISON_TENANT is raised on the manager's PF unless it is still pending. -/
def State.ringTenant (s : State) (writer page : BitVec 8) (value : BitVec 64) : State :=
  if !s.ready || !s.reachesPage writer page || !isTenant writer page || !value.getLsbD 0 then s
  else
    let id := 768 + page.toNat
    match s.glb.manager with
    | some m =>
      if (s.fn m).evtPend.getLsbD id then s
      else (s.deliver m (s.record id page 0 0))
    | none =>
      if s.ras.holding.any (fun r => r.id == BitVec.ofNat 16 id) then s
      else (s.deliverManager (s.record id page 0 0))

/-- T_DB. -/
def execTDb (writer page : BitVec 8) (value : BitVec 64) (s : State) : Host.Outcome State Fault Refusal :=
  .next (s.ringTenant writer page value)

/-- M_DB (R524, R526): with bit 0 set, LIAISON_MANAGER is raised on the instance's function unless it is pending. -/
def State.ringManager (s : State) (writer page : BitVec 8) (value : BitVec 64) : State :=
  if !s.ready || !s.reachesPage writer page || isTenant writer page || !s.isManager writer || !value.getLsbD 0 then s
  else if (s.fn page).evtPend.getLsbD 518 then s
  else (s.raiseInst 518 page 0 0)

/-- M_DB. -/
def execMDb (writer page : BitVec 8) (value : BitVec 64) (s : State) : Host.Outcome State Fault Refusal :=
  .next (s.ringManager writer page value)

end Sys2Proof.Machine
end

