-- ==== Sys2Proof/Machine/Admin.lean ====
section
/-! DEFINITION. IDENTIFY, the features, POOL_REPORT and GET_LOG (17 R528-R530; 20 R593-R596). -/

namespace Sys2Proof.Machine

/-- The structure IDENTIFY writes (17 R528). -/
def State.identity (s : State) (i : BitVec 8) : Bytes :=
  let v := s.inst i
  padTo (leBytes 2 0x1F6A ++ leBytes 2 (if isPf i then 0x9640 else 0x9641) ++ [0xB1, i] ++
    leBytes 2 (Bool.asNat (s.isManager i) + 2 * Bool.asNat s.glb.straps.pairEn) ++ leBytes 4 s.fw.running.toNat ++
    leBytes 2 s.srcNode.toNat ++ leBytes 2 256 ++ leBytes 16 Config.serial.toNat ++
    leBytes 8 (s.poolGib * 2 ^ 30) ++ leBytes 2 v.maxSq.toNat ++ leBytes 2 v.maxCq.toNat ++
    leBytes 4 v.maxFlows.toNat ++ leBytes 2 (msixCount i)) 4096

/-- IDENTIFY (17 R528). -/
def execIdentify (t : Tag) (acc : HostAcc) (s : State) : Host.Outcome State Fault Refusal :=
  s.opcode t 0x01 fun c s =>
    if !c.clean [(16, 8)] || c.f 16 8 % 64 ≠ 0 then s.finish t stFieldInvalid 0
    else s.withWrite t none (BitVec.ofNat 64 (c.f 16 8)) (s.identity t.inst) acc fun s => s.finish t stOk 0

/-! ### Features -/

def featClean (c : Cmd) : Bool := c.clean [(16, 1), (24, 8)]

/-- SET_FEATURE (17 R529, 20 R593). -/
def execSetFeature (t : Tag) (s : State) : Host.Outcome State Fault Refusal :=
  s.opcode t 0x03 fun c s =>
    let v := c.f 24 8
    let i := t.inst
    if !featClean c then s.finish t stFieldInvalid 0
    else match c.f 16 1 with
      | 0x01 =>
        if !s.isManager i then s.finish t stNotAuthorized 0
        else if v < 1 || v > 16 then s.finish t stFieldInvalid 0
        else State.finish { s with disp := { s.disp with gap := BitVec.ofNat 5 v } } t stOk 0
      | 0x02 =>
        if v < 1 || v > 60000 then s.finish t stFieldInvalid 0
        else (s.modInst i fun x => { x with priTimeout := BitVec.ofNat 16 v }).finish t stOk 0
      | 0x10 =>
        if bit v 11 || v ≥ 2 ^ 30 || bits v 10 0 ≥ msixCount i then s.finish t stFieldInvalid 0
        else
          let vec := BitVec.ofNat 11 v
          (s.modFn i fun f => f.setVec vec { f.vec vec with count := bits v 19 12 + 1, time := bits v 29 20 }).finish
            t stOk 0
      | 0x11 =>
        if !s.isManager i then s.finish t stNotAuthorized 0
        else if v ≥ 65536 then s.finish t stFieldInvalid 0
        else State.finish { s with ras := { s.ras with ceThresh := BitVec.ofNat 16 v } } t stOk 0
      | _ => s.finish t stFieldInvalid 0

/-- GET_FEATURE (17 R529, 20 R593). -/
def execGetFeature (t : Tag) (s : State) : Host.Outcome State Fault Refusal :=
  s.opcode t 0x04 fun c s =>
    let v := c.f 24 8
    let i := t.inst
    let fid := c.f 16 1
    if !c.clean (if 0x10 ≤ fid ∧ fid ≤ 0x1F then [(16, 1), (24, 8)] else [(16, 1)]) then s.finish t stFieldInvalid 0
    else match fid with
      | 0x01 => s.finish t stOk (s.disp.gap.setWidth 64)
      | 0x02 => s.finish t stOk ((s.inst i).priTimeout.setWidth 64)
      | 0x10 =>
        if bits v 10 0 ≥ msixCount i then s.finish t stFieldInvalid 0
        else
          let x := (s.fn i).vec (BitVec.ofNat 11 v)
          s.finish t stOk (BitVec.ofNat 64 (bits v 10 0 + (x.count - 1) * 2 ^ 12 + x.time * 2 ^ 20))
      | 0x11 => s.finish t stOk (s.ras.ceThresh.setWidth 64)
      | _ => s.finish t stFieldInvalid 0

/-! ### POOL_REPORT -/

def InstState.code : InstState → Nat
  | .absent => 0
  | .serving => 1
  | .quiescing => 2
  | .quiet => 3
  | .detached => 4

/-- The report of POOL_REPORT (17 R530) for an instance, to the manager or not. -/
def State.report (s : State) (i : BitVec 8) (manager : Bool) : Bytes :=
  let v := s.inst i
  let device := leBytes 8 s.poolPages ++ leBytes 8 (s.poolPages - s.pagesDrawn) ++ leBytes 2 (4096 - s.sqDrawn) ++
    leBytes 2 (4096 - s.cqDrawn) ++ leBytes 2 (2560 - s.lsDrawn) ++ leBytes 2 s.live.length ++
    leBytes 4 (65536 - s.flowsDrawn) ++ zeros 4
  (if manager then device else zeros 32) ++
  leBytes 4 v.tablePages.toNat ++ leBytes 4 (s.tableUse i) ++ leBytes 4 v.spillPages.toNat ++ leBytes 4 (s.spillUse i) ++
  leBytes 4 v.sspillPages.toNat ++ leBytes 4 (s.sspillUse i) ++ leBytes 4 v.maxFlows.toNat ++
  leBytes 4 v.fetchRate.toNat ++
  leBytes 2 v.lsUnits.toNat ++ leBytes 2 (s.lsUse i) ++ leBytes 2 v.sqLimit.toNat ++ leBytes 2 (s.ioSqs i) ++
  leBytes 2 v.cqLimit.toNat ++ leBytes 2 (s.ioCqs i) ++ leBytes 2 v.maxSq.toNat ++ leBytes 2 v.maxCq.toNat ++
  [BitVec.ofNat 8 v.st.code, v.weight, v.pacerPct] ++ zeros 45

/-- POOL_REPORT (17 R530). -/
def execPoolReport (t : Tag) (acc : HostAcc) (s : State) : Host.Outcome State Fault Refusal :=
  s.opcode t 0x1D fun c s =>
    let i := BitVec.ofNat 8 (c.f 24 1)
    if !c.clean [(16, 8), (24, 1)] || c.f 16 8 % 64 ≠ 0 || !(s.isManager t.inst || i == t.inst) then
      s.finish t stFieldInvalid 0
    else s.withWrite t none (BitVec.ofNat 64 (c.f 16 8)) (s.report i (s.isManager t.inst)) acc fun s => s.finish t stOk 0

/-! ### GET_LOG -/

/-- An event record's bytes (20 R585). -/
def EvRec.bytes (r : EvRec) : Bytes :=
  leBytes 2 r.id.toNat ++ [r.inst, 0] ++ leBytes 4 r.eseq.toNat ++ leBytes 8 r.time.toNat ++ leBytes 8 r.d0.toNat ++
  leBytes 8 r.d1.toNat

/-- A RAS record's bytes (20 R598). -/
def RasRec.bytes (r : RasRec) : Bytes :=
  leBytes 2 r.id.toNat ++ [r.sev, r.inst] ++ leBytes 4 r.rseq.toNat ++ leBytes 8 r.time.toNat ++
  leBytes 8 r.d0.toNat ++ leBytes 8 r.d1.toNat ++ leBytes 32 r.extra.toNat

/-- One entry of the QUEUES log (20 R595). -/
def State.queueEntry (s : State) (i : BitVec 8) (q : BitVec 12) : Bytes :=
  match s.sq i q with
  | none => zeros 16
  | some v =>
    let st : BitVec 8 := match v.st with
      | .active => 1
      | .error => 2
      | .draining => 3
    [st, 0] ++ leBytes 2 v.head ++ leBytes 4 v.pass ++ leBytes 2 v.latchSlot.toNat ++
      [v.latchReason.setWidth 8] ++ zeros 5

/-- An accounting record's bytes (20 R596). -/
def Account.bytes (a : Account) : Bytes :=
  let b := leBytes 2 a.tag.sqid.toNat ++ leBytes 2 a.tag.cid.toNat ++ [a.state, 0] ++ leBytes 2 a.status.toNat ++
    leBytes 8 (40 * a.fetched).toNat ++ leBytes 8 (40 * a.finished).toNat ++
    a.totals.flatMap (fun x => leBytes 8 x.toNat) ++ leBytes 2 a.overflows.length ++ zeros 14 ++
    a.overflows.flatMap fun x => leBytes 4 x.toNat
  padTo b (roundUp b.length 64)

/-- Segments of an instance that are marked lost (16 R495), as the LOST log gives them. -/
def State.lostLog (s : State) (i : BitVec 8) : Bytes :=
  (s.store.tables.filter fun e => e.1.1 == i).flatMap fun e =>
    e.2.cells.flatMap fun c =>
      match AMap.find? s.store.segs c.2 with
      | some g => if g.lost then
          leBytes 8 (e.1.2.toNat + c.1.1.toNat * 2 ^ 16 + c.1.2.toNat * 2 ^ 32) else []
      | none => []

/-- The active query of a tag or its accounting record. -/
def State.account? (s : State) (t : Tag) : Option Account :=
  match s.query? t with
  | some q => some q.account
  | none => List.find? (fun (a : Account) => a.tag == t) (s.inst t.inst).accounts.reverse

/-- FW_VERSION and SVN in the header of a slot; an erased slot reads as ones (20 R603). -/
def FlashSlot.unit (m : FlashSlot) (n : Nat) : Bytes := AMap.get m n (List.replicate 4096 0xFF)
def FlashSlot.version (m : FlashSlot) : Nat := fld (m.unit 0) 4 4
def FlashSlot.svn (m : FlashSlot) : Nat := fld (m.unit 0) 8 2

/-- The directory copy that governs: none, or its contents and whether it is copy 1 (20 R602). -/
def Fw.governing (f : Fw) : Option (FlashDir × Bool) :=
  match f.dir0, f.dir1 with
  | none, none => none
  | some a, none => some (a, false)
  | none, some b => some (b, true)
  | some a, some b =>
    let d := (a.dseq - b.dseq).toNat
    let e := (b.dseq - a.dseq).toNat
    if 1 ≤ d ∧ d < 2 ^ 31 then some (a, false)
    else if 1 ≤ e ∧ e < 2 ^ 31 then some (b, true)
    else if Config.dirTie then some (b, true) else some (a, false)

/-- The active slot: true for B; A where no copy is valid (20 R602). -/
def Fw.activeB (f : Fw) : Bool := (f.governing.map (·.1.slotB)).getD false

/-- The FIRMWARE log (20 R595). -/
def Fw.log (f : Fw) : Bytes :=
  (List.range 64).map (Config.firmwareLog [f.slotA.version, f.slotA.svn, f.slotB.version, f.slotB.svn,
    Bool.asNat f.activeB, f.running.toNat, f.fuseSvn.toNat])

/-- The log a GET_LOG names, none where the name is invalid (20 R594, R595). -/
def State.logOf (s : State) (c : Cmd) : Option Bytes :=
  let i := BitVec.ofNat 8 (c.f 17 1)
  let key := (c.f 18 4 ≠ 0 : Bool)
  let mgr := s.isManager c.tag.inst
  let t : Tag := ⟨i, BitVec.ofNat 12 (c.f 18 2), BitVec.ofNat 16 (c.f 20 2)⟩
  if !mgr && i ≠ c.tag.inst then none
  else match c.f 16 1 with
    | 0x01 => if key then none else some ((s.fn i).evtLog.flatMap EvRec.bytes)
    | 0x02 => if key then none else
        some ((List.range 4096).flatMap fun q => s.queueEntry i (BitVec.ofNat 12 q))
    | 0x03 => if c.f 18 2 ≥ 4096 then none else (s.account? t).map Account.bytes
    | 0x04 => if c.f 18 2 ≥ 4096 then none else
        (s.query? t).map fun _ => (s.disp.items.filter fun x => x.query == t && x.st != .ended).flatMap Item.desc
    | 0x05 => if key || !mgr then none else some (s.ras.log.flatMap RasRec.bytes)
    | 0x06 => if key then none else some (s.lostLog i)
    | 0x07 => if key then none else some s.fw.log
    | _ => none

/-- GET_LOG (20 R594, R595); the manager's read of the RAS log rearms RAS_LOG_WRAP (R598). -/
def execGetLog (t : Tag) (acc : HostAcc) (s : State) : Host.Outcome State Fault Refusal :=
  s.opcode t 0x02 fun c s =>
    let len := c.f 32 4
    if !c.clean [(16, 6), (24, 16)] || c.f 24 8 % 64 ≠ 0 || len % 64 ≠ 0 || len < 64 || len > 1048576 ||
        c.f 36 4 % 64 ≠ 0 then s.finish t stFieldInvalid 0
    else match s.logOf c with
      | none => s.finish t stFieldInvalid 0
      | some log =>
        let out := slice log (c.f 36 4) len
        let result := BitVec.ofNat 64 (out.length + 2 ^ 32 * log.length)
        let done (s : State) : State :=
          let s := if c.f 16 1 = 5 then { s with ras := { s.ras with wrapped := false } } else s
          s.finish t stOk result
        if out.isEmpty then done s
        else s.withWrite t none (BitVec.ofNat 64 (c.f 24 8)) out acc done

end Sys2Proof.Machine
end

