-- ==== Sys2Proof/Machine/Flags.lean ====
section
/-! DEFINITION. Floating point with its exception flags (13 R400 FFLAGS, R405): IEEE 754 binary32 and binary64, rounded
to nearest, ties to even, subnormals kept, a NaN result canonical. Every result is computed exactly and rounded once. -/

namespace Sys2Proof.Machine

/-! ### Flags (R400) -/

def flNX : BitVec 5 := 1
def flUF : BitVec 5 := 2
def flOF : BitVec 5 := 4
def flDZ : BitVec 5 := 8
def flNV : BitVec 5 := 16

/-- A format: the bits of the exponent and of the fraction. -/
structure FFmt where
  eb : Nat
  mb : Nat
deriving DecidableEq, Repr

def f32 : FFmt := { eb := 8, mb := 23 }
def f64 : FFmt := { eb := 11, mb := 52 }

def FFmt.bias (f : FFmt) : Int := 2 ^ (f.eb - 1) - 1
def FFmt.infBits (f : FFmt) : Nat := (2 ^ f.eb - 1) * 2 ^ f.mb
def FFmt.signBit (f : FFmt) : Nat := 2 ^ (f.eb + f.mb)
/-- The canonical quiet NaN (R405). -/
def FFmt.qnan (f : FFmt) : Nat := f.infBits + 2 ^ (f.mb - 1)
def FFmt.signed (f : FFmt) (s : Bool) (n : Nat) : Nat := if s then f.signBit + n else n

/-- A number read from its bits: a finite one is ± m × 2^e. -/
inductive FNum where
  | nan (signalling : Bool)
  | inf (neg : Bool)
  | fin (neg : Bool) (m : Nat) (e : Int)
deriving DecidableEq, Repr

def FFmt.unpack (f : FFmt) (n : Nat) : FNum :=
  let frac := n % 2 ^ f.mb
  let ex := n / 2 ^ f.mb % 2 ^ f.eb
  let neg := decide (f.signBit ≤ n % (2 * f.signBit))
  if ex = 2 ^ f.eb - 1 then if frac = 0 then .inf neg else .nan (decide (frac < 2 ^ (f.mb - 1)))
  else if ex = 0 then .fin neg frac (1 - f.bias - f.mb)
  else .fin neg (frac + 2 ^ f.mb) (ex - f.bias - f.mb)

def FNum.isNan : FNum → Bool
  | .nan _ => true
  | _ => false

def FNum.signals : FNum → Bool
  | .nan b => b
  | _ => false

/-- m × 2^e brought to the quantum 2^q, to nearest with ties to even; `sticky` says that something below was cut off. The
second part says that the result is inexact. -/
def roundTo (m : Nat) (e q : Int) (sticky : Bool) : Nat × Bool :=
  if q ≤ e then (m * 2 ^ (e - q).toNat, sticky)
  else
    let k := (q - e).toNat
    let low := m % 2 ^ k
    let half := 2 ^ (k - 1)
    let up := decide (half < low) || (low == half && (sticky || m / 2 ^ k % 2 == 1))
    (m / 2 ^ k + Bool.asNat up, low != 0 || sticky)

/-- The bits and flags of ± m × 2^e rounded (R405). -/
def FFmt.round (f : FFmt) (neg : Bool) (m : Nat) (e : Int) (sticky : Bool) : Nat × BitVec 5 :=
  if m = 0 then (f.signed neg 0, 0)
  else
    let top : Int := Nat.log2 m + e
    let emin := 1 - f.bias
    let q := (if top < emin then emin else top) - f.mb
    let (r, inexact) := roundTo m e q sticky
    let bits := (q + f.mb + f.bias - 1).toNat * 2 ^ f.mb + r
    if f.infBits ≤ bits then (f.signed neg f.infBits, flOF ||| flNX)
    else
      let carried := decide ((roundTo m e (top - f.mb) sticky).1 = 2 ^ (f.mb + 1)) && decide (top + 1 = emin)
      let tiny := decide (top < emin) && (Config.tinyBefore || !carried)
      (f.signed neg bits, if inexact then flNX ||| (if tiny then flUF else 0) else 0)

/-- A NaN result, with the invalid flag where an operand signals or the operation is invalid. -/
def FFmt.nanOf (f : FFmt) (l : List FNum) (invalid : Bool) : Nat × BitVec 5 :=
  (f.qnan, if invalid || l.any FNum.signals then flNV else 0)

/-! ### Arithmetic -/

/-- The sum of two finite numbers given with signs, rounded once; an exact zero is +0 unless both are negative. -/
def FFmt.sumFin (f : FFmt) (n1 : Bool) (m1 : Nat) (e1 : Int) (n2 : Bool) (m2 : Nat) (e2 : Int) : Nat × BitVec 5 :=
  let e := if e1 < e2 then e1 else e2
  let v (n : Bool) (m : Nat) (x : Int) : Int := (if n then -1 else 1) * (m * 2 ^ (x - e).toNat : Nat)
  let t := v n1 m1 e1 + v n2 m2 e2
  if t = 0 then (f.signed (n1 && n2) 0, 0) else f.round (decide (t < 0)) t.natAbs e false

def FFmt.add (f : FFmt) (a b : Nat) : Nat × BitVec 5 :=
  match f.unpack a, f.unpack b with
  | .nan x, y => f.nanOf [.nan x, y] false
  | x, .nan y => f.nanOf [x, .nan y] false
  | .inf s, .inf t => if s = t then (f.signed s f.infBits, 0) else (f.qnan, flNV)
  | .inf s, _ => (f.signed s f.infBits, 0)
  | _, .inf t => (f.signed t f.infBits, 0)
  | .fin n1 m1 e1, .fin n2 m2 e2 => f.sumFin n1 m1 e1 n2 m2 e2

/-- The bits with the sign inverted. -/
def FFmt.negate (f : FFmt) (a : Nat) : Nat := if a < f.signBit then a + f.signBit else a - f.signBit

def FFmt.sub (f : FFmt) (a b : Nat) : Nat × BitVec 5 := f.add a (f.negate b)

def FFmt.mul (f : FFmt) (a b : Nat) : Nat × BitVec 5 :=
  match f.unpack a, f.unpack b with
  | .nan x, y => f.nanOf [.nan x, y] false
  | x, .nan y => f.nanOf [x, .nan y] false
  | .inf s, .inf t => (f.signed (s != t) f.infBits, 0)
  | .inf s, .fin t m _ => if m = 0 then (f.qnan, flNV) else (f.signed (s != t) f.infBits, 0)
  | .fin s m _, .inf t => if m = 0 then (f.qnan, flNV) else (f.signed (s != t) f.infBits, 0)
  | .fin s m1 e1, .fin t m2 e2 => f.round (s != t) (m1 * m2) (e1 + e2) false

def FFmt.div (f : FFmt) (a b : Nat) : Nat × BitVec 5 :=
  match f.unpack a, f.unpack b with
  | .nan x, y => f.nanOf [.nan x, y] false
  | x, .nan y => f.nanOf [x, .nan y] false
  | .inf _, .inf _ => (f.qnan, flNV)
  | .inf s, .fin t _ _ => (f.signed (s != t) f.infBits, 0)
  | .fin s _ _, .inf t => (f.signed (s != t) 0, 0)
  | .fin s m1 e1, .fin t m2 e2 =>
    if m2 = 0 then if m1 = 0 then (f.qnan, flNV) else (f.signed (s != t) f.infBits, flDZ)
    else
      let k := 2 * f.mb + 8
      f.round (s != t) (m1 * 2 ^ k / m2) (e1 - e2 - k) (m1 * 2 ^ k % m2 != 0)

/-- The integer square root, by bits from the top. -/
def isqrtFrom : Nat → Nat → Nat → Nat
  | 0, _, r => r
  | k + 1, n, r => isqrtFrom k n (if (r + 2 ^ k) * (r + 2 ^ k) ≤ n then r + 2 ^ k else r)

def FFmt.sqrt (f : FFmt) (a : Nat) : Nat × BitVec 5 :=
  match f.unpack a with
  | .nan x => f.nanOf [.nan x] false
  | .inf s => if s then (f.qnan, flNV) else (f.infBits, 0)
  | .fin s m e =>
    if m = 0 then (f.signed s 0, 0)
    else if s then (f.qnan, flNV)
    else
      let k := 2 * f.mb + 8 + (if e % 2 = 0 then 0 else 1)
      let n := m * 2 ^ k
      let r := isqrtFrom (2 * f.mb + 8) n 0
      f.round false r ((e - k) / 2) (r * r != n)

/-- c + a × b rounded once. -/
def FFmt.fma (f : FFmt) (a b c : Nat) : Nat × BitVec 5 :=
  let x := f.unpack a
  let y := f.unpack b
  let z := f.unpack c
  let zeroTimesInf : Bool := match x, y with
    | .inf _, .fin _ m _ => m == 0
    | .fin _ m _, .inf _ => m == 0
    | _, _ => false
  match x, y, z with
  | .nan _, _, _ => f.nanOf [x, y, z] false
  | _, .nan _, _ => f.nanOf [x, y, z] false
  | _, _, .nan _ => f.nanOf [z] (zeroTimesInf && Config.fmaInvalid)
  | .fin s m1 e1, .fin t m2 e2, .fin u m3 e3 => f.sumFin (s != t) (m1 * m2) (e1 + e2) u m3 e3
  | .fin _ _ _, .fin _ _ _, .inf u => (f.signed u f.infBits, 0)
  | _, _, .inf u =>
    if zeroTimesInf then (f.qnan, flNV)
    else if (decide (f.signBit ≤ a) != decide (f.signBit ≤ b)) = u then (f.signed u f.infBits, 0) else (f.qnan, flNV)
  | _, _, .fin _ _ _ =>
    if zeroTimesInf then (f.qnan, flNV)
    else (f.signed (decide (f.signBit ≤ a) != decide (f.signBit ≤ b)) f.infBits, 0)

/-! ### Comparisons, minimum and maximum -/

/-- The place of a number that is no NaN among the others; -0 and +0 apart when `zeros`. -/
def FFmt.place (f : FFmt) (zeros : Bool) (a : Nat) : Int :=
  if a < f.signBit then a else -(a - f.signBit : Nat) - (if zeros then 1 else 0)

/-- The three comparisons; with a NaN operand they are false (R405). A signalling NaN is invalid; whether a quiet one is,
IEEE 754 leaves to the choice of predicate. -/
inductive FCmp where
  | eq | lt | le
deriving DecidableEq, Repr

def FCmp.no : FCmp → Nat
  | .eq => 0
  | .lt => 1
  | .le => 2

def FFmt.compare (f : FFmt) (c : FCmp) (a b : Nat) : Bool × BitVec 5 :=
  let x := f.unpack a
  let y := f.unpack b
  if x.isNan || y.isNan then
    (false, if x.signals || y.signals || Config.quietInvalid c.no then flNV else 0)
  else
    let p := f.place false a
    let q := f.place false b
    (match c with
      | .eq => decide (p = q)
      | .lt => decide (p < q)
      | .le => decide (p ≤ q), 0)

/-- FMIN and FMAX (R405). -/
def FFmt.minMax (f : FFmt) (max_ : Bool) (a b : Nat) : Nat × BitVec 5 :=
  let x := f.unpack a
  let y := f.unpack b
  let fl : BitVec 5 := if x.signals || y.signals then flNV else 0
  if x.isNan then (if y.isNan then f.qnan else b, fl)
  else if y.isNan then (a, fl)
  else
    let less := decide (f.place true a < f.place true b)
    (if less != max_ then a else b, 0)

/-! ### Conversions -/

/-- To a signed integer of `w` bits: truncated, saturated, 0 for a NaN (R405); the bits in two's complement. -/
def FFmt.toInt (f : FFmt) (w a : Nat) : Nat × BitVec 5 :=
  let hi : Int := 2 ^ (w - 1) - 1
  let enc (v : Int) : Nat := (v % 2 ^ w).toNat
  match f.unpack a with
  | .nan _ => (0, flNV)
  | .inf neg => (enc (if neg then -hi - 1 else hi), flNV)
  | .fin neg m e =>
    let t : Nat := if 0 ≤ e then m * 2 ^ e.toNat else m / 2 ^ (-e).toNat
    let exact := decide (0 ≤ e) || m % 2 ^ (-e).toNat == 0
    let v : Int := if neg then -(t : Int) else t
    if hi < v then (enc hi, flNV)
    else if v < -hi - 1 then (enc (-hi - 1), flNV)
    else (enc v, if !exact && Config.convertInexact then flNX else 0)

/-- From an integer. -/
def FFmt.ofInt (f : FFmt) (v : Int) : Nat × BitVec 5 := f.round (decide (v < 0)) v.natAbs 0 false

/-- From the other format. -/
def FFmt.convert (f from_ : FFmt) (a : Nat) : Nat × BitVec 5 :=
  match from_.unpack a with
  | .nan x => f.nanOf [.nan x] false
  | .inf s => (f.signed s f.infBits, 0)
  | .fin s m e => f.round s m e false

/-- The magnitude and the negation; a NaN result is canonical. -/
def FFmt.absVal (f : FFmt) (a : Nat) : Nat :=
  if (f.unpack a).isNan then f.qnan else if a < f.signBit then a else a - f.signBit
def FFmt.negVal (f : FFmt) (a : Nat) : Nat := if (f.unpack a).isNan then f.qnan else f.negate a

/-- An exact sum of finite binary64 numbers, as an integer in units of 2^-1074. -/
def exact64 (a : Nat) : Int :=
  match f64.unpack a with
  | .fin neg m e => (if neg then -1 else 1) * (m * 2 ^ (e + 1074).toNat : Nat)
  | _ => 0

end Sys2Proof.Machine
end

