-- ==== Sys2Proof/Machine/Images.lean ====
section
/-! DEFINITION. Fertis images: reading and validating them (05 R145-R157 with the PARAMS of 08-13), and the commands
IMAGE_LOAD and IMAGE_UNLOAD (05 R158-R160). -/

namespace Sys2Proof.Machine

/-- A failure of validation: the reason (R155) and the INDEX (R156). -/
abbrev ImgErr := Nat × Nat

def rHeader : Nat := 0x0001
def rCrc : Nat := 0x0002
def rLayout : Nat := 0x0003
def rOperator : Nat := 0x0004
def rStream : Nat := 0x0005
def rGraph : Nat := 0x0006
def rKernel : Nat := 0x0007
def rAsa : Nat := 0x0008
def rParams : Nat := 0x0009
def rHandle : Nat := 0x000A
def rSubmit : Nat := 0x000B
def rChain : Nat := 0x000C
def rLimit : Nat := 0x000D

/-- The status of a reason (R156). -/
def reasonStatus (r : Nat) : BitVec 15 := if r = rCrc then stIntegrity else if r = rLimit then stQuota else stFieldInvalid

/-- RESULT of a validation failure (R158, R165). -/
def reasonResult (e : ImgErr) : BitVec 64 := BitVec.ofNat 64 (e.2 + 65536 * e.1)

/-- The first failure of a list of checks. -/
def firstErr (l : List (Bool × ImgErr)) : Option ImgErr := (l.find? (·.1)).map (·.2)

/-! ### Operator types (R148) -/

def opScan : Nat := 0x01
def opFilter : Nat := 0x02
def opAsaFilter : Nat := 0x03
def opCompute : Nat := 0x10
def opBuild : Nat := 0x20
def opProbe : Nat := 0x21
def opAggHash : Nat := 0x28
def opAggScalar : Nat := 0x29
def opSketch : Nat := 0x2A
def opSort : Nat := 0x30
def opMerge : Nat := 0x31
def opTopk : Nat := 0x32
def opLimit : Nat := 0x33
def opGather : Nat := 0x38
def opExchange : Nat := 0x39
def opUnion : Nat := 0x3A
def opHurdle : Nat := 0x40
def opCompress : Nat := 0x48
def opMaterialize : Nat := 0x49

/-- The least and greatest numbers of inputs and outputs of an operator type; `none` for a code that is not listed. -/
def opPorts (ty : Nat) : Option (Nat × Nat × Nat × Nat) :=
  if ty = opScan then some (0, 0, 1, 4)
  else if ty = opCompute then some (0, 8, 0, 4)
  else if ty = opProbe then some (2, 2, 1, 2)
  else if ty = opMerge || ty = opUnion then some (2, 8, 1, 1)
  else if ty = opHurdle then some (1, 8, 1, 4)
  else if ty = opCompress then some (1, 1, 0, 1)
  else if ty = opMaterialize then some (1, 1, 0, 0)
  else if [opFilter, opAsaFilter, opBuild, opAggHash, opAggScalar, opSketch, opSort, opTopk, opLimit, opGather,
      opExchange].contains ty then some (1, 1, 1, 1)
  else none

/-- The runner kind of an operator type; the Dispatcher itself evaluates HURDLE. -/
def opRunner (ty : Nat) : Option RunnerKind :=
  if ty = opScan || ty = opFilter then some .scan
  else if ty = opAsaFilter then some .pod
  else if ty = opCompute || ty = opLimit || ty = opUnion then some .ec
  else if ty = opBuild || ty = opProbe then some .join
  else if ty = opAggHash || ty = opAggScalar || ty = opSketch then some .agg
  else if ty = opSort || ty = opMerge || ty = opTopk then some .sort
  else if ty = opGather || ty = opMaterialize then some .gather
  else if ty = opExchange then some .peer
  else if ty = opCompress then some .comp
  else none

def OpDesc.code (o : OpDesc) : Nat := o.ty.toNat
/-- A field of the PARAMS. -/
def OpDesc.p (o : OpDesc) (off n : Nat) : Nat := fld o.params off n

/-! ### The image's parts -/

def imgOps (bs : Bytes) : Nat := fld bs 16 2
def imgStreams (bs : Bytes) : Nat := fld bs 18 2
def imgKernels (bs : Bytes) : Nat := fld bs 20 2
def imgAsas (bs : Bytes) : Nat := fld bs 22 2

def opAt (bs : Bytes) (k : Nat) : Bytes := slice bs (fld bs 24 4 + 128 * k) 128
def streamAt (bs : Bytes) (k : Nat) : Bytes := slice bs (fld bs 28 4 + 32 * k) 32
def kernelAt (bs : Bytes) (k : Nat) : Bytes := slice bs (fld bs 32 4 + 32 * k) 32
def asaAt (bs : Bytes) (k : Nat) : Bytes := slice bs (fld bs 44 4 + 32 * k) 32

/-- Record bytes and key bits of an ASA width (R344). -/
def asaRec (w : Nat) : Nat := if w = 0 then 16 else if w = 1 then 24 else if w = 2 then 32 else 48
def asaBits (w : Nat) : Nat := if w = 0 then 40 else if w = 1 then 80 else if w = 2 then 160 else 320

def readOp (bs : Bytes) : OpDesc where
  ty := BitVec.ofNat 8 (fld bs 0 1)
  atomic := bit (fld bs 1 1) 0
  preempt := bit (fld bs 1 1) 1
  ins := (List.range (fld bs 4 1)).map fun k => BitVec.ofNat 16 (fld bs (8 + 2 * k) 2)
  outs := (List.range (fld bs 5 1)).map fun k => BitVec.ofNat 16 (fld bs (24 + 2 * k) 2)
  kernel := BitVec.ofNat 16 (fld bs 6 2)
  chain := BitVec.ofNat 8 (fld bs 32 1)
  params := slice bs 48 80

def readStream (bs : Bytes) : StreamDesc where
  producer := BitVec.ofNat 16 (fld bs 2 2)
  consumer := BitVec.ofNat 16 (fld bs 4 2)
  prodPort := BitVec.ofNat 8 (fld bs 6 1)
  consPort := BitVec.ofNat 8 (fld bs 7 1)
  elem := BitVec.ofNat 3 (fld bs 8 1)
  framed := bit (fld bs 8 1) 3
  spillKib := BitVec.ofNat 32 (if fld bs 12 4 = 0 then 64 else fld bs 12 4)

def readKernel (img bs : Bytes) : KernelDesc where
  code := slice img (fld bs 0 4) (fld bs 4 4)
  entry := BitVec.ofNat 32 (fld bs 8 4)
  scratchKib := BitVec.ofNat 16 (fld bs 12 2)
  minVlenb := BitVec.ofNat 16 (fld bs 16 2)

def readAsa (img bs : Bytes) : AsaDesc :=
  let c := slice img (fld bs 0 4) (fld bs 4 4)
  let w := fld bs 10 1
  let n := fld bs 8 2
  { width := BitVec.ofNat 2 w, entries := n, cascade := bit (fld c 8 1) 0, casId := BitVec.ofNat 32 (fld c 12 4),
    recs := (List.range n).map fun k =>
      let r := slice c (64 + k * asaRec w) (asaRec w)
      (BitVec.ofNat 320 (fld r 8 (asaRec w - 8)), BitVec.ofNat 32 (fld r 0 4)) }

def readImage (bs : Bytes) : Image where
  ops := (List.range (imgOps bs)).map fun k => readOp (opAt bs k)
  streams := (List.range (imgStreams bs)).map fun k => readStream (streamAt bs k)
  kernels := (List.range (imgKernels bs)).map fun k => readKernel bs (kernelAt bs k)
  asas := (List.range (imgAsas bs)).map fun k => readAsa bs (asaAt bs k)
  consts := slice bs (fld bs 36 4) (fld bs 40 4)
  paramSize := fld bs 48 2
  nChains := fld bs 50 1

/-! ### Steps 1 to 3 (R155) -/

/-- Whether an image length that a command gives can be one (R155 step 1). -/
def imgLenOk (n : Nat) : Bool := n % 64 == 0 && decide (128 ≤ n) && decide (n ≤ 16777216)

/-- The header's fields (R145). -/
def headerBad (bs : Bytes) (len : Nat) : Bool :=
  !imgLenOk len || fld bs 8 4 ≠ len || fld bs 0 4 ≠ 0x31495046 || fld bs 4 1 ≠ 1 || fld bs 5 1 ≠ 0 ||
  fld bs 6 2 ≠ 0 || imgOps bs < 1 || imgOps bs > 1024 || imgStreams bs > 4096 || imgKernels bs > 256 ||
  imgAsas bs > 16 || (imgStreams bs = 0 && fld bs 28 4 ≠ 0) || (imgKernels bs = 0 && fld bs 32 4 ≠ 0) ||
  (fld bs 40 4 = 0 && fld bs 36 4 ≠ 0) || (imgAsas bs = 0 && fld bs 44 4 ≠ 0) || fld bs 40 4 % 8 ≠ 0 ||
  fld bs 40 4 > 1048576 || fld bs 48 2 % 8 ≠ 0 || fld bs 48 2 > 4096 || fld bs 50 1 < 1 || fld bs 50 1 > 16 ||
  fld bs 51 1 ≠ 0 || fld bs 56 8 ≠ 0

/-- The regions in the order of their checks: the INDEX a failure reports, the offset and the length (R146, R156). -/
def imgRegions (bs : Bytes) : List (Nat × Nat × Nat) :=
  ([(0xFFFF, fld bs 24 4, 128 * imgOps bs), (0xFFFF, fld bs 28 4, 32 * imgStreams bs),
    (0xFFFF, fld bs 32 4, 32 * imgKernels bs), (0xFFFF, fld bs 36 4, fld bs 40 4),
    (0xFFFF, fld bs 44 4, 32 * imgAsas bs)].filter fun r => r.2.2 ≠ 0) ++
  ((List.range (imgKernels bs)).map fun k => (k, fld (kernelAt bs k) 0 4, fld (kernelAt bs k) 4 4)) ++
  ((List.range (imgAsas bs)).map fun k => (k, fld (asaAt bs k) 0 4, fld (asaAt bs k) 4 4))

/-- The regions placed one after another: a region starts at a non-zero multiple of 64, lies within the image and
overlaps no region placed before it (R146). -/
def placeErr (size : Nat) : List (Nat × Nat) → List (Nat × Nat × Nat) → Option ImgErr
  | _, [] => none
  | placed, (i, off, n) :: r =>
    if off % 64 ≠ 0 || off = 0 || off + n > size || placed.any (fun q => decide (off < q.2) && decide (q.1 < off + n)) then
      some (rLayout, i)
    else placeErr size ((off, off + n) :: placed) r

/-- Bytes no region covers are 0 (R146). -/
def paddingOk : Nat → List (Nat × Nat × Nat) → Bytes → Bool
  | pos, [], bs => allZero (bs.drop pos)
  | pos, (_, off, n) :: r, bs => allZero (slice bs pos (off - pos)) && paddingOk (max pos (off + n)) r bs

def layoutErr (bs : Bytes) : Option ImgErr :=
  match placeErr bs.length [] (imgRegions bs) with
  | some e => some e
  | none =>
    if paddingOk 64 (sortBy (fun a b => decide (a.2.1 < b.2.1)) (imgRegions bs)) bs then none
    else some (rLayout, 0xFFFF)

/-! ### Steps 4 to 6 (R147-R154, R343-R345) -/

/-- Whether an operator descriptor breaks R147 to R149; whether KERNEL of a COMPUTE names a kernel section is a check of its PARAMS
(13 R416). -/
def opBad (bs : Bytes) (k nChains : Nat) : Bool :=
  let ty := fld bs 0 1
  let nIn := fld bs 4 1
  let nOut := fld bs 5 1
  let chain := fld bs 32 1
  match opPorts ty with
  | none => true
  | some (il, ih, ol, oh) =>
    fld bs 1 1 ≥ 4 || fld bs 2 2 ≠ k || nIn < il || nIn > ih || nOut < ol || nOut > oh ||
    (ty = opCompute && nIn + nOut = 0) || (ty = opHurdle && nOut > nIn) ||
    (ty ≠ opCompute && fld bs 6 2 ≠ 0xFFFF) ||
    ((List.range 8).any fun j => decide (nIn ≤ j) && fld bs (8 + 2 * j) 2 ≠ 0xFFFF) ||
    ((List.range 4).any fun j => decide (nOut ≤ j) && fld bs (24 + 2 * j) 2 ≠ 0xFFFF) ||
    (if ty = opMaterialize || (ty = opCompress && nOut = 0) then decide (nChains ≤ chain) else chain ≠ 0xFF) ||
    !allZero (slice bs 33 15)

/-- Each chain is named by exactly one operator (R149). -/
def chainErr (nChains : Nat) : Nat → List Nat → List OpDesc → Option ImgErr
  | _, seen, [] => if (List.range nChains).all seen.contains then none else some (rOperator, 0xFFFF)
  | k, seen, o :: r =>
    if o.chain = 0xFF then chainErr nChains (k + 1) seen r
    else if seen.contains o.chain.toNat then some (rOperator, k)
    else chainErr nChains (k + 1) (o.chain.toNat :: seen) r

/-- Whether a stream descriptor breaks R151. -/
def streamBad (bs : Bytes) (k nOps : Nat) : Bool :=
  fld bs 0 2 ≠ k || fld bs 2 2 ≥ nOps || fld bs 4 2 ≥ nOps || fld bs 6 1 > 3 || fld bs 7 1 > 7 ||
  fld bs 8 1 % 8 > 4 || fld bs 8 1 ≥ 16 || fld bs 9 3 ≠ 0 ||
  (fld bs 12 4 ≠ 0 && (fld bs 12 4 < 64 || fld bs 12 4 > 1048576)) || !allZero (slice bs 16 16)

def Image.op? (im : Image) (k : Nat) : Option OpDesc := im.ops[k]?
def Image.stream? (im : Image) (k : Nat) : Option StreamDesc := im.streams[k]?

/-- Whether an operator runs on ECs, so that its streams may be unframed (R152). -/
def onEc (o : Option OpDesc) : Bool := (o.bind fun o => opRunner o.code) == some .ec

/-- Whether a stream breaks R152. -/
def graphStreamBad (im : Image) (k : Nat) (d : StreamDesc) : Bool :=
  d.producer == d.consumer ||
  ((im.op? d.producer.toNat).bind fun o => o.outs[d.prodPort.toNat]?) ≠ some (BitVec.ofNat 16 k) ||
  ((im.op? d.consumer.toNat).bind fun o => o.ins[d.consPort.toNat]?) ≠ some (BitVec.ofNat 16 k) ||
  (!d.framed && !(onEc (im.op? d.producer.toNat) && onEc (im.op? d.consumer.toNat)))

/-- Whether a port of an operator names no stream of its own (R152). -/
def graphOpBad (im : Image) (k : Nat) (o : OpDesc) : Bool :=
  o.ins.zipIdx.any (fun e => match im.stream? e.1.toNat with
    | some d => d.consumer.toNat ≠ k || d.consPort.toNat ≠ e.2
    | none => true) ||
  o.outs.zipIdx.any (fun e => match im.stream? e.1.toNat with
    | some d => d.producer.toNat ≠ k || d.prodPort.toNat ≠ e.2
    | none => true)

/-- Operators that lie on a cycle or between cycles: what is left when those without a left-over producer and those
without a left-over consumer have been taken away. -/
def cycleRest (edges : List (Nat × Nat)) : Nat → List Nat → List Nat
  | 0, l => l
  | fuel + 1, l =>
    let l' := l.filter fun k => edges.any (fun e => e.2 == k && l.contains e.1) && edges.any (fun e => e.1 == k && l.contains e.2)
    if l'.length = l.length then l else cycleRest edges fuel l'

def graphErr (im : Image) : Option ImgErr :=
  match im.streams.zipIdx.find? fun e => graphStreamBad im e.2 e.1 with
  | some e => some (rGraph, e.2)
  | none =>
    match im.ops.zipIdx.find? fun e => graphOpBad im e.2 e.1 with
    | some e => some (rGraph, e.2)
    | none =>
      let edges := im.streams.map fun d => (d.producer.toNat, d.consumer.toNat)
      match cycleRest edges (im.ops.length + 1) (List.range im.ops.length) with
      | k :: _ => some (rGraph, k)
      | [] => none

/-- Whether a kernel section breaks R153. -/
def kernelBad (bs : Bytes) : Bool :=
  fld bs 4 4 % 4 ≠ 0 || fld bs 4 4 < 4 || fld bs 4 4 > 1048576 || fld bs 8 4 % 4 ≠ 0 || fld bs 8 4 ≥ fld bs 4 4 ||
  fld bs 12 2 > 224 || fld bs 14 1 ≠ 1 || fld bs 15 1 ≠ 0 || !([0, 16, 32, 64, 128, 256].contains (fld bs 16 2)) ||
  !allZero (slice bs 18 14)

/-- Whether an ASA image breaks R154, R343 or R344. -/
def asaBad (img bs : Bytes) (k : Nat) : Bool :=
  let w := fld bs 10 1
  let n := fld bs 8 2
  let c := slice img (fld bs 0 4) (fld bs 4 4)
  n < 1 || n > (if w = 3 then 2048 else 4096) || w > 3 || fld bs 11 1 ≠ k || !allZero (slice bs 12 20) ||
  fld bs 4 4 ≠ 64 + n * asaRec w || fld c 0 4 ≠ 0x31415341 || fld c 4 1 ≠ 1 || fld c 5 1 ≠ w || fld c 6 2 ≠ n ||
  fld c 8 1 > 1 || fld c 9 3 ≠ 0 || (fld c 8 1 = 0 && fld c 12 4 ≠ 0) || !allZero (slice c 16 48) ||
  (List.range n).any fun j =>
    let r := slice c (64 + j * asaRec w) (asaRec w)
    fld r 4 4 ≠ 0 || decide (2 ^ asaBits w ≤ fld r 8 (asaRec w - 8))

/-! ### Value references (R150) -/

/-- What a value reference gives: nothing (SRC 0), its bytes, a place in a parameter block that is not there yet, or a
breach of R150. -/
inductive RefVal where
  | absent
  | unseen
  | data (bs : Bytes)
  | bad
deriving DecidableEq, Repr

/-- A reference to `len` bytes. -/
def Image.ref (im : Image) (params : Option Bytes) (r len : Nat) : RefVal :=
  let off := r % 2 ^ 30
  let src := r / 2 ^ 30
  if src = 0 then if off = 0 then .absent else .bad
  else if src = 1 then if off + len ≤ im.consts.length then .data (slice im.consts off len) else .bad
  else if src = 2 then
    if off + len ≤ im.paramSize then
      match params with
      | some p => .data (slice p off len)
      | none => .unseen
    else .bad
  else .bad

/-- Whether a reference is one to something (SRC 1 or 2), within its area. -/
def RefVal.given : RefVal → Bool
  | .data _ | .unseen => true
  | .absent | .bad => false

/-- Whether a reference breaks R150. -/
def RefVal.isBad : RefVal → Bool
  | .bad => true
  | _ => false

/-- A test of the bytes, where they can be read. -/
def RefVal.all (v : RefVal) (f : Bytes → Bool) : Bool :=
  match v with
  | .data bs => f bs
  | _ => true

/-- The bytes of a reference, none for SRC 0. -/
def RefVal.bytes : RefVal → Bytes
  | .data bs => bs
  | _ => []

/-! ### Step 7: the operators' PARAMS -/

/-- A column entry of SCAN (08 R247). -/
structure ScanCol where
  column : Nat
  port   : Nat
  emit   : Nat
  npred  : Nat
  preds  : Nat
deriving DecidableEq, Repr

/-- A predicate entry (08 R248). -/
structure Pred where
  op     : Nat
  group  : Nat
  ftotal : Bool
  asa    : Nat
  run    : Nat
  v1     : Nat
  v2     : Nat
deriving DecidableEq, Repr

def readCol (bs : Bytes) : ScanCol where
  column := fld bs 0 2 % 4096
  port := fld bs 2 1 % 4
  emit := fld bs 2 1 / 4 % 4
  npred := fld bs 3 1
  preds := fld bs 4 4

def readPred (bs : Bytes) : Pred where
  op := fld bs 0 1
  group := fld bs 1 1 % 16
  ftotal := bit (fld bs 1 1) 4
  asa := fld bs 2 1
  run := fld bs 3 1
  v1 := fld bs 4 4
  v2 := fld bs 8 4

/-- The entries of a list of `n` entries of `size` bytes. -/
def entries (size n : Nat) (bs : Bytes) : List Bytes := (List.range n).map fun k => slice bs (size * k) size

/-- Operands a comparison takes: whether V1 and V2 are given (08 R249). -/
def predOperands (op : Nat) : Bool × Bool :=
  if op = 7 then (true, true) else if op ≤ 6 || op = 12 then (true, false) else (false, false)

/-- Whether a predicate entry is well formed; `maxRun` bounds RUN (08 R248, R249, R251). -/
def predOk (im : Image) (params : Option Bytes) (maxRun : Nat) (bs : Bytes) : Bool :=
  let p := readPred bs
  let operand (want : Bool) (r : Nat) : Bool :=
    if want then (im.ref params r 1).given else (im.ref params r 1) == .absent
  decide (1 ≤ p.op) && decide (p.op ≤ 12) && decide (fld bs 1 1 < 32) &&
  (if p.op = 10 || p.op = 11 then decide (p.asa < im.asas.length) else p.asa == 0xFF) && decide (p.run ≤ maxRun) &&
  operand (predOperands p.op).1 p.v1 && operand (predOperands p.op).2 p.v2 && fld bs 12 4 == 0

/-- Whether every predicate of a list is well formed. -/
def predsOk (im : Image) (params : Option Bytes) (maxRun n r : Nat) : Bool :=
  let v := im.ref params r (16 * n)
  v.given && v.all fun bs => (entries 16 n bs).all (predOk im params maxRun)

def colOk (im : Image) (params : Option Bytes) (nOut : Nat) (bs : Bytes) : Bool :=
  let c := readCol bs
  decide (fld bs 0 2 < 4096) && decide (c.port < nOut) && decide (fld bs 2 1 < 16) && c.emit != 3 &&
  decide (c.npred ≤ 8) && !(c.emit == 0 && c.npred == 0) && allZero (slice bs 8 8) &&
  (if c.npred = 0 then (im.ref params c.preds 1) == .absent else predsOk im params 0 c.npred c.preds)

/-- Whether the key runs of an operator are well formed: indices below NKEYS, 0xFF above (09 R276). -/
def keysOk (o : OpDesc) (nkeys : Nat) : Bool :=
  (List.range 8).all fun k => if k < nkeys then decide (o.p k 1 < 64) else o.p k 1 == 0xFF

/-- A function of AGG and SKETCH: its entry (09 R292). -/
structure AggFn where
  code  : Nat
  run   : Nat
  dsum  : Bool
  wide  : Bool
  itype : Nat
  arg   : Nat
deriving DecidableEq, Repr

def readFn (bs : Bytes) : AggFn where
  code := fld bs 0 1
  run := fld bs 1 1
  dsum := bit (fld bs 2 1) 0
  wide := bit (fld bs 2 1) 1
  itype := fld bs 3 1
  arg := fld bs 4 4

def isInt (ty : Nat) : Bool := decide (0x02 ≤ ty) && decide (ty ≤ 0x09)
def isDec (ty : Nat) : Bool := ty == 0x0C || ty == 0x0D
/-- A run type of a frame (06 R192). -/
def isRunType (ty : Nat) : Bool := isType ty || ty == 0x20 || ty == 0x21

/-- Whether a function accepts an input run type (09 R293). -/
def fnAccepts (code ty : Nat) : Bool :=
  if code = 0x03 || code = 0x04 then isInt ty || isDec ty || isFloat ty
  else if code = 0x07 || code = 0x08 then ty == 0x01 || isInt ty
  else if code = 0x0C || code = 0x11 then isInt ty || isFloat ty || ty == 0x0C || ty == 0x0E || ty == 0x0F
  else if code = 0x12 || code = 0x13 then ty == 0x11
  else code != 0x01 && isRunType ty

/-- Whether an operator allows a function (09 R293). -/
def fnAllowed (op code : Nat) : Bool :=
  if op = opSketch then [0x01, 0x02, 0x10, 0x11, 0x12, 0x13].contains code
  else decide (1 ≤ code) && decide (code ≤ 0x0C) || code == 0x12 || code == 0x13

/-- A FLOAT64 from 0 to 1. -/
def isFraction (bs : Bytes) : Bool := decide (leNat bs ≤ 0x3FF0000000000000) || leNat bs == 0x8000000000000000

/-- Whether a function entry is well formed (09 R292, R293). -/
def fnOk (im : Image) (params : Option Bytes) (op : Nat) (bs : Bytes) : Bool :=
  let f := readFn bs
  let quant := f.code == 0x0C || (f.code == 0x13 && op != opSketch)
  fnAllowed op f.code && (if f.code = 1 then f.run == 0xFF else decide (f.run < 64)) && decide (fld bs 2 1 < 4) &&
  ((!f.dsum && !f.wide) || f.code == 3 || f.code == 4) &&
  (f.itype == 0 || (isType f.itype && fnAccepts f.code f.itype)) &&
  (if quant then (im.ref params f.arg 8).given && (im.ref params f.arg 8).all isFraction
   else (im.ref params f.arg 8) == .absent)

/-- PFLOWS and PARTS in effect (09 R291). -/
def OpDesc.pflows (o : OpDesc) : Nat := if o.p 10 1 = 0 then 8 else o.p 10 1
def OpDesc.parts (o : OpDesc) : Nat :=
  if o.code = opAggScalar || (o.code = opSketch && o.p 8 1 = 0) then 1 else if o.p 11 1 = 0 then 8 else o.p 11 1

/-- The operator that a stream's words come from, past every HURDLE (10 R331), and the stream its producer writes. -/
def Image.rootStream (im : Image) : Nat → Nat → Nat
  | 0, k => k
  | fuel + 1, k =>
    match im.stream? k with
    | none => k
    | some d =>
      match im.op? d.producer.toNat with
      | none => k
      | some o =>
        if o.code = opHurdle then
          match o.ins[d.prodPort.toNat]? with
          | some j => im.rootStream fuel j.toNat
          | none => k
        else k

def Image.root (im : Image) (k : Nat) : Nat := im.rootStream im.ops.length k

/-- The operator that reads a stream's words in the end, past every HURDLE, with its port; none where a HURDLE only
watches the stream. -/
def Image.reader (im : Image) : Nat → Nat → Option (Nat × Nat)
  | 0, _ => none
  | fuel + 1, k =>
    match im.stream? k with
    | none => none
    | some d =>
      match im.op? d.consumer.toNat with
      | none => none
      | some o =>
        if o.code = opHurdle then
          match o.outs[d.consPort.toNat]? with
          | some j => im.reader fuel j.toNat
          | none => none
        else some (d.consumer.toNat, d.consPort.toNat)

/-- The HASH_BUILD that feeds port 0 of a probe. -/
def Image.buildOf (im : Image) (o : OpDesc) : Option Nat :=
  match o.ins[0]? with
  | none => none
  | some k =>
    match im.stream? (im.root k.toNat) with
    | some d => if (im.op? d.producer.toNat).any (fun b => b.code == opBuild) then some d.producer.toNat else none
    | none => none

/-- The positions of the bits set in a mask of runs (CARRY, PAYLOAD). -/
def maskRuns (m : Nat) : List Nat := (List.range 64).filter (bit m)

/-- Kinds of a HASH_PROBE whose output is probe runs only, or build runs only (09 R283). -/
def probeOnly (kind : Nat) : Bool := kind == 4 || kind == 5 || kind == 6
def buildOnly (kind : Nat) : Bool := kind == 7 || kind == 8

/-- The runs that a HASH_PROBE puts out, from its CARRY and its build's PAYLOAD (09 R283, R304). -/
def probeRuns (o b : OpDesc) : Nat :=
  (if buildOnly (o.p 17 1) then 0 else (maskRuns (o.p 8 8)).length) +
  (if probeOnly (o.p 17 1) then 0 else (maskRuns (b.p 8 8)).length)

/-- A type code of fixed width other than BOOL (10 R318). -/
def hostType (ty : Nat) : Bool := decide (0x02 ≤ ty) && decide (ty ≤ 0x0F)

/-- Whether the PARAMS of an operator meet the rules of its chapter, with what can be read of its references (R155
step 7). -/
def paramsOk (im : Image) (params : Option Bytes) (o : OpDesc) : Bool :=
  let ref (off len : Nat) : RefVal := im.ref params (o.p off 4) len
  let zero (off : Nat) : Bool := allZero (o.params.drop off)
  let nOut := o.outs.length
  if o.code = opScan then
    let n := o.p 6 1
    let cols := ref 0 (16 * n)
    let slots := ref 16 8
    let runs (l : List Bytes) (port : Nat) : Nat :=
      (l.filter fun b => (readCol b).port == port && (readCol b).emit != 0).length + o.p 7 1 % 2
    decide (1 ≤ n) && decide (n ≤ 64) && decide (o.p 7 1 < 8) && decide (o.p 8 4 < 2 ^ 20) && decide (o.p 12 4 < 2 ^ 20) &&
    decide (o.p 8 4 ≤ o.p 12 4) && !slots.isBad &&
    slots.all (fun b => decide (fld b 0 4 ≤ fld b 4 4) && decide (fld b 4 4 < 2 ^ 20)) && zero 20 && cols.given &&
    cols.all fun b =>
      let l := entries 16 n b
      l.all (colOk im params nOut) &&
      (List.range nOut).all fun port => decide (1 ≤ runs l port) && decide (runs l port ≤ 64)
  else if o.code = opFilter then
    decide (1 ≤ o.p 4 1) && decide (o.p 4 1 ≤ 64) && decide (o.p 5 1 < 2) && zero 6 &&
    predsOk im params 63 (o.p 4 1) (o.p 0 4)
  else if o.code = opAsaFilter then
    decide (o.p 0 1 < 64) && decide (o.p 1 1 < im.asas.length) && decide (o.p 2 1 % 4 < 3) && decide (o.p 2 1 < 16) &&
    o.p 3 1 == 0 && !(ref 4 (asaBits ((im.asas[o.p 1 1]?).elim 0 (·.width.toNat)) / 8)).isBad && zero 8
  else if o.code = opCompute then
    let args := ref 0 (o.p 4 2)
    let total := ref 12 8
    let nIn := o.ins.length
    let port := o.p 6 1
    let scratch := ((im.kernels[o.kernel.toNat]?).elim 0 (·.scratchKib.toNat)) * 1024
    let in0framed := ((o.ins[0]?).bind fun k => im.stream? k.toNat).elim true (·.framed)
    (if o.p 4 2 = 0 then args == .absent else args.given) && (decide (port < nIn) || port == 0xFF) && o.p 7 1 == 0 &&
    decide (o.p 8 4 ≤ 4194304) && (if port = 0xFF then total.given else total == .absent) && zero 16 &&
    decide (o.kernel.toNat < im.kernels.length) && decide (o.p 4 2 ≤ scratch) && (o.atomic || (decide (nIn ≤ 1) && (nIn == 0 || (in0framed && port == 0))))
  else if o.code = opBuild then
    let n := o.p 16 1
    decide (1 ≤ n) && decide (n ≤ 8) && keysOk o n && decide (o.p 17 1 < 8) && zero 18 &&
    match o.outs[0]? with
    | some k =>
      match im.reader (im.ops.length + 1) k.toNat with
      | some (c, 0) => (im.op? c).any fun r => r.code == opProbe
      | _ => false
    | none => false
  else if o.code = opProbe then
    let n := o.p 16 1
    decide (1 ≤ n) && decide (n ≤ 8) && keysOk o n && decide (o.p 17 1 ≤ 8) && (o.p 17 1 != 6 || n == 1) &&
    decide (o.p 18 1 < 2) && zero 19 &&
    match (im.buildOf o).bind im.op? with
    | some b => b.p 16 1 == n && bit (b.p 17 1) 1 == bit (o.p 18 1) 0 && decide (probeRuns o b ≤ 64)
    | none => false
  else if o.code = opAggHash || o.code = opAggScalar || o.code = opSketch then
    let n := o.p 8 1
    let f := ref 12 (8 * o.p 9 1)
    o.atomic && keysOk o n && decide (n ≤ 8) && (o.code != opAggHash || decide (1 ≤ n)) &&
    (o.code != opAggScalar || (n == 0 && o.p 11 1 == 0)) && decide (1 ≤ o.p 9 1) && decide (o.p 9 1 ≤ 16) &&
    decide (o.p 10 1 ≤ 8) && decide (o.p 11 1 ≤ 64) && f.given && decide (o.p 16 1 < 2) && zero 17 &&
    f.all fun b => (entries 8 (o.p 9 1) b).all (fnOk im params o.code)
  else if o.code = opSort || o.code = opMerge || o.code = opTopk then
    let n := o.p 16 1
    decide (1 ≤ n) && decide (n ≤ 8) && keysOk o n &&
    ((List.range 8).all fun k => if k < n then decide (o.p (8 + k) 1 < 4) else o.p (8 + k) 1 == 0) &&
    decide (o.p 17 1 < 2) && o.p 18 2 == 0 &&
    (if o.code = opTopk then decide (1 ≤ o.p 20 4) && decide (o.p 20 4 ≤ 65536) else o.p 20 4 == 0) && zero 24
  else if o.code = opLimit then
    o.atomic && !(ref 0 8).isBad && (ref 4 8).given && zero 8
  else if o.code = opGather then
    let host := o.p 0 1 == 1
    let size := if host then 32 else 8
    let g := ref 4 (size * o.p 2 1)
    decide (o.p 0 1 ≤ 1) && decide (o.p 1 1 < 64) && decide (1 ≤ o.p 2 1) && decide (o.p 2 1 ≤ 16) && o.p 3 1 == 0 &&
    (!host || o.p 8 2 == 0) && zero 10 && g.given &&
    g.all fun b => (entries size (o.p 2 1) b).all fun e =>
      if host then hostType (fld e 24 1) && fld e 0 8 % tyBytes (fld e 24 1) == 0 && decide (1 ≤ fld e 16 8) &&
        allZero (slice e 25 7)
      else decide (fld e 0 2 < 4096) && allZero (slice e 2 6)
  else if o.code = opExchange then
    let n := o.p 8 1
    let np := o.p 16 2
    let nodes := ref 12 (2 * np)
    keysOk o n && decide (o.p 9 1 ≤ 1) && (if o.p 9 1 = 0 then decide (1 ≤ n) && decide (n ≤ 8) else n == 0) &&
    decide (o.p 10 1 < 2) && o.p 11 1 == 0 && decide (1 ≤ np) && decide (np ≤ 4096) && o.p 18 2 == 0 && nodes.given &&
    nodes.all (fun b =>
      let l := (entries 2 np b).map leNat
      l.all (· < 4096) && !hasDup l) && (ref 20 4).given && zero 24
  else if o.code = opMaterialize then !(ref 0 64).isBad && zero 4
  else if o.code = opCompress then
    let f := o.p 0 1
    let u := o.p 2 2
    let dl := o.p 12 4
    let dict := ref 8 dl
    o.atomic && (f == 1 || f == 2) && decide (o.p 1 1 ≤ (if f = 1 then 9 else 12)) && u % 4 == 0 && decide (4 ≤ u) &&
    decide (u ≤ (if nOut = 0 then 2048 else 32)) && decide (o.p 4 1 ≤ (if f = 1 then 0 else 1)) && o.p 5 3 == 0 &&
    (if o.p 8 4 = 0 then dl == 0 && o.p 16 4 == 0
     else dict.given && decide (1 ≤ dl) && decide (dl ≤ (if f = 1 then 65536 else 1048576)) &&
       (if f = 2 then o.p 16 4 != 0 else o.p 16 4 == 0)) && zero 20
  else zero 0

def paramsErr (im : Image) (params : Option Bytes) : Option ImgErr :=
  (im.ops.zipIdx.find? fun e => !paramsOk im params e.1).map fun e => (rParams, e.2)

/-- The first failure of an image of a length a command gives (R155). -/
def imageErr (bs : Bytes) (len : Nat) (params : Option Bytes) : Option ImgErr :=
  let im := readImage bs
  (firstErr [(headerBad bs len, (rHeader, 0xFFFF)), (fld bs 12 4 ≠ (crc32cHole bs 12).toNat, (rCrc, 0xFFFF))]).orElse
    fun _ => (layoutErr bs).orElse
    fun _ => (firstErr ((List.range (imgOps bs)).map fun k =>
      (opBad (opAt bs k) k (fld bs 50 1), (rOperator, k)))).orElse
    fun _ => (chainErr (fld bs 50 1) 0 [] im.ops).orElse
    fun _ => (firstErr ((List.range (imgStreams bs)).map fun k =>
      (streamBad (streamAt bs k) k (imgOps bs), (rStream, k)))).orElse
    fun _ => (graphErr im).orElse
    fun _ => (firstErr (((List.range (imgKernels bs)).map fun k => (kernelBad (kernelAt bs k), (rKernel, k))) ++
      ((List.range (imgAsas bs)).map fun k => (asaBad bs (asaAt bs k) k, (rAsa, k))))).orElse
    fun _ => paramsErr im params

/-- Flows an operator takes (R164, 09 R284, R290; 10 R310, R314). -/
def OpDesc.flows (o : OpDesc) : Nat :=
  if o.code = opProbe || o.code = opSort || o.code = opTopk then 2
  else if o.code = opAggHash || o.code = opAggScalar || o.code = opSketch then o.pflows + o.parts
  else 1

def Image.flows (im : Image) : Nat := (im.ops.map OpDesc.flows).sum

/-! ### Loaded images in the pool (16 R474, R494) -/

def Cmd.byHandle (c : Cmd) : Bool := bit (c.f 24 1) 4
def Cmd.imageField (c : Cmd) : BitVec 64 := BitVec.ofNat 64 (c.f 8 8)

/-- The pool lines of a loaded image. -/
def imageLines (i : BitVec 8) (h : BitVec 32) (bs : Bytes) : List Nat := (List.range (ceilDiv bs.length 64)).map (Config.imageLineAt i h)

/-- Whether a loaded image is lost: a line of it is poisoned. -/
def State.imageLost (s : State) (i : BitVec 8) (h : BitVec 32) : Bool :=
  (AMap.find? (s.inst i).images h).any fun bs => (imageLines i h bs).any s.dram.poison.contains

/-- Whether a QUERY_SUBMIT names a lost image by its handle. -/
def State.namesLost (s : State) (c : Cmd) : Bool := c.byHandle && s.imageLost c.tag.inst (c.imageField.setWidth 32)

/-! ### IMAGE_LOAD and IMAGE_UNLOAD -/

/-- IMAGE_LOAD (R158, R159): LEN, the limits, then the rest of the body, whose failures have the reason BAD_SUBMIT (DEDUCED, log 28). Its
lines are written whole, so no poison stays on them (16 R474). -/
def execImageLoad (t : Tag) (src : HostRead) (s : State) : Host.Outcome State Fault Refusal :=
  s.opcode t 0x50 fun c s =>
    let v := s.inst t.inst
    let fail (e : ImgErr) (s : State) : State := s.finish t (reasonStatus e.1) (reasonResult e)
    if !imgLenOk c.bufLen then fail (rHeader, 0xFFFF) s
    else if v.images.length ≥ 1024 || !s.quotaFits t.inst (ceilDiv c.bufLen 65536) 0 0 then fail (rLimit, 0xFFFF) s
    else if !c.clean [(8, 8), (16, 4), (20, 4)] || bits (c.f 20 4) 30 20 ≠ 0 || s.pvBad c 20 then
      fail (rSubmit, 0xFFFF) s
    else s.withRead t c.pasid c.addr c.bufLen src fun bs s =>
      match imageErr bs c.bufLen none with
      | some e => fail e s
      | none =>
        let s := { s with dram := { s.dram with
          poison := s.dram.poison.filter fun a => !(imageLines t.inst v.nextHandle bs).contains a } }
        (s.modInst t.inst fun v => { v with
          images := (v.nextHandle, bs) :: v.images, nextHandle := v.nextHandle + 1 }).finish t stOk
          (v.nextHandle.setWidth 64)

/-- IMAGE_UNLOAD (R160). -/
def execImageUnload (t : Tag) (s : State) : Host.Outcome State Fault Refusal :=
  s.opcode t 0x51 fun c s =>
    let h := BitVec.ofNat 32 (c.f 16 4)
    if !c.clean [(16, 4)] || !((s.inst t.inst).images.has h) then s.finish t stFieldInvalid 0
    else (s.modInst t.inst fun v => { v with images := v.images.erase h }).finish t stOk 0

end Sys2Proof.Machine
end

