-- ==== Sys2Proof/Machine/Frames.lean ====
section
/-! DEFINITION. Batch frames (06 R190-R196) and result blocks (10 R333-R336): reading, checking and building. -/

namespace Sys2Proof.Machine

/-! ### Frames to bytes -/

/-- The number of the hole at a row of a run, for a frame built under a running number. -/
def holeNo (seed run row : Nat) : Nat := (seed * 64 + run) * 65536 + row

/-- The bytes of a fixed-width value; a hole holds what the spec leaves open, a BOOL 0 or 1 (R193). -/
def fixedBytes (ty hole : Nat) (v : Option Val) : Bytes :=
  let n := match v with
    | some v => v.bits
    | none => (Config.holeBits hole).toNat
  leBytes (tyBytes ty) (if ty = 0x01 then n % 2 else n)

/-- The bytes of a text value. -/
def textBytes (hole : Nat) (v : Option Val) : Bytes :=
  match v with
  | some v => v.text
  | none => Config.holeText hole

/-- Running offsets of texts. -/
def offsets : Nat → List Bytes → List Nat
  | n, [] => [n]
  | n, b :: r => n :: offsets (n + b.length) r

/-- A validity bitmap padded to 64 bytes. -/
def bitmapBytes (l : List Bool) : Bytes :=
  let b := pack 1 (l.map Bool.asNat)
  padTo b (roundUp b.length 64)

/-- The values of a column as R193 lays them out, padded to 64 bytes. -/
def valuesBytes (ty seed run : Nat) (vals : Vals) : Bytes :=
  let holes := vals.zipIdx
  let body := if isStr ty then
      let ts := holes.map fun e => textBytes (holeNo seed run e.2) e.1
      (offsets 0 ts).flatMap (leBytes 4) ++ ts.flatten
    else holes.flatMap fun e => fixedBytes ty (holeNo seed run e.2) e.1
  padTo body (roundUp body.length 64)

/-- A run's body (R193); the bitmap bit of an unselected row of a dense run is left open. -/
def runBytes (seed k : Nat) (sel : List Bool) (r : Run) : Bytes :=
  let bm := if r.packed then r.vals.map (·.isSome)
    else (r.vals.zip sel).zipIdx.map fun e => if e.1.2 then e.1.1.isSome else Config.holeValid (holeNo seed k e.2)
  (if r.valid then bitmapBytes bm else []) ++ valuesBytes r.ty.toNat seed k r.vals

/-- A frame's bytes (R190-R192); SEL is 0 when every row is selected. -/
def Frame.bytes (seed : Nat) (f : Frame) : Bytes :=
  let bodies := f.runs.zipIdx.map fun e => runBytes seed e.2 f.sel e.1
  let dir := (f.runs.zip bodies).flatMap fun e =>
    [e.1.ty, BitVec.ofNat 8 (Bool.asNat e.1.valid + 2 * Bool.asNat e.1.packed), 0, 0] ++ leBytes 4 e.2.length
  let selBit := f.sel.contains false
  let selMap := if selBit then bitmapBytes f.sel else []
  let dirPad := padTo dir (roundUp dir.length 64)
  let total := 64 + dirPad.length + selMap.length + (bodies.map List.length).sum
  leBytes 2 0x4642 ++ leBytes 2 f.sel.length ++ leBytes 2 (f.sel.filter id).length ++ leBytes 1 f.runs.length ++
    leBytes 1 (Bool.asNat selBit + 2 * Bool.asNat f.contig) ++ leBytes 4 total ++ leBytes 4 f.fseq.toNat ++
    leBytes 8 f.rowid.toNat ++ zeros 40 ++ dirPad ++ selMap ++ bodies.flatten

/-- The words of a byte string of whole words. -/
def toWords (bs : Bytes) : List (BitVec 512) := (chunks 64 (bs.length / 64) bs).map bytesWord

/-! ### Bytes to frames -/

/-- Rows a header describes. -/
def hdrRows (bs : Bytes) : Nat := fld bs 2 2
/-- FRAME_BYTES of a header. -/
def hdrBytes (bs : Bytes) : Nat := fld bs 8 4

/-- The fields checked when a header word is committed (R196). -/
def headerOk (bs : Bytes) : Bool :=
  fld bs 0 2 == 0x4642 && decide (1 ≤ hdrRows bs) && decide (hdrRows bs ≤ 4096) && decide (1 ≤ fld bs 6 1) &&
  decide (fld bs 6 1 ≤ 64) && hdrBytes bs % 64 == 0 && decide (128 ≤ hdrBytes bs) && decide (hdrBytes bs ≤ 16777216)

/-- Offsets that start at 0 and never decrease. -/
def offsetsOk : Nat → List Nat → Bool
  | _, [] => true
  | n, a :: r => decide (n ≤ a) && offsetsOk a r

/-- The body of a run read back: its values, none for a null or an unselected row; `live` says which described rows
count. None where it breaks R193. -/
def readRun (dir : Bytes) (sel : List Bool) (body : Bytes) : Option Run :=
  let ty := fld dir 0 1
  let valid := bit (fld dir 1 1) 0
  let packed := bit (fld dir 1 1) 1
  let live := if packed then List.replicate (sel.filter id).length true else sel
  let n := live.length
  let bmLen := if valid then roundUp (ceilDiv n 8) 64 else 0
  let bm := bitsOf (body.take bmLen)
  let use := if valid then (live.zip bm).map fun e => e.1 && e.2 else live
  let rest := body.drop bmLen
  if !isRunType ty || fld dir 1 1 ≥ 4 || fld dir 2 2 ≠ 0 || (valid && (bm.drop n).any id) then none
  else if isStr ty then
    let offs := (chunks 4 (n + 1) (rest.take (4 * (n + 1)))).map leNat
    let total := offs.getLastD 0
    let len := 4 * (n + 1) + total
    if offs.length ≠ n + 1 || offs.headD 0 ≠ 0 || !offsetsOk 0 offs || rest.length ≠ roundUp len 64 ||
        !allZero (rest.drop len) then none
    else
      let ts := (offs.zip (offs.drop 1)).map fun e => slice rest (4 * (n + 1) + e.1) (e.2 - e.1)
      if (ts.zip use).any (fun e => e.2 && e.1.length > 65535) then none
      else some {
        ty := BitVec.ofNat 8 ty, valid := valid, packed := packed,
        vals := (ts.zip use).map fun e => if e.2 then some (.str e.1) else none }
  else
    let w := tyBytes ty
    if rest.length ≠ roundUp (n * w) 64 || !allZero (rest.drop (n * w)) then none
    else
      let vs := ((chunks w n (rest.take (n * w))).map leNat).zip use
      if ty = 0x01 && vs.any (fun e => e.2 && e.1 > 1) then none
      else some {
        ty := BitVec.ofNat 8 ty, valid := valid, packed := packed,
        vals := vs.map fun e => if e.2 then some (mkVal ty e.1) else none }

/-- The runs in directory order, each with its body cut from the rest. -/
def readRuns (sel : List Bool) : List Bytes → Bytes → Option (List Run)
  | [], rest => if rest.isEmpty then some [] else none
  | d :: ds, rest =>
    let n := fld d 4 4
    if n % 64 ≠ 0 || rest.length < n then none
    else
      match readRun d sel (rest.take n), readRuns sel ds (rest.drop n) with
      | some r, some l => some (r :: l)
      | _, _ => none

/-- A whole frame read back under every rule of R190 to R194. -/
def readFrame (bs : Bytes) : Option Frame :=
  let rows := hdrRows bs
  let nruns := fld bs 6 1
  let flags := fld bs 7 1
  let dirLen := roundUp (8 * nruns) 64
  let selLen := if bit flags 0 then roundUp (ceilDiv rows 8) 64 else 0
  let selBits := bitsOf (slice bs (64 + dirLen) selLen)
  let sel := if bit flags 0 then selBits.take rows else List.replicate rows true
  if !headerOk bs || hdrBytes bs ≠ bs.length || flags ≥ 4 || !allZero (slice bs 24 40) ||
      (!bit flags 1 && fld bs 16 8 ≠ 0) || 2 ^ 42 ≤ fld bs 16 8 || !allZero (slice bs (64 + 8 * nruns) (dirLen - 8 * nruns)) ||
      (selBits.drop rows).any id || fld bs 4 2 ≠ (sel.filter id).length then none
  else
    match readRuns sel (entries 8 nruns (slice bs 64 (8 * nruns))) (bs.drop (64 + dirLen + selLen)) with
    | none => none
    | some runs => some {
        sel := sel, contig := bit flags 1, rowid := BitVec.ofNat 64 (fld bs 16 8), fseq := BitVec.ofNat 32 (fld bs 12 4),
        runs := runs }

/-! ### Rows of frames -/

/-- The run types of a frame. -/
def Frame.types (f : Frame) : List (BitVec 8) := f.runs.map (·.ty)

/-- How many of the first `i` rows are selected. -/
def selBefore (sel : List Bool) (i : Nat) : Nat := ((sel.take i).filter id).length

/-- A run's value at row `i` of its frame, a selected one. -/
def Run.at (r : Run) (sel : List Bool) (i : Nat) : Option Val :=
  if r.packed then (r.vals[selBefore sel i]?).join else (r.vals[i]?).join

/-- The selected rows: each one's place in the frame and its values. -/
def Frame.rows (f : Frame) : List (Nat × Vals) :=
  (f.sel.zipIdx.filter (·.1)).map fun e => (e.2, f.runs.map fun r => r.at f.sel e.2)

/-- The frame with fewer rows selected: a PACKED run keeps the rows still selected (08 R266). -/
def Frame.reselect (f : Frame) (keep : List Bool) : Frame :=
  let sel := (f.sel.zip keep).map fun e => e.1 && e.2
  let still := (f.sel.zip sel).filterMap fun e => if e.1 then some e.2 else none
  { f with
    sel := sel
    runs := f.runs.map fun r =>
      if r.packed then { r with vals := (r.vals.zip still).filterMap fun e => if e.2 then some e.1 else none }
      else { r with vals := (r.vals.zip sel).map fun e => if e.2 then e.1 else none } }

/-- The frame of rows: SEL 0, CONTIG 0, ROWID_BASE 0, PACKED 0 (09 R283, R293; 10 R309); a run has VALID 1 exactly when
it holds a null. -/
def rowsFrame (types : List (BitVec 8)) (rows : List Vals) (fseq : BitVec 32) : Frame where
  sel := rows.map fun _ => true
  contig := false
  rowid := 0
  fseq := fseq
  runs := types.zipIdx.map fun e =>
    let vals := rows.map fun r => (r[e.2]?).join
    { ty := e.1, valid := vals.any (·.isNone), packed := false, vals := vals }

/-- Rows of a frame before it closes: at 4,096 rows, or before it would exceed 16,384 bytes, one row at least (08
R262). -/
def fillFrame (types : List (BitVec 8)) (seed : Nat) : List Vals → List Vals → List Vals × List Vals
  | acc, [] => (acc, [])
  | acc, r :: rest =>
    if acc.isEmpty then fillFrame types seed [r] rest
    else if acc.length < 4096 && ((rowsFrame types (acc ++ [r]) 0).bytes seed).length ≤ 16384 then
      fillFrame types seed (acc ++ [r]) rest
    else (acc, r :: rest)

/-- Rows cut into the rows of frames. -/
def cutRows (types : List (BitVec 8)) (seed : Nat) : Nat → List Vals → List (List Vals)
  | 0, _ => []
  | _, [] => []
  | fuel + 1, rows =>
    let e := fillFrame types seed [] rows
    e.1 :: cutRows types seed fuel e.2

/-- Whether a further row still fits the frame of rows (08 R262). -/
def rowFits (types : List (BitVec 8)) (seed : Nat) (rows : List Vals) (r : Vals) : Bool :=
  decide (rows.length < 4096) && decide (((rowsFrame types (rows ++ [r]) 0).bytes seed).length ≤ 16384)

/-! ### Result blocks (10 R333-R336) -/

/-- The body of a column of a block: VALID exactly when it holds a null; a null's bytes are 0, its text empty. -/
def blockColumn (ty : Nat) (vals : Vals) : Bool × Bytes :=
  let valid := vals.any (·.isNone)
  let fill := vals.map fun o => some (o.getD (if isStr ty then .str [] else mkVal ty 0))
  (valid, (if valid then bitmapBytes (vals.map (·.isSome)) else []) ++ valuesBytes ty 0 0 fill)

/-- Running starts of parts. -/
def starts : Nat → List Nat → List Nat
  | _, [] => []
  | n, a :: r => n :: starts (n + a) r

/-- A result block of rows: its bytes with the CRC (R333-R335). -/
def resultBlock (types : List (BitVec 8)) (scales : List Nat) (rows : List Vals) (bseq : BitVec 32) (op : BitVec 16) :
    Bytes :=
  let cols := types.zipIdx.map fun e => (e.1, scales.getD e.2 0, blockColumn e.1.toNat (rows.map fun r => (r[e.2]?).join))
  let dirLen := roundUp (16 * cols.length) 64
  let offs := starts (64 + dirLen) (cols.map fun c => c.2.2.2.length)
  let dir := (cols.zip offs).flatMap fun e =>
    [e.1.1, BitVec.ofNat 8 e.1.2.1] ++ leBytes 2 (Bool.asNat e.1.2.2.1) ++ leBytes 4 e.2 ++
    leBytes 4 e.1.2.2.2.length ++ zeros 4
  let total := 64 + dirLen + (cols.map fun c => c.2.2.2.length).sum
  let hdr (crc : Nat) : Bytes :=
    leBytes 4 0x4B425253 ++ [1, 0] ++ leBytes 2 cols.length ++ leBytes 4 rows.length ++ leBytes 4 total ++
    leBytes 4 bseq.toNat ++ leBytes 2 op.toNat ++ [0, 0] ++ leBytes 4 crc ++ zeros 36
  let rest := padTo dir dirLen ++ cols.flatMap fun c => c.2.2.2
  hdr (crc32c (hdr 0 ++ rest)).toNat ++ rest

end Sys2Proof.Machine
end

