-- ==== Sys2Proof/Machine/Values.lean ====
section
/-! DEFINITION. What operators compute of values: comparisons (08 R249-R255), search keys (08 R258), key strings and
SH64 (09 R273-R275) and normalised keys (10 R307). -/

namespace Sys2Proof.Machine

/-! ### Floats -/

/-- Mantissa bits of a float type. -/
def mantBits (ty : Nat) : Nat := if ty = 0x0A then 23 else 52

/-- Whether the bits of a float type are a NaN. -/
def isNan (ty n : Nat) : Bool :=
  let w := tyBits ty
  let m := mantBits ty
  decide ((2 ^ (w - 1 - m) - 1) * 2 ^ m < n % 2 ^ (w - 1))

/-- The canonical quiet NaN (R273). -/
def qnan (ty : Nat) : Nat := if ty = 0x0A then 0x7FC00000 else 0x7FF8000000000000

/-- A float normalised: -0.0 becomes +0.0, every NaN the canonical one (R273). -/
def normFloat (ty n : Nat) : Nat := if isNan ty n then qnan ty else if n = 2 ^ (tyBits ty - 1) then 0 else n

/-- The bits of a value, normalised where it is a float and FTOTAL is 0. -/
def normBits (ftotal : Bool) (ty n : Nat) : Nat := if isFloat ty && !ftotal then normFloat ty n else n

/-- CODE32 compares as UINT32, ROWID as UINT64 (08 R266). -/
def asPlain (ty : Nat) : Nat := if ty = 0x21 then 0x08 else if ty = 0x20 then 0x09 else ty

/-! ### Comparisons (08 R249, R252-R254) -/

/-- Whether `a` is below `b`, after normalisation under IEEE rules. -/
def below (ftotal : Bool) (ty : Nat) (a b : Val) : Bool :=
  if isStr ty then bytesLt a.text b.text
  else decide (orderKey ty (mkVal ty (normBits ftotal ty a.bits)) < orderKey ty (mkVal ty (normBits ftotal ty b.bits)))

/-- Whether a value takes no part in IEEE comparisons. -/
def unordered (ftotal : Bool) (ty : Nat) (v : Val) : Bool := isFloat ty && !ftotal && isNan ty v.bits

/-- EQ to BETWEEN and PREFIX of a non-null value (R249, R253). -/
def compareVal (op : Nat) (ftotal : Bool) (ty : Nat) (x a b : Val) : Bool :=
  let lt := below ftotal ty
  if op = 12 then x.text.take a.text.length == a.text
  else if unordered ftotal ty x || unordered ftotal ty a || (op = 7 && unordered ftotal ty b) then op == 2
  else if op = 1 then !lt x a && !lt a x
  else if op = 2 then lt x a || lt a x
  else if op = 3 then lt x a
  else if op = 4 then !lt a x
  else if op = 5 then lt a x
  else if op = 6 then !lt x a
  else !lt x a && !lt b x

/-- TRUE, FALSE or UNKNOWN (R254). -/
inductive Tri where
  | yes | no | unknown
deriving DecidableEq, Repr

def Tri.ofBool (b : Bool) : Tri := if b then .yes else .no

/-- An operand read at its type (R250): `none` where it breaks its form. -/
def readOperand (im : Image) (params : Bytes) (ty r : Nat) : Option Val :=
  if isStr ty then
    match im.ref (some params) r 2 with
    | .data l =>
      match im.ref (some params) (r + 2) (leNat l) with
      | .data bs => some (.str bs)
      | _ => none
    | _ => none
  else
    match im.ref (some params) r (tyBytes ty) with
    | .data bs => if ty = 0x01 && leNat bs > 1 then none else some (mkVal ty (leNat bs))
    | _ => none

/-! ### Search keys (08 R258) -/

/-- The WIDTH an ASA image must have for a type. -/
def asaWidth (ty : Nat) : Nat :=
  if isStr ty then 3 else if tyBits ty ≤ 32 then 0 else if tyBits ty ≤ 64 then 1 else 2

/-- The search key of a value; `none` for one that is not searched and matches nothing. -/
def searchKey (ftotal : Bool) (ty : Nat) (v : Val) : Option (BitVec 320) :=
  if isStr ty then
    if v.text.length ≤ 39 then some (BitVec.ofNat 320 (v.text.length + 256 * leNat v.text)) else none
  else if unordered ftotal ty v then none
  else some (BitVec.ofNat 320 (normBits ftotal ty v.bits))

/-! ### Key strings and SH64 (09 R273-R275) -/

/-- The part of a key string for one value. -/
def keyPart (ftotal : Bool) (ty : Nat) (v : Option Val) : Bytes :=
  match v with
  | none => [0]
  | some v =>
    if isStr ty then 1 :: leBytes 2 v.text.length ++ v.text
    else 1 :: leBytes (tyBytes ty) (normBits ftotal ty v.bits)

/-- The key string of a row over its key runs, in key-list order. -/
def keyString (ftotal : Bool) (types : List (BitVec 8)) (keys : List Nat) (row : Vals) : Bytes :=
  keys.flatMap fun k => keyPart ftotal (types.getD k 0).toNat (row[k]?).join

/-- Whether any key value of a row is null. -/
def nullKey (keys : List Nat) (row : Vals) : Bool := keys.any fun k => ((row[k]?).join).isNone

def shK1 : BitVec 64 := 0xA3B19C57E26D4F0B
def shK2 : BitVec 64 := 0x8F5C3A91D47EB2C7
def shK3 : BitVec 64 := 0x6B2DE1F4935A08C5
def hllSeed : BitVec 64 := 0x4C1D93A70B6EF285

/-- The finaliser of SH64. -/
def shFold (x : BitVec 64) : BitVec 64 :=
  let x := (x ^^^ (x >>> 31)) * shK2
  let x := (x ^^^ (x >>> 29)) * shK3
  x ^^^ (x >>> 32)

def shStep (h w : BitVec 64) : BitVec 64 := (h ^^^ shFold w).rotateLeft 27 * shK1 + shK3

/-- The whole words, then the tail with its length in byte 7. -/
def shLoop : Nat → BitVec 64 → Bytes → BitVec 64
  | 0, h, _ => h
  | fuel + 1, h, bs =>
    if bs.isEmpty then h
    else if bs.length < 8 then shStep h (BitVec.ofNat 64 (leNat bs + bs.length * 2 ^ 56))
    else shLoop fuel (shStep h (BitVec.ofNat 64 (leNat (bs.take 8)))) (bs.drop 8)

/-- SH64 (R274). -/
def sh64 (bs : Bytes) (seed : BitVec 64) : BitVec 64 :=
  shFold (shLoop (bs.length / 8 + 2) (seed ^^^ (BitVec.ofNat 64 bs.length * shK1)) bs)

/-- Fields of a key hash (R275): the EXCHANGE target, and the 6-bit partition of a level from 1. -/
def hashTarget (h : BitVec 64) : Nat := bits h.toNat 63 52
def hashPart (level : Nat) (h : BitVec 64) : Nat := bits h.toNat (57 - 6 * level) (52 - 6 * level)

/-! ### Normalised keys (10 R306-R308) -/

/-- `n` bytes of a number, most significant first. -/
def beBytes (n v : Nat) : Bytes := (leBytes n v).reverse

/-- The value bytes of one key, ascending (R307). -/
def sortPart (ftotal : Bool) (ty : Nat) (v : Val) : Bytes :=
  let w := tyBits ty
  if isStr ty then (v.text.flatMap fun b => if b = 0 then [0, 0xFF] else [b]) ++ [0, 0]
  else if isFloat ty then
    let n := normBits ftotal ty v.bits
    beBytes (w / 8) (if n < 2 ^ (w - 1) then n + 2 ^ (w - 1) else 2 ^ w - 1 - n)
  else if isSigned ty then beBytes (w / 8) ((v.bits + 2 ^ (w - 1)) % 2 ^ w)
  else beBytes (tyBytes ty) v.bits

/-- One key's part: the flag byte and the value bytes, inverted for DESC (R307). -/
def sortKeyPart (ftotal : Bool) (ty flags : Nat) (v : Option Val) : Bytes :=
  match v with
  | none => [if bit flags 1 then 0 else 2]
  | some v => 1 :: (sortPart ftotal ty v).map fun b => if bit flags 0 then ~~~ b else b

/-- A row's normalised key; `keys` lists runs with their KEYFLAGS. -/
def sortKey (ftotal : Bool) (types : List (BitVec 8)) (keys : List (Nat × Nat)) (row : Vals) : Bytes :=
  keys.flatMap fun k => sortKeyPart ftotal (types.getD k.1 0).toNat k.2 (row[k.1]?).join

/-- The order of SORT: by normalised key, ties by input order (R308). -/
def sortLt (a b : SortRow) : Bool :=
  if bytesLt a.key b.key then true else if bytesLt b.key a.key then false else decide (a.ord < b.ord)

/-- The key runs of an operator's PARAMS (09 R276) and, for the ordering operators, their KEYFLAGS (10 R306). -/
def OpDesc.keyRuns (o : OpDesc) (nkeys : Nat) : List Nat := (List.range nkeys).map fun k => o.p k 1
def OpDesc.orderKeys (o : OpDesc) : List (Nat × Nat) := (List.range (o.p 16 1)).map fun k => (o.p k 1, o.p (8 + k) 1)
def OpDesc.orderTotal (o : OpDesc) : Bool := bit (o.p 17 1) 0

end Sys2Proof.Machine
end

