-- ==== Sys2Proof/Machine/AsaOps.lean ====
section
/-! DEFINITION. Searches of the Associative Search Array (11 R341-R358) and the head's cascaded searches (11
R364-R366), as the operators and the commands of the ASA use them. -/

namespace Sys2Proof.Machine

/-! ### Pods -/

/-- The slots of an entry (R342). -/
def entrySlots (width : BitVec 2) (k : Nat) : List (BitVec 12) :=
  if width = 3 then [BitVec.ofNat 12 (2 * k), BitVec.ofNat 12 (2 * k + 1)] else [BitVec.ofNat 12 k]

/-- The entry a slot belongs to. -/
def slotEntry (width : BitVec 2) (slot : BitVec 12) : Nat := if width = 3 then slot.toNat / 2 else slot.toNat

/-- An entry's key and tag, if every slot of it is valid (R348). -/
def Pod.entry? (p : Pod) (k : Nat) : Option (BitVec 320 × BitVec 32) :=
  match (entrySlots p.width k).map fun n => List.find? (fun e => e.1 == n && e.2.valid) p.slots with
  | [some a] => some (a.2.key.setWidth 320, a.2.tag)
  | [some a, some b] => some (a.2.key.setWidth 320 ||| (b.2.key.setWidth 320 <<< 160), a.2.tag)
  | _ => none

/-- The 4 parity bits of a slot (R353). -/
def slotParity (key : BitVec 160) (tag : BitVec 32) : BitVec 4 :=
  let lane (j : Nat) : Bool :=
    ((List.range 40).foldl (fun a i => a ^^ key.getLsbD (4 * i + j)) false) ^^
    ((List.range 8).foldl (fun a i => a ^^ tag.getLsbD (4 * i + j)) false)
  BitVec.ofNat 4 ((List.range 4).map fun j => if lane j then 2 ^ j else 0).sum

/-- The slots of an entry written from its record. -/
def writeEntry (width : BitVec 2) (k : Nat) (key : BitVec 320) (tag : BitVec 32) (valid : Bool) :
    List (BitVec 12 × Slot) :=
  (entrySlots width k).zipIdx.map fun e =>
    let half := (key >>> (160 * e.2)).setWidth 160
    (e.1, { key := half, tag := tag, valid := valid, parity := slotParity half tag })

/-- The matching valid entries of a pod, in index order (R349). -/
def Pod.hits (p : Pod) (key mask : BitVec 320) : List (Nat × BitVec 32) :=
  let w : BitVec 320 := BitVec.ofNat 320 (2 ^ asaBits p.width.toNat - 1)
  (List.range p.entries).filterMap fun k =>
    match p.entry? k with
    | some e => if (e.1 ^^^ key) &&& mask &&& w = 0 then some (k, e.2) else none
    | none => none

/-- An answer in the layout of R350. -/
def asaAnswer (hit : Bool) (count : Nat) (stale : Bool) (index wpos : Nat) (tag : BitVec 32) : BitVec 64 :=
  BitVec.ofNat 64 (Bool.asNat hit + 2 * Bool.asNat (decide (2 ≤ count)) + 4 * min count 15 + 64 * Bool.asNat stale +
    256 * index + 2 ^ 20 * wpos + 2 ^ 32 * tag.toNat)

/-- A pod's answer: the lowest index wins (R351); STALE as R356 has it. -/
def Pod.answer (p : Pod) (key mask : BitVec 320) : BitVec 64 :=
  match p.hits key mask with
  | [] => asaAnswer false 0 (!p.reload.isEmpty) 0 0 0
  | (k, tag) :: r => asaAnswer true (r.length + 1) (p.reload.any fun i => decide (i.toNat < k)) k 0 tag

def answerHit (a : BitVec 64) : Bool := a.getLsbD 0
def answerCount (a : BitVec 64) : Nat := bits a.toNat 5 2
def answerStale (a : BitVec 64) : Bool := a.getLsbD 6
def answerIndex (a : BitVec 64) : Nat := bits a.toNat 19 8
def answerWpos (a : BitVec 64) : Nat := bits a.toNat 22 20
def answerTag (a : BitVec 64) : BitVec 32 := (a >>> 32).setWidth 32

/-! ### The head's searches (R364, R365) -/

/-- What a search of an operator comes to now: an answer that is not stale, a wait, or a cascaded search still to be
sent. -/
inductive Lookup where
  | answer (a : BitVec 64)
  | wait
  | send (ctag : BitVec 4)
deriving DecidableEq, Repr

/-- A key or a mask cut to the width of a pod's entries (R349). -/
def asaCut (width : BitVec 2) (x : BitVec 320) : BitVec 320 := x &&& BitVec.ofNat 320 (2 ^ asaBits width.toNat - 1)

/-- A search of a query's ASA image (R259, R349, R364). -/
def State.asaLookup (s : State) (q : Query) (asaId : BitVec 8) (key mask : BitVec 320) : Lookup :=
  match AMap.find? q.pods asaId with
  | none => .wait
  | some p =>
    let pod := s.pod p
    if pod.st != .serving then .wait
    else
      match (if s.asa.casDepth.toNat ≤ 1 then none else AMap.find? q.ctags asaId) with
      | none => if answerStale (pod.answer key mask) then .wait else .answer (pod.answer key mask)
      | some c =>
        match AMap.find? s.asa.ctags c with
        | none => .wait
        | some g =>
          if (List.range s.asa.casDepth.toNat).any (fun k => decide (1 ≤ k) && !g.ready.contains (BitVec.ofNat 3 k)) then .wait
          else
            match s.asa.known.find? fun k => k.ctag == c && k.key == asaCut pod.width key && k.mask == asaCut pod.width mask with
            | some k => .answer k.mine
            | none => .send c

/-- A cascaded search is sent down the line in its slot, its key and mask as wide as the pod's entries, unless the same is in
flight or 256 slots are (R349, R365; 18 R540). -/
def State.casSend (s : State) (c : BitVec 4) (key mask : BitVec 320) : State :=
  match AMap.find? s.asa.ctags c with
  | none => s
  | some g =>
    let pod := (List.find? (fun e => e.2.st == PodState.serving && e.2.casId == some g.casId) s.asa.pods).map (·.2)
    let width := (pod.map (·.width)).getD 0
    let key := asaCut width key
    let mask := asaCut width mask
    if s.asa.slots.length ≥ 256 || s.asa.slots.any (fun k => k.live && k.ctag == c && k.key == key && k.mask == mask) then s
    else
      let mine := (pod.map fun p => p.answer key mask).getD (asaAnswer false 0 true 0 0 0)
      let body := [c.setWidth 8, width.setWidth 8] ++ leBytes 2 s.asa.sseq.toNat ++ zeros 12 ++ leBytes 40 key.toNat ++
        leBytes 40 mask.toNat
      let s := s.sendLink Config.cascadeDown 0x28 g.casId body
      { s with asa := { s.asa with
        sseq := s.asa.sseq + 1
        slots := s.asa.slots ++ [{ live := true, ctag := c, key := key, mask := mask, mine := mine }] } }

/-- The searches an element of an operator needs: those that wait, and those still to be sent. -/
structure Needs where
  waits : Bool
  sends : List (BitVec 4 × BitVec 320 × BitVec 320)
deriving DecidableEq, Repr

/-- What a list of searches of one image needs. -/
def State.asaNeeds (s : State) (q : Query) (asaId : BitVec 8) (mask : BitVec 320) (keys : List (BitVec 320)) : Needs :=
  let l := keys.map fun k => (k, s.asaLookup q asaId k mask)
  { waits := l.any fun e => e.2 == .wait
    sends := dedup (l.filterMap fun e => match e.2 with
      | .send c => some (c, e.1, mask)
      | _ => none) }

def Needs.join (a b : Needs) : Needs := { waits := a.waits || b.waits, sends := dedup (a.sends ++ b.sends) }
def Needs.none : Needs := { waits := false, sends := [] }
/-- Every search has its answer. -/
def Needs.met (n : Needs) : Bool := !n.waits && n.sends.isEmpty

/-- The searches that are to be sent go out. -/
def State.sendNeeds (s : State) (n : Needs) : State := forEach n.sends s fun s e => s.casSend e.1 e.2.1 e.2.2

/-- Whether a value matches an entry of an image; only asked where every search has its answer. -/
def State.asaHit (s : State) (q : Query) (asaId : BitVec 8) (key mask : BitVec 320) : Bool :=
  match s.asaLookup q asaId key mask with
  | .answer a => answerHit a
  | _ => false

/-- The tag of the winner, none on a miss. -/
def State.asaTag (s : State) (q : Query) (asaId : BitVec 8) (key mask : BitVec 320) : Option (BitVec 32) :=
  match s.asaLookup q asaId key mask with
  | .answer a => if answerHit a then some (answerTag a) else none
  | _ => none

/-- A mask of all ones. -/
def allMask : BitVec 320 := BitVec.allOnes 320

end Sys2Proof.Machine
end

