-- ==== Sys2Proof/Machine/Streams.lean ====
section
/-! DEFINITION. Streams (06): positions, frames and claims (R197-R200), capacity and the middle (R203-R206), word and
pointer protection (R209-R213) and stream life (R214). -/

namespace Sys2Proof.Machine

/-- A stream when its query enters RUNNING (R214). -/
def Stream.fresh (d : StreamDesc) (spillKib : Nat) (home : BitVec 3) (gated discard : Bool) : Stream where
  elem := 2 ^ d.elem.toNat
  framed := d.framed
  spillKib := spillKib
  wp := 0
  rp := 0
  wp2 := 0
  rp2 := 0
  pages := 0
  words := []
  inMiddle := []
  frames := []
  nextFrame := 0
  rowsIn := 0
  opens := []
  holder := none
  st := .opened
  home := home
  gated := gated
  discard := discard
  reads := []

/-- The stream behind an index of a query's image: fused streams share one (10 R331). -/
def Query.stream (q : Query) (k : BitVec 16) : StreamRef :=
  ⟨q.tag, match q.image with
    | some im => BitVec.ofNat 16 (im.root k.toNat)
    | none => k⟩

/-- C: 32 words and the middle's pages (R204). -/
def Stream.capacity (st : Stream) : Nat := 32 + 1024 * st.pages

/-- Whether a commit to a position is accepted (R204). -/
def Stream.fits (st : Stream) (p : BitVec 32) : Bool := decide ((p - st.rp).toNat < st.capacity)

/-- A further page of the middle, where SPILL_KIB and the quota allow one (R203, R205). -/
def State.growMiddle (s : State) (r : StreamRef) (st : Stream) : Stream :=
  if 64 * (st.pages + 1) ≤ st.spillKib ∧ s.sspillUse r.query.inst < (s.inst r.query.inst).sspillPages.toNat then
    { st with pages := st.pages + 1 }
  else st

/-- The check bits of a word, lane by lane (R209). -/
def wordCheck (w : BitVec 512) : BitVec 64 :=
  BitVec.ofNat 64 (leNat ((List.range 8).map fun k => Config.secded (BitVec.ofNat 64 (w.toNat / 2 ^ (64 * k)))))

/-- The parity of a valid-byte count (R209). -/
def vbParity (vb : BitVec 7) : Bool := (List.range 7).foldl (fun b k => b != vb.getLsbD k) false

/-- A word as it is committed. -/
def StreamWord.of (w : BitVec 512) (vb : BitVec 7) : StreamWord := { bits := w, vb := vb, chk := wordCheck w, par := vbParity vb }

/-- Whether a word reads without an error (R211). -/
def StreamWord.sound (w : StreamWord) : Bool := w.chk == wordCheck w.bits && w.par == vbParity w.vb

/-- Whether a filled position lies in the head: among the 16 from RP on, with no older word in the middle (R201, R203; for positions
of a framed stream that are filled out of order DEDUCED, log 270). -/
def Stream.inHead (st : Stream) (p : BitVec 32) : Bool :=
  decide ((p - st.rp).toNat < 16) && st.inMiddle.all fun q => decide ((p - st.rp).toNat < (q - st.rp).toNat)

/-- The filled positions of the tail, the oldest first. -/
def Stream.tail (st : Stream) : List (BitVec 32) :=
  sortBy (fun a b => decide ((a - st.rp).toNat < (b - st.rp).toNat))
    ((st.words.map (·.1)).filter fun p => !st.inMiddle.contains p && !st.inHead p)

/-- A word comes to its position: straight to the head while the middle is empty and the head has room; else to the tail, from
which the oldest 16 words go to the middle, a block of 1 KiB, where it would hold more than 16 and the middle has a page (R201,
R203). -/
def Stream.put (st : Stream) (p : BitVec 32) (w : BitVec 512) (vb : BitVec 7) : Stream :=
  let st1 : Stream := { st with words := st.words.insert p (StreamWord.of w vb) }
  if 16 < st1.tail.length && st1.pages != 0 then { st1 with inMiddle := st1.inMiddle ++ st1.tail.take 16 } else st1

/-- RP after a pop or a return: the oldest position not popped (R197); its second copy moves by as much (R212). -/
def Stream.settleRp (st : Stream) : Stream :=
  let rp := match st.frames.find? fun f => f.popped < f.words with
    | some f => f.start + BitVec.ofNat 32 f.popped
    | none => st.wp
  { st with rp := rp, rp2 := st.rp2 + (rp - st.rp) }

/-- The frame that an item is writing. -/
def Stream.openFrame (st : Stream) (owner : Nat) : Option FramePos :=
  st.frames.find? fun f => f.owner == owner && decide (f.filled < f.words)

/-- The position of the next word of an item, with the pointers and frames as they are once it has landed: a frame's
header word takes positions for the whole frame (R198). Both copies of WP move (R212). -/
def Stream.allocate (st : Stream) (owner : Nat) (w : BitVec 512) (vb : BitVec 7) : BitVec 32 × Stream :=
  if st.framed then
    match st.openFrame owner with
    | some f => (f.start + BitVec.ofNat 32 f.filled,
        { st with frames := st.frames.map fun g =>
          if g.no = f.no then { g with filled := g.filled + 1, short := g.short || vb != 64 } else g })
    | none =>
      let n := hdrBytes (wordBytes w) / 64
      let f : FramePos := {
        no := st.nextFrame, start := st.wp, words := n, filled := 1, popped := 0, owner := owner, claim := none, origin := st.rowsIn
        got := [], short := vb != 64 }
      (st.wp, { st with
        frames := st.frames ++ [f], nextFrame := st.nextFrame + 1, rowsIn := st.rowsIn + hdrRows (wordBytes w)
        wp := st.wp + BitVec.ofNat 32 n, wp2 := st.wp2 + BitVec.ofNat 32 n })
  else (st.wp, { st with wp := st.wp + 1, wp2 := st.wp2 + 1 })

/-- The query of a stream. -/
def State.streamD0 (s : State) (t : Tag) : BitVec 64 :=
  Config.streamD0 t.inst (((s.query? t).bind (·.qid)).getD 0)

/-- The two copies of a pointer disagree (R213): the stream is reset and FAILED, the event names it, the query stops. -/
def State.pointerMismatch (s : State) (r : StreamRef) : State :=
  match s.stream? r with
  | none => s
  | some st =>
    let s := s.setStream r { st with
      wp := 0, rp := 0, wp2 := 0, rp2 := 0, words := [], inMiddle := [], frames := [], opens := [], reads := [], holder := none, st := .failed }
    (s.raiseDevice 321 r.query.inst (s.streamD0 r.query) (r.idx.setWidth 64)).stopQuery r.query stIntegrity

/-- A refused commit takes a further page of the middle where it may (R203-R205). -/
def State.grow (s : State) (r : StreamRef) : State :=
  match s.stream? r with
  | some st => s.setStream r (s.growMiddle r st)
  | none => s

inductive CommitEnd where
  | landed | refused | aborted
deriving DecidableEq, Repr

/-- A word commit by an item (R204, R208): it lands where the capacity at the start of the cycle has its position; else it is
refused by back-pressure, and the middle takes a further page where it may, so that the word lands when it is offered again. An
unframed stream that another item holds refuses it too (R189), and a failed stream aborts it; words of a stream that is discarded
are dropped (10 R316, R331). The two copies of WP are compared as they are updated (R212). -/
def State.commitWord (s : State) (r : StreamRef) (owner : Nat) (w : BitVec 512) (vb : BitVec 7) : State × CommitEnd :=
  match s.stream? r with
  | none => (s, .aborted)
  | some st =>
    if st.st = .failed then (s, .aborted)
    else if st.discard then (s, .landed)
    else if !st.framed && st.holder.any (· != owner) then (s, .refused)
    else
      let e := st.allocate owner w vb
      if !st.fits e.1 then (s.grow r, .refused)
      else if e.2.wp ≠ e.2.wp2 then (s.pointerMismatch r, .aborted)
      else (s.setStream r { e.2.put e.1 w vb with holder := if st.framed then st.holder else some owner }, .landed)

/-- A word that is offered again once after a refusal that took a page of the middle. -/
def State.offerWord (s : State) (r : StreamRef) (owner : Nat) (w : BitVec 512) : State × CommitEnd :=
  let e := s.commitWord r owner w 64
  if e.2 = .refused then e.1.commitWord r owner w 64 else e

inductive PopEnd where
  | word (w : BitVec 512) (vb : BitVec 7)
  | stall | empty | ended | aborted
deriving DecidableEq, Repr

/-- The frame an item has claimed, or the oldest unclaimed one (R199). -/
def Stream.frameFor (st : Stream) (item : Nat) : Option FramePos :=
  match st.frames.find? fun f => f.claim == some item && decide (f.popped < f.words) with
  | some f => some f
  | none => st.frames.find? fun f => f.claim.isNone

/-- What a pop of an item meets (R206): the position it pops comes first. A word that is not in the head yet stalls it, and so does
one with an uncorrectable error, which is withheld (R211). -/
def Stream.popView (st : Stream) (item : Nat) : PopEnd :=
  let at_ (p : BitVec 32) : PopEnd :=
    match AMap.find? st.words p with
    | some e => if st.inHead p && e.sound then .word e.bits e.vb else .stall
    | none => .empty
  let done : PopEnd := if st.st = .ended && st.words.isEmpty then .ended else .empty
  if st.st = .failed then .aborted
  else if st.gated then .empty
  else if st.framed then
    match st.frameFor item with
    | some f => at_ (f.start + BitVec.ofNat 32 f.popped)
    | none => done
  else if st.rp = st.wp then done
  else at_ st.rp

/-- The stream after a pop that gave a word. -/
def Stream.popped (st : Stream) (item : Nat) : Stream :=
  if st.framed then
    match st.frameFor item with
    | none => st
    | some f =>
      let p := f.start + BitVec.ofNat 32 f.popped
      let bs := (AMap.find? st.words p).elim [] fun e => wordBytes e.bits
      ({ st with
        words := st.words.erase p
        frames := st.frames.map fun g =>
          if g.no = f.no then { g with popped := g.popped + 1, claim := some item, got := g.got ++ bs } else g } : Stream).settleRp
  else { st with words := st.words.erase st.rp, rp := st.rp + 1, rp2 := st.rp2 + 1 }

/-- The frame an item has popped whole is finished. -/
def Stream.finishFrame (st : Stream) (item : Nat) : Stream :=
  ({ st with frames := st.frames.filter fun f => f.claim != some item } : Stream).settleRp

/-- Words that a stopped item has popped and not finished go back to the front in order; the claim stays (R200). -/
def Stream.giveBack (st : Stream) (item : Nat) (bs : Bytes) : Stream :=
  match st.frames.find? fun f => f.claim == some item with
  | none => st
  | some f =>
    let back := (toWords bs).zipIdx.map fun e => (f.start + BitVec.ofNat 32 e.2, StreamWord.of e.1 64)
    ({ st with
      words := back.foldl (fun m e => AMap.insert m e.1 e.2) st.words
      frames := st.frames.map fun g => if g.no = f.no then { g with popped := 0, got := [] } else g } : Stream).settleRp

/-- A reading place of an EC's port that nothing has been popped for. -/
def PortIn.none : PortIn := { cur := [], off := 0, left := Option.none, skip := 0 }

/-- The offset at which a port goes on. -/
def PortIn.at_ (p : PortIn) : Nat := if p.cur.isEmpty then p.skip else p.off

/-- A port with a word just popped. -/
def PortIn.load (p : PortIn) (w : BitVec 512) (vb : BitVec 7) : PortIn :=
  { p with cur := (wordBytes w).take vb.toNat, off := p.skip, skip := 0 }

/-- The current word of an EC's port, popped and not used up, goes back to the front when its item stops; the place keeps the offset
at which the item goes on in it (R200). -/
def Stream.unread (st : Stream) (item key : Nat) : Stream :=
  let p := AMap.get st.reads key PortIn.none
  let w := StreamWord.of (bytesWord p.cur) (BitVec.ofNat 7 p.cur.length)
  if p.cur.length ≤ p.off then st
  else
    let st1 : Stream := { st with reads := AMap.insert st.reads key { p with cur := [], off := 0, skip := p.off } }
    if st.framed then
      match st.frames.find? fun f => f.claim == some item && decide (0 < f.popped) with
      | some f => ({ st1 with
          words := st1.words.insert (f.start + BitVec.ofNat 32 (f.popped - 1)) w
          frames := st.frames.map fun g =>
            if g.no = f.no then { g with popped := g.popped - 1, got := g.got.take (64 * (g.popped - 1)) } else g } : Stream).settleRp
      | none => st
    else { st1 with words := st1.words.insert (st.rp - 1) w, rp := st.rp - 1, rp2 := st.rp2 - 1 }

/-- A frame an item has popped whole that has a word with VB below 64 (R196). -/
def Stream.shortFrame (st : Stream) (item : Nat) : Bool :=
  st.frames.any fun f => f.claim == some item && f.short && decide (f.popped = f.words)

/-- Frames of a stream that no item has claimed. -/
def Stream.unclaimed (st : Stream) : Nat := (st.frames.filter (·.claim.isNone)).length

/-- Whether a stream has ended and every position of it has been popped. -/
def Stream.drained (st : Stream) : Bool := st.st == .ended && !st.gated && st.words.isEmpty && st.frames.isEmpty

/-- A correctable error of a word read: counted twice, no event (R210). -/
def State.wordCorrected (s : State) (r : StreamRef) : State :=
  match s.stream? r with
  | some st => (s.count (ctrStrCe st.home)).count ctrStrAll
  | none => s

/-- The word at a position has a tag parity error from now on. -/
def Stream.spoil (st : Stream) (p : BitVec 32) : Stream :=
  { st with words := st.words.mapVals fun k w => if k = p then { w with par := !(vbParity w.vb) } else w }

/-- The word that an item pops next is uncorrectable: it is withheld from now on; the event and the query's end (R211). -/
def State.wordLost (s : State) (r : StreamRef) (item : Nat) : State :=
  let s := match s.stream? r with
    | some st => s.setStream r (st.spoil (match (if st.framed then st.frameFor item else none) with
        | some f => f.start + BitVec.ofNat 32 f.popped
        | none => st.rp))
    | none => s
  (s.raiseDevice 320 r.query.inst (s.streamD0 r.query) (r.idx.setWidth 64)).stopQuery r.query stIntegrity

/-- A frame breaks R190 to R194 (R196), or differs in shape (09 R665, 10 R309): FIELD_INVALID, BAD_STREAM. -/
def State.badStream (s : State) (r : StreamRef) : State :=
  s.stopQueryAt r.query stFieldInvalid (BitVec.ofNat 16 rStream) r.idx

/-- The parameters of an operator do not fit what it meets: FIELD_INVALID, BAD_PARAMS, the operator's index. -/
def State.badParams (s : State) (t : Tag) (op : BitVec 16) : State :=
  s.stopQueryAt t stFieldInvalid (BitVec.ofNat 16 rParams) op

/-- The open word of a key, if it holds anything, is committed as it is, with VB its bytes (R187); also where the stream is full,
since nothing would offer it again (DESIGN CHOICE, log 263). -/
def Stream.closeWord (st : Stream) (key : Nat) : Stream :=
  let bs := AMap.get st.opens key []
  let st1 : Stream := { st with opens := AMap.erase st.opens key }
  if bs.isEmpty then st1
  else
    let e := st1.allocate key (bytesWord bs) (BitVec.ofNat 7 bs.length)
    e.2.put e.1 (bytesWord bs) (BitVec.ofNat 7 bs.length)

/-- Whether the open word of a key is a frame's header that breaks R191 as it stands (R196). -/
def Stream.badHeader (st : Stream) (key : Nat) : Bool :=
  let bs := AMap.get st.opens key []
  st.framed && !bs.isEmpty && (st.openFrame key).isNone && !headerOk (padTo bs 64)

/-- Every item of a stream's producer has ended: an open word is committed (with VB its bytes), and the stream is ENDED
(R214). A framed stream with an open word breaks R414. -/
def State.endStream (s : State) (r : StreamRef) : State :=
  match s.stream? r with
  | none => s
  | some st =>
    if st.st ≠ .opened then s
    else if st.framed then
      if (st.opens.any fun e => !e.2.isEmpty) || st.frames.any (fun f => f.filled < f.words) then
        (s.setStream r { st with st := .ended }).badStream r
      else s.setStream r { st with st := .ended }
    else s.setStream r { st.closeWord 0 with st := .ended, holder := none }

/-- HEAD_REFILL (R203, R206): once the head holds no word, a block of the middle moves to it, the 16 positions from RP on. -/
def execHeadRefill (r : StreamRef) (s : State) : Host.Outcome State Fault Refusal :=
  match s.stream? r with
  | none => .next s
  | some st =>
    if st.words.any fun e => st.inHead e.1 then .next s
    else .next (s.setStream r { st with inMiddle := st.inMiddle.filter fun p => 16 ≤ (p - st.rp).toNat })

end Sys2Proof.Machine
end

