-- ==== Sys2Proof/Machine/Scan.lean ====
section
/-! DEFINITION. SCAN, FILTER and ASA_FILTER (08): what their items read, select and emit. -/

namespace Sys2Proof.Machine

/-! ### Predicates -/

/-- An operand at a type, 0 where it cannot be read: R243 has checked it before any item starts. -/
def operandOf (im : Image) (params : Bytes) (ty r : Nat) : Val := (readOperand im params ty r).getD (mkVal ty 0)

/-- A predicate on a value (R249, R254); `hit` answers the search of IN and NOT_IN. -/
def predTri (im : Image) (params : Bytes) (ty : Nat) (p : Pred) (hit : Val → Bool) (v : Option Val) : Tri :=
  if p.op = 8 then Tri.ofBool v.isNone
  else if p.op = 9 then Tri.ofBool v.isSome
  else
    match v with
    | none => .unknown
    | some x =>
      if p.op = 10 then Tri.ofBool (hit x)
      else if p.op = 11 then Tri.ofBool (!hit x)
      else Tri.ofBool (compareVal p.op p.ftotal ty x (operandOf im params ty p.v1) (operandOf im params ty p.v2))

/-! ### What is known of a row (R244, R255, R257, R260) -/

/-- What is known of a predicate on a row: the results that are still possible, and whether its value has been judged. -/
structure Poss where
  yes  : Bool
  no   : Bool
  unk  : Bool
  seen : Bool
deriving DecidableEq, Repr

def Poss.any : Poss := { yes := true, no := true, unk := true, seen := false }
def Poss.of (t : Tri) : Poss := { yes := t == .yes, no := t == .no, unk := t == .unknown, seen := true }
/-- TRUE for sure. -/
def Poss.sure (p : Poss) : Bool := p.yes && !p.no && !p.unk
/-- Neither TRUE for sure nor past being TRUE. -/
def Poss.isOpen (p : Poss) : Bool := p.yes && (p.no || p.unk)

/-- A predicate of a row: its column entry, its place in the entry's list, its group, what is known of it. -/
structure PredKnow where
  entry : Nat
  k     : Nat
  group : Nat
  is    : Poss
deriving DecidableEq, Repr

/-- A row of an item or a frame with what is known of its predicates. -/
abbrev RowKnow := Nat × List PredKnow

def RowKnow.inGroup (r : RowKnow) (g : Nat) : List Poss := (r.2.filter (·.group == g)).map (·.is)
def RowKnow.groups (r : RowKnow) : List Nat := dedup (r.2.map (·.group))

/-- A group is TRUE already. -/
def RowKnow.groupTrue (r : RowKnow) (g : Nat) : Bool := (r.inGroup g).any Poss.sure

/-- The row's result is FALSE already (R244), or what headers, dictionaries and constants say has settled that it is not TRUE
(R260). -/
def RowKnow.closed (r : RowKnow) : Bool :=
  r.groups.any fun g =>
    let l := r.inGroup g
    l.all (!·.yes) && (l.all (!·.unk) || l.any (!·.seen))

/-- The predicates of an entry that the row's result may still depend on. -/
def RowKnow.needs (r : RowKnow) (e : Nat) : List Nat :=
  if r.closed then []
  else (r.2.filter fun p => p.entry == e && p.is.isOpen && !r.groupTrue p.group).map (·.k)

/-- Every group is TRUE (R255). -/
def RowKnow.selected (r : RowKnow) : Bool := r.groups.all r.groupTrue

/-- More is known of the predicates of an entry. -/
def RowKnow.learn (r : RowKnow) (e : Nat) (f : Nat → Poss → Poss) : RowKnow :=
  (r.1, r.2.map fun p => if p.entry = e then { p with is := f p.k p.is } else p)

/-- What a search of a predicate's rows comes to: searches are needed or awaited, a code set is still to be built, or there
is a result for each row. -/
inductive AskEnd where
  | needs (n : Needs)
  | build
  | tri (f : Nat → Tri)

/-- What judging rows comes to. -/
inductive JudgeEnd where
  | known (rows : List RowKnow)
  | needs (n : Needs)
  | build

/-- The search predicates of an entry, one after the other: only the rows that still depend on one are searched (R257). -/
def judgeSearches (e : Nat) (ask : Nat → List Nat → AskEnd) : List Nat → List RowKnow → JudgeEnd
  | [], rows => .known rows
  | k :: ks, rows =>
    let open_ := (rows.filter fun r => (r.needs e).contains k).map (·.1)
    if open_.isEmpty then judgeSearches e ask ks rows
    else
      match ask k open_ with
      | .needs n => .needs n
      | .build => .build
      | .tri f => judgeSearches e ask ks (rows.map fun r =>
          if open_.contains r.1 then r.learn e fun j p => if j = k then Poss.of (f r.1) else p else r)

/-- Whether the operands and flags of a predicate fit a type, and its ASA image has the width for it (R243, R250, R258,
R266). R258 has a WIDTH that does not fit found at R243; a frame of FILTER is held to it too (DEDUCED, log 275). -/
def predFits (im : Image) (params : Bytes) (ty : Nat) (p : Pred) : Bool :=
  let w := predOperands p.op
  (!p.ftotal || isFloat ty) && (p.op != 12 || isStr ty) &&
  (!w.1 || (readOperand im params ty p.v1).isSome) && (!w.2 || (readOperand im params ty p.v2).isSome) &&
  (!(p.op == 10 || p.op == 11) || ((im.asas[p.asa]?).any fun a => a.width.toNat == asaWidth ty))

/-! ### What a SCAN item sees of a column -/

/-- A column in a slot: the segment there, its dictionary and row pages. -/
structure ColView where
  seg   : Option (Nat × Segment)
  ty    : Nat
  dict  : List Val
  dpages : List SegPage
  pages : List SegPage
  rows  : Nat
deriving DecidableEq, Repr

/-- The view of a column of a snapshot's table (R243): no segment, then `n` null rows. -/
def State.colView (s : State) (tb : Table) (col : BitVec 12) (slot : BitVec 20) (n : Nat) : ColView :=
  let ty := ((tb.cols[col.toNat]?).map (·.ty.toNat)).getD 0
  match (tb.cell? col slot).bind fun k => (s.seg? k).map (k, ·) with
  | none => { seg := none, ty := ty, dict := [], dpages := [], pages := [], rows := n }
  | some (k, g) =>
    let l := storedPages ty col.toNat n (g.bytes.length / 64 + 1) 0 g.bytes 0 0 []
    { seg := some (k, g), ty := ty, dict := (l.filter (·.page.dict)).flatMap fun p => p.vals.filterMap id
      dpages := l.filter (·.page.dict), pages := l.filter fun p => !p.page.dict, rows := n }

/-- The values of `n` rows from row `lo`. -/
def ColView.vals (v : ColView) (lo n : Nat) : Vals :=
  match v.seg with
  | none => List.replicate n none
  | some _ => ((v.pages.flatMap (·.vals)).drop lo).take n

/-- Whether a page holds a row. -/
def SegPage.holds (g : SegPage) (row : Nat) : Bool :=
  decide (g.page.start ≤ row) && decide (row < g.page.start + g.page.rows)

/-- The row page of a row. -/
def ColView.pageAt (v : ColView) (i : Nat) : Option SegPage := v.pages.find? fun p => p.holds i

/-- Whether a row comes from a DICT page. -/
def ColView.isDict (v : ColView) (i : Nat) : Bool := (v.pageAt i).any (·.page.enc == 5)

/-- What reading pages of a column comes to. -/
inductive ReadEnd where
  | good | wait | lost | invalid
deriving DecidableEq, Repr

def ReadEnd.join : ReadEnd → ReadEnd → ReadEnd
  | .invalid, _ => .invalid
  | _, .invalid => .invalid
  | .lost, _ => .lost
  | _, .lost => .lost
  | .wait, _ => .wait
  | _, r => r

/-- A line of a segment that cannot be read yet: its channel is held, it is being repaired, or it lay on the channel whose
segments are being rebuilt and is not back yet (16 R474, R487, R494). -/
def State.lineWaits (s : State) (k : Nat) (g : Segment) (l : Nat) : Bool :=
  s.heldAt (Config.lineAt k l) || g.repair.contains l ||
  (g.rebuild && (s.mapped (Config.lineAt k l)).any fun e => some e.1 == s.dram.rebuilding)

/-- Lines of a segment are read (R245; 16 R494, R495): a lost segment or a poisoned line gives DATA_LOST. -/
def State.readLines (s : State) (v : ColView) (lines : List Nat) : ReadEnd :=
  match v.seg with
  | none => .good
  | some (k, g) =>
    if lines.isEmpty then .good
    else if g.lost || lines.any g.poison.contains then .lost
    else if lines.any (s.lineWaits k g) then .wait
    else .good

/-- The lines from a page's start that hold its first `n` bytes. -/
def SegPage.lines (g : SegPage) (n : Nat) : List Nat := (List.range (ceilDiv n 64)).map (g.off / 64 + ·)

/-- The headers of pages are read: their fields are used as they are stored (R34). -/
def State.readHeaders (s : State) (v : ColView) (pages : List SegPage) : ReadEnd :=
  s.readLines v (pages.flatMap fun g => g.lines 64)

/-- The headers and bitmaps of pages are read; the checksum is not that of a page read whole (R34, R256). -/
def State.readBitmaps (s : State) (v : ColView) (pages : List SegPage) : ReadEnd :=
  s.readLines v (pages.flatMap fun g => g.lines (64 + g.page.vb))

/-- Pages are read whole: one that does not check gives INTEGRITY (R34, R245). -/
def State.readPages (s : State) (v : ColView) (pages : List SegPage) : ReadEnd :=
  match s.readLines v (pages.flatMap fun g => g.lines g.page.len) with
  | .good => if pages.all (·.ok) then .good else .invalid
  | r => r

/-! ### Pruning (R260) -/

/-- Whether integers from `lo` to `hi` all pass a comparison, or none of them does. -/
def rangeDecides (op : Nat) (lo hi a b : Int) : Option Bool :=
  let pick (all_ none_ : Bool) : Option Bool := if all_ then some true else if none_ then some false else none
  if op = 1 then pick (lo == a && hi == a) (decide (a < lo) || decide (hi < a))
  else if op = 2 then pick (decide (a < lo) || decide (hi < a)) (lo == a && hi == a)
  else if op = 3 then pick (decide (hi < a)) (decide (a ≤ lo))
  else if op = 4 then pick (decide (hi ≤ a)) (decide (a < lo))
  else if op = 5 then pick (decide (a < lo)) (decide (hi ≤ a))
  else if op = 6 then pick (decide (a ≤ lo)) (decide (hi < a))
  else if op = 7 then pick (decide (a ≤ lo) && decide (hi ≤ b)) (decide (hi < a) || decide (b < lo) || decide (b < a))
  else none

/-- What a page's header says of a predicate, and with `dict` what the dictionary says besides: the results its rows can still
have (R260). -/
def pagePoss (im : Image) (params : Bytes) (v : ColView) (p : Pred) (g : SegPage) (dict : Bool) : Poss :=
  let a := operandOf im params v.ty p.v1
  let b := operandOf im params v.ty p.v2
  let nulls : Bool := g.page.nulls != 0
  let from_ (r : Option Bool) : Poss :=
    { yes := r != some false, no := r != some true, unk := nulls, seen := false }
  let nullTest (whenNull : Bool) : Poss :=
    if g.page.nulls = 0 then { Poss.of (Tri.ofBool !whenNull) with seen := false }
    else if g.page.nulls = g.page.rows then { Poss.of (Tri.ofBool whenNull) with seen := false }
    else { Poss.any with unk := false }
  if !g.located then Poss.any
  else if p.op = 8 then nullTest true
  else if p.op = 9 then nullTest false
  else if g.page.nulls = g.page.rows then { Poss.of .unknown with seen := false }
  else if p.op = 10 || p.op = 11 then from_ none
  else if g.page.enc = 6 && !isStr v.ty then
    from_ (some (compareVal p.op p.ftotal v.ty (mkVal v.ty g.page.base) a b))
  else if g.page.enc = 2 then
    let lo := if isSigned v.ty then toSigned 128 g.page.base else (g.page.base : Int)
    from_ (rangeDecides p.op lo (lo + (2 ^ g.page.bits - 1 : Nat)) (a.int v.ty) (b.int v.ty))
  else if g.page.enc = 5 && dict then
    let l := v.dict.map fun x => compareVal p.op p.ftotal v.ty x a b
    from_ (if l.all id then some true else if l.any id then none else some false)
  else from_ none

/-! ### A SCAN item -/

/-- A column entry of a SCAN with its predicates and its column. -/
structure ScanEntry where
  col   : ScanCol
  preds : List Pred
  view  : ColView
  vals  : Vals
deriving DecidableEq, Repr

structure ScanWork where
  im     : Image
  params : Bytes
  op     : OpDesc
  slot   : BitVec 20
  lo     : Nat
  n      : Nat
  entries : List ScanEntry
  item   : Nat
  got    : List (Nat × Nat)
deriving DecidableEq, Repr

/-- The predicate entries of a list. -/
def predList (im : Image) (params : Bytes) (r n : Nat) : List Pred :=
  (entries 16 n (im.ref (some params) r (16 * n)).bytes).map readPred

/-- The column entries of a SCAN. -/
def scanCols (im : Image) (params : Bytes) (o : OpDesc) : List ScanCol :=
  (entries 16 (o.p 6 1) (im.ref (some params) (o.p 0 4) (16 * o.p 6 1)).bytes).map readCol

/-- The slots a SCAN covers (R246). -/
def scanSlots (im : Image) (params : Bytes) (o : OpDesc) : Nat × Nat :=
  match im.ref (some params) (o.p 16 4) 8 with
  | .data b => (fld b 0 4, fld b 4 4)
  | _ => (o.p 8 4, o.p 12 4)

/-- The item ranges of a SCAN in generation order: slot, first row, rows (R242). -/
def State.scanRanges (s : State) (q : Query) (im : Image) (o : OpDesc) : List (BitVec 20 × Nat × Nat) :=
  match AMap.find? q.snap (BitVec.ofNat 16 (o.p 4 2)) with
  | none => []
  | some tb =>
    let (a, b) := scanSlots im q.params o
    let slots := sortBy (fun x y => decide (x < y)) (dedup ((tb.cells.map (·.1.2)).filter fun k =>
      decide (a ≤ k.toNat) && decide (k.toNat ≤ b)))
    slots.flatMap fun k =>
      let n := (s.slotRows tb k).getD 0
      (List.range (ceilDiv n 65536)).map fun j => (k, 65536 * j, min 65536 (n - 65536 * j))

/-- A row ID (02 R23). -/
def rowId (slot : BitVec 20) (row : Nat) : BitVec 64 := BitVec.ofNat 64 (row + 2 ^ 22 * slot.toNat)
def rowIdSlot (r : BitVec 64) : BitVec 20 := BitVec.ofNat 20 (r.toNat / 2 ^ 22)
def rowIdRow (r : BitVec 64) : Nat := r.toNat % 2 ^ 22

/-- What a SCAN item works on. -/
def State.scanWork (s : State) (q : Query) (im : Image) (o : OpDesc) (i : Item) : Option ScanWork :=
  match AMap.find? q.snap (BitVec.ofNat 16 (o.p 4 2)) with
  | none => none
  | some tb =>
    let slot := rowIdSlot i.origin
    let lo := rowIdRow i.origin
    let ns := (s.slotRows tb slot).getD 0
    some {
      im := im, params := q.params, op := o, slot := slot, lo := lo, n := i.count, item := i.id, got := i.pagesIn
      entries := (scanCols im q.params o).map fun c =>
        let v := s.colView tb (BitVec.ofNat 12 c.column) slot ns
        { col := c, preds := predList im q.params c.preds c.npred, view := v, vals := v.vals lo i.count } }

/-- The search of a value for an IN predicate of entry `e`, predicate `k`: the code set where the row is of a DICT page
and the set is there, else the search itself (R257). -/
def State.scanHit (s : State) (q : Query) (w : ScanWork) (c : OpCtx) (e k : Nat) (p : Pred) (row : Nat) (ty : Nat)
    (x : Val) : Bool :=
  match (if (w.entries[e]?).any (fun n => n.view.isDict (w.lo + row)) then
      AMap.find? c.codeSets (BitVec.ofNat 8 e, BitVec.ofNat 8 k, w.slot) else none) with
  | some set => set.getD (((w.entries[e]?).map fun n => n.view.dict.findIdx (· == x)).getD 0) false
  | none =>
    match searchKey p.ftotal ty x with
    | some key => s.asaHit q (BitVec.ofNat 8 p.asa) key allMask
    | none => false

/-- What the headers, or nothing yet where a column holds no segment, say of a row (R260). -/
def ScanWork.start (w : ScanWork) (row : Nat) : RowKnow :=
  (row, w.entries.zipIdx.flatMap fun (n, e) => n.preds.zipIdx.map fun (p, k) =>
    { entry := e, k := k, group := p.group
      is := match n.view.seg, n.view.pageAt (w.lo + row) with
        | some _, some g => pagePoss w.im w.params n.view p g false
        | some _, none => Poss.any
        | none, _ => Poss.of (predTri w.im w.params n.view.ty p (fun _ => false) none) })

/-- The rows of a list that lie in a page. -/
def ScanWork.inPage (w : ScanWork) (g : SegPage) (rows : List RowKnow) : List RowKnow :=
  rows.filter fun r => g.holds (w.lo + r.1)

/-- The predicates of an entry for which the rows of a page still need it (R244, R260). -/
def ScanWork.pageNeeds (w : ScanWork) (e : Nat) (rows : List RowKnow) (g : SegPage) : List Nat :=
  dedup ((w.inPage g rows).flatMap fun r => r.needs e)

/-- Whether a predicate needs values, not the validity bitmap alone (R256). -/
def ScanEntry.needsValue (n : ScanEntry) (k : Nat) : Bool := (n.preds[k]?).any fun p => p.op != 8 && p.op != 9

/-- The searches of a predicate of an entry (R257): by the code set on DICT pages where the LS quota holds it, else by value. -/
def State.scanAsk (s : State) (q : Query) (w : ScanWork) (c : OpCtx) (e : Nat) (n : ScanEntry) (k : Nat) (rows : List Nat) : AskEnd :=
  match n.preds[k]? with
  | none => .tri fun _ => .no
  | some p =>
    let inSet (r : Nat) : Bool := n.view.isDict (w.lo + r) &&
      AMap.has c.codeSets (BitVec.ofNat 8 e, BitVec.ofNat 8 k, w.slot)
    let units := ceilDiv (ceilDiv n.view.dict.length 8) 65536
    if rows.any fun r => n.view.isDict (w.lo + r) && !inSet r &&
        decide (s.lsUse q.tag.inst + units ≤ (s.inst q.tag.inst).lsUnits.toNat) then .build
    else
      let keys := rows.filterMap fun r =>
        if inSet r then none else ((n.vals[r]?).join).bind (searchKey p.ftotal n.view.ty)
      let needs := s.asaNeeds q (BitVec.ofNat 8 p.asa) allMask (dedup keys)
      if !needs.met then .needs needs
      else .tri fun r => predTri w.im w.params n.view.ty p (s.scanHit q w c e k p r n.view.ty) ((n.vals[r]?).join)

/-- What a SCAN item's next step comes to: a read of an entry's pages that does not go through, searches, or its rows judged. -/
inductive ScanEnd where
  | stop (r : ReadEnd) (n : ScanEntry) (pages : List SegPage)
  | needs (n : Needs)
  | build
  | jobs (l : List JobWait)
  | known (rows : List RowKnow)

/-- The jobs that unwrap pages which an item reads and has not yet unwrapped, at the engine of its unit's cluster (R242; 12 R382). -/
def State.unwrapJobs (s : State) (q : Query) (w : ScanWork) (v : ColView) (pages : List SegPage) : List JobWait :=
  match v.seg with
  | none => []
  | some (k, g) =>
    let unit := ((List.find? (fun (e : Runner × RunnerState) => e.2.running == some w.item) s.disp.runners).map (·.1.num.toNat)).getD 0
    (pages.filter fun p => p.page.wrap != 0 && !w.got.contains (k, p.off)).map fun p => {
      engine := BitVec.ofNat 3 (unit / 2), prio := q.prio, owner := .page w.item k p.off, decode := true
      job := { putJob q.tag.inst p.page (g.bytes.drop p.off) with client := 0, qid := (q.qid.getD 0).setWidth 16 } }

/-- An entry's predicates are judged (R244, R256, R257, R260): the dictionary is read where a DICT page is needed, then the
pages that some row still needs, whole or for their bitmaps; then the searches. -/
def State.judgeEntry (s : State) (q : Query) (w : ScanWork) (c : OpCtx) (e : Nat) (n : ScanEntry) (rows : List RowKnow) : ScanEnd :=
  let whole (rows : List RowKnow) (g : SegPage) : Bool := (w.pageNeeds e rows g).any n.needsValue
  let viaDict := n.view.pages.any fun g => g.page.enc == 5 && whole rows g
  let dicts := if viaDict then n.view.dpages else []
  match s.readPages n.view dicts with
  | .good =>
    let jobs := s.unwrapJobs q w n.view dicts
    if !jobs.isEmpty then .jobs jobs else
    let rows := if !viaDict then rows else rows.map fun r =>
      match n.view.pageAt (w.lo + r.1) with
      | some g => if g.page.enc ≠ 5 then r else r.learn e fun k p =>
          match n.preds[k]? with
          | some d => if p.seen then p else pagePoss w.im w.params n.view d g true
          | none => p
      | none => r
    let full := n.view.pages.filter (whole rows)
    let part := n.view.pages.filter fun g => !whole rows g && !(w.pageNeeds e rows g).isEmpty
    match (s.readPages n.view full).join (s.readBitmaps n.view part) with
    | .good =>
      let jobs := s.unwrapJobs q w n.view full
      if !jobs.isEmpty then .jobs jobs else
      let rows := rows.map fun r =>
        let v := (n.vals[r.1]?).join
        let inFull := full.any fun g => g.holds (w.lo + r.1)
        if !inFull && !(part.any fun g => g.holds (w.lo + r.1)) then r
        else r.learn e fun k p =>
          match n.preds[k]? with
          | some d =>
            if (d.op = 10 || d.op = 11) && v.isSome || !inFull && n.needsValue k then p
            else Poss.of (predTri w.im w.params n.view.ty d (fun _ => false) v)
          | none => p
      let searches := (n.preds.zipIdx.filter fun x => x.1.op == 10 || x.1.op == 11).map (·.2)
      match judgeSearches e (s.scanAsk q w c e n) searches rows with
      | .known rows => .known rows
      | .needs n => .needs n
      | .build => .build
    | r => .stop r n (full ++ part)
  | r => .stop r n n.view.dpages

/-- The entries one after the other (R244). -/
def State.judgeEntries (s : State) (q : Query) (w : ScanWork) (c : OpCtx) : List (ScanEntry × Nat) → List RowKnow → ScanEnd
  | [], rows => .known rows
  | (n, e) :: r, rows =>
    match s.judgeEntry q w c e n rows with
    | .known rows => s.judgeEntries q w c r rows
    | x => x

/-- The rows of an item from PROGRESS on are judged: first the headers of the pages that overlap them are read. -/
def State.scanJudge (s : State) (q : Query) (w : ScanWork) (c : OpCtx) (a : Nat) : ScanEnd :=
  let rows := ((List.range w.n).drop a).map w.start
  let heads (n : ScanEntry) : List SegPage := n.view.pages.filter fun g => !(w.inPage g rows).isEmpty
  match w.entries.find? fun n => s.readHeaders n.view (heads n) != .good with
  | some n => .stop (s.readHeaders n.view (heads n)) n (heads n)
  | none => s.judgeEntries q w c w.entries.zipIdx rows

/-- The pages whose values the selected rows of a group carry out, with their dictionary (R244). -/
def ScanWork.emitPages (w : ScanWork) (n : ScanEntry) (a len : Nat) (sel : List Bool) : List SegPage :=
  let l := if n.col.emit = 0 then [] else n.view.pages.filter fun g =>
    (List.range len).any fun r => sel.getD (a + r) false && g.holds (w.lo + a + r)
  l ++ if l.any (·.page.enc == 5) then n.view.dpages else []

/-! ### Frames of a SCAN (R261, R262) -/

/-- The run of a column entry for rows of a group. -/
def scanRun (w : ScanWork) (n : ScanEntry) (pack : Bool) (a len : Nat) (sel : List Bool) : Run :=
  let code := n.col.emit == 2 && n.view.isDict (w.lo + a)
  let v (r : Nat) : Option Val :=
    let x := (n.vals[a + r]?).join
    if code then x.map fun x => mkVal 0x21 (n.view.dict.findIdx (· == x)) else x
  let idx := (List.range len).filter fun r => sel.getD r false
  { ty := if code then 0x21 else BitVec.ofNat 8 n.view.ty
    valid := idx.any fun r => (v r).isNone
    packed := pack
    vals := if pack then idx.map v else (List.range len).map fun r => if sel.getD r false then v r else none }

/-- The frame of a port for the rows of a group. -/
def scanFrame (w : ScanWork) (port a len : Nat) (sel : List Bool) (fseq : BitVec 32) : Frame :=
  let pack := bit (w.op.p 7 1) 1
  let ids := (List.range len).map fun r => some (mkVal 0x20 (rowId w.slot (w.lo + a + r)).toNat)
  let idRun : Run := {
    ty := 0x20, valid := false, packed := pack,
    vals := if pack then (ids.zip sel).filterMap fun e => if e.2 then some e.1 else none
      else (ids.zip sel).map fun e => if e.2 then e.1 else none }
  { sel := sel, contig := true, rowid := rowId w.slot (w.lo + a), fseq := fseq
    runs := ((w.entries.filter fun n => n.col.port == port && n.col.emit != 0).map fun n =>
      scanRun w n pack a len sel) ++ (if bit (w.op.p 7 1) 0 then [idRun] else []) }

/-- How many rows the group from row `a` holds: it closes at 4,096 rows, before a port's frame would exceed 16,384
bytes, and where a column with EMIT CODE changes its kind of page (R262). -/
def groupLen (w : ScanWork) (seed : Nat) (sel : List Bool) (a : Nat) : Nat → Nat → Nat
  | 0, len => len
  | fuel + 1, len =>
    let row := a + len
    let fits := (List.range w.op.outs.length).all fun port =>
      decide (((scanFrame w port a (len + 1) ((sel.drop a).take (len + 1)) 0).bytes seed).length ≤ 16384)
    let sameKind := w.entries.all fun n => n.col.emit != 2 || n.view.isDict (w.lo + row) == n.view.isDict (w.lo + a)
    if row < w.n && len < 4096 && (len == 0 || (fits && sameKind)) then groupLen w seed sel a fuel (len + 1) else len

/-- The words of a frame for a port; the last one carries what is committed once it has landed. -/
def frameOut (port : Nat) (bs : Bytes) (progress : Option Nat) (opstate : Option (BitVec 32)) : List OutWord :=
  let ws := toWords bs
  ws.zipIdx.map fun (w, k) =>
    let last := k + 1 == ws.length
    { port := BitVec.ofNat 3 port, word := w, progress := if last then progress else none,
      opstate := if last then opstate else none }

/-- A stored page that is found invalid because its unwrapping job ended undecodable or at its limit: the job is reported (12
R381, R384). -/
def State.scanJobError (s : State) (q : Query) (v : ColView) (pages : List SegPage) : State :=
  match v.seg, pages.find? fun g => !g.ok && g.located with
  | some e, some g =>
    let rest := e.2.bytes.drop g.off
    if pageCrcOk rest && unwrapJobFails v.ty rest then
      let p := Page.ofBytes rest
      let j : CompJob := { putJob q.tag.inst p rest with client := 0, qid := (q.qid.getD 0).setWidth 16 }
      s.jobError j (jobDecoded j)
    else s
  | _, _ => s

/-- A read of a column's pages that does not go through: it ends the query with INTEGRITY and its event, or with DATA_LOST, or
the item waits (R245; 16 R494). -/
def State.readStop (s : State) (q : Query) (tid : BitVec 16) (col : BitVec 12) (slot : BitVec 20) (v : ColView)
    (r : ReadEnd) (pages : List SegPage) : State :=
  match r with
  | .invalid => ((s.scanJobError q v pages).pageCrcEvent q.tag.inst tid col slot).stopQuery q.tag stIntegrity
  | .lost => s.stopQuery q.tag stDataLost
  | _ => s

/-- What the next group of a SCAN item comes to: its rows selected and its length, where every page it needs could be
read. -/
def State.scanGroup (s : State) (q : Query) (w : ScanWork) (c : OpCtx) (a : Nat) : ScanEnd × List Bool × Nat :=
  match s.scanJudge q w c a with
  | .known rows =>
    let sel := List.replicate (min a w.n) false ++ rows.map RowKnow.selected
    let len := groupLen w s.free sel a 4096 0
    let read (n : ScanEntry) : ReadEnd := s.readPages n.view (w.emitPages n a len sel)
    match w.entries.find? fun n => read n != .good with
    | some n => (.stop (read n) n (w.emitPages n a len sel), sel, len)
    | none =>
      match w.entries.flatMap fun n => s.unwrapJobs q w n.view (w.emitPages n a len sel) with
      | [] => (.known rows, sel, len)
      | jobs => (.jobs jobs, sel, len)
  | x => (x, [], 0)

/-- The next group of a SCAN item: its frames wait to be pushed, or it is suppressed (R261-R263); a read that fails
ends the query (R245); searches without an answer are sent or waited for, and so are the jobs that unwrap pages (R242). -/
def State.scanFill (s : State) (q : Query) (im : Image) (o : OpDesc) (i : Item) : State :=
  match s.scanWork q im o i, s.op? q.tag i.op with
  | some w, some c =>
    let a := i.progress
    match s.scanGroup q w c a with
    | (.stop r n pages, _, _) =>
      s.readStop q (BitVec.ofNat 16 (o.p 4 2)) (BitVec.ofNat 12 n.col.column) w.slot n.view r pages
    | (.needs n, _, _) => s.sendNeeds n
    | (.build, _, _) => s
    | (.jobs l, _, _) =>
      let more := l.filter fun j => !(s.disp.jobq.any fun x => x.owner == j.owner)
      { s with disp := { s.disp with jobq := s.disp.jobq ++ dedup more } }
    | (.known _, sel, len) =>
      let part := (sel.drop a).take len
      let next := a + len
      let st := i.opstate + 1
      if bit (o.p 7 1) 2 && !part.contains true then
        s.modItem i.id fun i => { i with progress := next, opstate := st }
      else
        let nOut := o.outs.length
        let words := (List.range nOut).flatMap fun port =>
          let last := port + 1 == nOut
          frameOut port ((scanFrame w port a len part i.opstate).bytes s.free)
            (if last then some next else none) (if last then some st else none)
        (s.modItem i.id fun i => { i with outq := words }).tick
  | _, _ => s

/-- Whether a SCAN item waits for lines of its pages (16 R474, R487, R494). -/
def State.scanWaits (s : State) (q : Query) (im : Image) (o : OpDesc) (i : Item) : Bool :=
  match s.scanWork q im o i, s.op? q.tag i.op with
  | some w, some c => decide (i.progress < i.count) && i.outq.isEmpty &&
      match (s.scanGroup q w c i.progress).1 with
      | .stop .wait _ _ => true
      | _ => false
  | _, _ => false

/-- The ASA images that the items of an operator search (R248, R267). -/
def searchedAsas (im : Image) (params : Bytes) (o : OpDesc) : List Nat :=
  let of (l : List Pred) : List Nat := (l.filter fun p => p.op == 10 || p.op == 11).map (·.asa)
  if o.code = opScan then (scanCols im params o).flatMap fun c => of (predList im params c.preds c.npred)
  else if o.code = opFilter then of (predList im params (o.p 0 4) (o.p 4 1))
  else if o.code = opAsaFilter then [o.p 1 1]
  else []

/-- Whether the items of an operator must wait until every member of a cascade has answered READY (11 R364). -/
def State.readyWait (s : State) (q : Query) (im : Image) (o : OpDesc) : Bool :=
  decide (1 < s.asa.casDepth.toNat) && (searchedAsas im q.params o).any fun a =>
    match AMap.find? q.ctags (BitVec.ofNat 8 a) with
    | some c => (AMap.find? s.asa.ctags c).any fun g =>
        (List.range s.asa.casDepth.toNat).any fun k => decide (1 ≤ k) && !g.ready.contains (BitVec.ofNat 3 k)
    | none => false

/-- R243: the table, the columns, and every predicate against its column's type. -/
def scanChecks (q : Query) (im : Image) (o : OpDesc) : Bool :=
  match AMap.find? q.snap (BitVec.ofNat 16 (o.p 4 2)) with
  | none => false
  | some tb => (scanCols im q.params o).all fun c =>
      match tb.cols[c.column]? with
      | none => false
      | some d => (predList im q.params c.preds c.npred).all (predFits im q.params d.ty.toNat)

/-- CODE_SET_BUILD (R257): the code set of a segment, predicate and query is complete: a bit for each dictionary entry. -/
def execCodeSetBuild (t : Tag) (op : BitVec 16) (entry pred : BitVec 8) (slot : BitVec 20) (s : State) :
    Host.Outcome State Fault Refusal :=
  match s.query? t, s.op? t op with
  | some q, some c =>
    match q.image.bind fun im => (im.op? op.toNat).map (im, ·) with
    | none => .next s
    | some (im, o) =>
      match (if o.code = opScan && q.st = .running then AMap.find? q.snap (BitVec.ofNat 16 (o.p 4 2)) else none),
          (scanCols im q.params o)[entry.toNat]? with
      | some tb, some col =>
        match (predList im q.params col.preds col.npred)[pred.toNat]? with
        | none => .next s
        | some p =>
          let v := s.colView tb (BitVec.ofNat 12 col.column) slot ((s.slotRows tb slot).getD 0)
          let units := ceilDiv (ceilDiv v.dict.length 8) 65536
          let keys := v.dict.map (searchKey p.ftotal v.ty)
          let asa := BitVec.ofNat 8 p.asa
          let needs := s.asaNeeds q asa allMask (keys.filterMap id)
          if (p.op ≠ 10 && p.op ≠ 11) || v.dict.isEmpty || AMap.has c.codeSets (entry, pred, slot) ||
              (s.inst t.inst).lsUnits.toNat < s.lsUse t.inst + units then .next s
          else if s.readPages v v.dpages ≠ .good then
            .next (s.readStop q (BitVec.ofNat 16 (o.p 4 2)) (BitVec.ofNat 12 col.column) slot v (s.readPages v v.dpages) v.dpages)
          else if !needs.met then .next (s.sendNeeds needs)
          else
            let set := keys.map fun k => match k with
              | some k => s.asaHit q asa k allMask
              | none => false
            .next (s.setOp t op { c with
              codeSets := c.codeSets.insert (entry, pred, slot) set, lsUnits := c.lsUnits + units })
      | _, _ => .next s
  | _, _ => .next s

/-! ### FILTER and ASA_FILTER (R265-R268) -/

/-- What an operator does with a whole input frame: it ends the query (with BAD_PARAMS, BAD_STREAM, a status or a page that
does not check), meets a fault or a loss of a host read, waits
with the frame held (its searches are sent), lacks spill pages for it (15 R460), or goes on: the words it emits, its context and the item as they are then,
and whether the frame is finished. -/
inductive FrameEnd where
  | params
  | stream
  | stop (status : BitVec 15)
  | corrupt (tid : BitVec 16) (col : BitVec 12) (slot : BitVec 20)
  | fault (page : BitVec 64)
  | lost
  | wait (n : Needs)
  | spill
  | emit (out : List OutWord) (c : OpCtx) (i : Item) (whole : Bool)

/-- A frame selected further, or nothing where it is empty and not emitted (R266). -/
def reselected (seed : Nat) (dropEmpty : Bool) (f : Frame) (keep : List Bool) (c : OpCtx) (i : Item) : FrameEnd :=
  let g := f.reselect keep
  let next := i.startRows + f.sel.length
  if dropEmpty && !g.sel.contains true then .emit [] c { i with progress := next } true
  else .emit (frameOut 0 (g.bytes seed) (some next) none) c i true

/-- The value of a run at every row of a frame, none for rows that are not selected. -/
def Frame.column (f : Frame) (k : Nat) : Vals :=
  match f.runs[k]? with
  | none => f.sel.map fun _ => none
  | some r => f.sel.zipIdx.map fun e => if e.1 then r.at f.sel e.2 else none

/-- FILTER of a frame (R265, R266). -/
def State.filterFrame (s : State) (q : Query) (im : Image) (o : OpDesc) (c : OpCtx) (i : Item) (f : Frame) :
    FrameEnd :=
  let preds := predList im q.params (o.p 0 4) (o.p 4 1)
  let ty (p : Pred) : Nat := asPlain (((f.runs[p.run]?).map (·.ty.toNat)).getD 0)
  if preds.any fun p => decide (f.runs.length ≤ p.run) || !predFits im q.params (ty p) p then .params
  else
    let cols := preds.map fun p => f.column p.run
    let at_ (k row : Nat) : Option Val := ((cols.getD k [])[row]?).join
    let search (p : Pred) : Bool := p.op == 10 || p.op == 11
    let start (row : Nat) : RowKnow := (row, preds.zipIdx.map fun (p, k) => {
      entry := 0, k := k, group := p.group
      is := if search p && (at_ k row).isSome then { Poss.any with unk := false }
        else Poss.of (predTri im q.params (ty p) p (fun _ => false) (at_ k row)) })
    let ask (k : Nat) (rows : List Nat) : AskEnd :=
      match preds[k]? with
      | none => .tri fun _ => .no
      | some p =>
        let key (r : Nat) : Option (BitVec 320) := (at_ k r).bind (searchKey p.ftotal (ty p))
        let needs := s.asaNeeds q (BitVec.ofNat 8 p.asa) allMask (dedup (rows.filterMap key))
        if !needs.met then .needs needs
        else .tri fun r => predTri im q.params (ty p) p
          (fun x => (searchKey p.ftotal (ty p) x).any fun k => s.asaHit q (BitVec.ofNat 8 p.asa) k allMask) (at_ k r)
    let rows := (List.range f.sel.length).filter fun r => f.sel.getD r false
    match judgeSearches 0 ask ((preds.zipIdx.filter fun x => search x.1).map (·.2)) (rows.map start) with
    | .needs n => .wait n
    | .build => .wait Needs.none
    | .known l =>
      let keep := (l.filter RowKnow.selected).map (·.1)
      reselected s.free (bit (o.p 5 1) 0) f ((List.range f.sel.length).map keep.contains) c i

/-- ASA_FILTER of a frame (R267, R268): KEEP_MATCH, KEEP_MISS or TAG. A RUN that the frame does not have ends the query with BAD_PARAMS, as
R266 has it for FILTER (DESIGN CHOICE, log 274), and so does an image WIDTH that the run's type does not fit (DEDUCED, log 275). -/
def State.asaFilterFrame (s : State) (q : Query) (im : Image) (o : OpDesc) (c : OpCtx) (i : Item) (f : Frame) :
    FrameEnd :=
  let asa := BitVec.ofNat 8 (o.p 1 1)
  let mode := o.p 2 1 % 4
  let ftotal := bit (o.p 2 1) 2
  let width := ((im.asas[o.p 1 1]?).map (·.width.toNat)).getD 0
  let mask : BitVec 320 := match im.ref (some q.params) (o.p 4 4) (asaBits width / 8) with
    | .data b => BitVec.ofNat 320 (leNat b)
    | _ => allMask
  match f.runs[o.p 0 1]? with
  | none => .params
  | some r =>
    let ty := asPlain r.ty.toNat
    if width ≠ asaWidth ty || (ftotal && !isFloat ty) || (mode = 2 && f.runs.length ≥ 64) then .params
    else
      let col := f.column (o.p 0 1)
      let keys := col.map fun v => v.bind (searchKey ftotal ty)
      let needs := s.asaNeeds q asa mask (dedup (keys.filterMap id))
      if !needs.met then .wait needs
      else
        let hits := keys.map fun k => match k with
          | some k => s.asaHit q asa k mask
          | none => false
        if mode = 2 then
          let tags : Vals := keys.map fun k => (k.bind fun k => s.asaTag q asa k mask).map fun t => mkVal 0x08 t.toNat
          let vals := if r.packed then (tags.zip f.sel).filterMap fun e => if e.2 then some e.1 else none else tags
          let sel := (tags.zip f.sel).filterMap fun e => if e.2 then some e.1 else none
          let run : Run := { ty := 0x08, valid := sel.any (·.isNone), packed := r.packed, vals := vals }
          reselected s.free (bit (o.p 2 1) 3) { f with runs := f.runs ++ [run] } f.sel c i
        else
          let keep := (hits.zip col).map fun e => if mode = 0 then e.1 else !e.1 && e.2.isSome
          reselected s.free (bit (o.p 2 1) 3) f keep c i

end Sys2Proof.Machine
end

