-- ==== Sys2Proof/Machine/Items.lean ====
section
/-! DEFINITION. Work items and operators of a running query (07 R217-R222; 05 R168): how an item comes to be, and when an
operator has ended. -/

namespace Sys2Proof.Machine

/-- The largest row count of a stream-fed item (07, Work items). -/
def itemRows : Nat := 65536

/-- The image and the descriptor of an operator of a query. -/
def Query.opOf (q : Query) (op : BitVec 16) : Option (Image × OpDesc) :=
  q.image.bind fun im => (im.op? op.toNat).map (im, ·)

/-- The on-chip descriptor space (07 R220). -/
def State.itemRoom (s : State) : Bool := decide (s.disp.items.length < 262144)

/-- A work item generated by its flow: READY, last of its level's generated part (R219, R220). -/
def State.newItem (s : State) (q : Query) (o : OpDesc) (op : BitVec 16) (flow : BitVec 8) (origin : BitVec 64)
    (count : Nat) (outq : List OutWord) : State :=
  match AMap.find? s.disp.flows (q.tag, op, flow) with
  | none => s
  | some f =>
    let i : Item := {
      id := s.disp.nextItem, query := q.tag, op := op, qid := q.qid.getD 0, flow := flow, flowNo := f.number, prio := q.prio,
      preempt := o.preempt, atomic := f.atomic, origin := origin, count := count, progress := 0, subpos := 0, subport := 0,
      st := .ready, lastStop := 0, opstate := 0, cause := none, outq := outq, inFrame := [], claims := [], block := [],
      unitLen := 0, since := s.time, startRows := 0, rows := [], opens := [], stall := none, pagesIn := [], part := f.cursor, runRows := 0, ls := 0,
      spill := 0, pageDue := none }
    { s with disp := { s.disp with
      items := s.disp.items ++ [i]
      nextItem := s.disp.nextItem + 1
      generated := s.disp.generated ++ [i.id]
      flows := AMap.update s.disp.flows (q.tag, op, flow) fun f => { f with cursor := f.cursor + 1 } } }

/-- How many items a flow has generated. -/
def State.cursor (s : State) (t : Tag) (op : BitVec 16) (flow : BitVec 8) : Nat :=
  ((AMap.find? s.disp.flows (t, op, flow)).map (·.cursor)).getD 0

def State.streamOf (s : State) (q : Query) (k : BitVec 16) : Option Stream := s.stream? (q.stream k)

/-- Every input of an operator has ended and is popped whole. -/
def State.inputsDrained (s : State) (q : Query) (o : OpDesc) : Bool :=
  o.ins.all fun k => (s.streamOf q k).any Stream.drained

/-- The state of a fresh operator (05 R164). -/
def OpCtx.fresh : OpCtx where
  ended := false
  shapes := []
  build := []
  buildRows := 0
  nullBuild := false
  partitioned := false
  handleSent := false
  handleRead := false
  passDone := false
  probes := []
  pairRoom := none
  partials := []
  records := []
  finals := []
  emitted := []
  runs := []
  merging := false
  ports := []
  outRows := []
  lastKey := []
  taken := 0
  codeSets := []
  content := []
  useq := 0
  cbseq := 0
  sendq := []
  home := 0
  order := []
  spilled := []
  bitParts := []
  lsUnits := 0
  spill := 0
  leave := false

/-- Probe kinds that end with a pass over the build rows (09 R285). -/
def kindPass (kind : Nat) : Bool := kind == 2 || kind == 3 || kind == 7 || kind == 8

/-- The elements of a source kernel (13 R415, R417). -/
def computeTotal (im : Image) (params : Bytes) (o : OpDesc) : Nat := leNat (im.ref (some params) (o.p 12 4) 8).bytes
def OpDesc.itemElems (o : OpDesc) : Nat := if o.p 8 4 = 0 then 65536 else o.p 8 4

/-- LIMIT's counts (10 R315). -/
def limitSkip (im : Image) (params : Bytes) (o : OpDesc) : Nat := leNat (im.ref (some params) (o.p 0 4) 8).bytes
def limitCount (im : Image) (params : Bytes) (o : OpDesc) : Nat := leNat (im.ref (some params) (o.p 4 4) 8).bytes

/-- The exchange of an operator. -/
def State.xchOf (s : State) (t : Tag) (op : BitVec 16) : Option Xch :=
  s.pair.xchs.find? fun x => x.query == t && x.op == op

/-- Whether every participant's END is there, and every frame received is committed (10 R328). -/
def Xch.allEnds (x : Xch) (self : BitVec 16) : Bool :=
  (x.nodes.all fun n => n == self || x.ends.contains n) && x.inbox.all fun e => e.2.isEmpty

/-- The element port of a COMPUTE, with its stream (13 R415). -/
def State.elemStream (s : State) (q : Query) (o : OpDesc) : Option (StreamRef × Stream) :=
  match o.ins[o.p 6 1]? with
  | some k => (s.streamOf q k).map (q.stream k, ·)
  | none => none

/-- Whether nothing is left of an unframed element port but its current word's end (13 R417). -/
def State.elemOver (s : State) (q : Query) (o : OpDesc) : Bool :=
  match s.elemStream q o with
  | some (_, st) =>
    let p := AMap.get st.reads 0 PortIn.none
    st.framed || decide (p.cur.length ≤ p.off)
  | none => true

/-- Whether an operator without live items has nothing left to do. -/
def State.opComplete (s : State) (q : Query) (im : Image) (o : OpDesc) (op : BitVec 16) (c : OpCtx) : Bool :=
  let drained := s.inputsDrained q o
  if o.code = opScan then decide ((s.scanRanges q im o).length ≤ s.cursor q.tag op 0)
  else if o.code = opCompute && o.p 6 1 = 0xFF then
    decide (ceilDiv (computeTotal im q.params o) o.itemElems ≤ s.cursor q.tag op 0)
  else if o.code = opCompute then drained && s.elemOver q o
  else if o.code = opBuild then drained && c.handleSent
  else if o.code = opProbe then
    drained && (c.probes.isEmpty || c.merging) && (c.passDone || !kindPass (o.p 17 1))
  else if o.code = opAggHash || o.code = opAggScalar || o.code = opSketch then
    drained && (List.range o.parts).all fun p => c.emitted.contains (BitVec.ofNat 8 p)
  else if o.code = opSort || o.code = opTopk then drained && c.passDone
  else if o.code = opLimit then
    drained || decide (limitSkip im q.params o + limitCount im q.params o ≤ c.taken)
  else if o.code = opMerge then drained && c.outRows.isEmpty && c.ports.all fun e => e.2.isEmpty
  else if o.code = opCompress then drained && c.content.isEmpty
  else if o.code = opExchange then
    drained && c.sendq.isEmpty && (s.xchOf q.tag op).all fun x => x.allEnds s.srcNode || x.nodes.length ≤ 1
  else drained

/-- An operator ends: its output streams end (06 R214); a HURDLE has none of its own; what it spilled is freed (15 R463),
and the Local Store of all but a hash table (09 R278); LIMIT's input is discarded from now on (10 R316); an EXCHANGE
releases its leave (19 R568). -/
def State.endOp (s : State) (q : Query) (o : OpDesc) (op : BitVec 16) (c : OpCtx) : State :=
  let s := s.setOp q.tag op { c with
    ended := true, spill := 0, lsUnits := if o.code = opBuild then c.lsUnits else 0 }
  let s := if o.code = opHurdle then s else forEach o.outs s fun s k => s.endStream (q.stream k)
  let s := if o.code = opLimit then forEach o.ins s fun s k =>
      match s.streamOf q k with
      | some st => s.setStream (q.stream k) ({ st with discard := true, words := [], inMiddle := [], frames := [] } : Stream).settleRp
      | none => s
    else s
  if o.code = opExchange then
    { s with power := { s.power with held := s.power.held.filter fun (l : Leave) =>
        match l.op with
        | .exchange t k => !(t == q.tag && k == op)
        | _ => true } }
  else s

/-- The first operator that has ended without being marked so. -/
def State.endingOp (s : State) (q : Query) (im : Image) : Option (OpDesc × Nat × OpCtx) :=
  im.ops.zipIdx.findSome? fun (o, k) =>
    match s.op? q.tag (BitVec.ofNat 16 k) with
    | some c =>
      if !c.ended && (s.opItems q.tag (BitVec.ofNat 16 k)).isEmpty && s.opComplete q im o (BitVec.ofNat 16 k) c then
        some (o, k, c)
      else none
    | none => none

/-- Operators end one after another, as long as one has nothing left to do. -/
def State.endOps (q : Query) (im : Image) : Nat → State → State
  | 0, s => s
  | fuel + 1, s =>
    match s.endingOp q im with
    | some (o, k, c) => State.endOps q im fuel (s.endOp q o (BitVec.ofNat 16 k) c)
    | none => s

/-- An XCH_CTRL message to every other participant (10 R328, R329; 18 R540). -/
def State.xchCtrl (s : State) (x : Xch) (code : Byte) : State :=
  forEach x.nodes s fun s n => if n = s.srcNode then s else s.sendNode n 0x22 x.xid (code :: zeros 15)

/-- An EXCHANGE whose own input has ended, with an empty send queue, sends END once; its output stream ends when every END is there and
the own input has ended (10 R328). -/
def State.xchEnds (s : State) (q : Query) (im : Image) : State :=
  forEach s.pair.xchs s fun s x =>
    if x.query ≠ q.tag then s
    else
      match im.op? x.op.toNat, s.op? q.tag x.op with
      | some o, some c =>
        if !s.inputsDrained q o || !(s.opItems q.tag x.op).isEmpty then s
        else
          let s := if x.allEnds s.srcNode || x.nodes.length ≤ 1 then forEach o.outs s fun s k => s.endStream (q.stream k) else s
          if !c.sendq.isEmpty || x.endSent then s
          else
          let s := { s with pair := { s.pair with
            xchs := s.pair.xchs.map fun y => if y.xid = x.xid then { y with endSent := true } else y } }
          if x.nodes.length ≤ 1 then s else s.xchCtrl x 1
      | _, _ => s

/-- After a command that popped, ended or emptied something of a query. -/
def State.settleOps (s : State) (t : Tag) : State :=
  match s.query? t with
  | none => s
  | some q =>
    match q.st, q.image with
    | .running, some im => State.endOps q im im.ops.length (s.xchEnds q im)
    | .paused, some im => State.endOps q im im.ops.length (s.xchEnds q im)
    | _, _ => s

/-- An operator pushes words of its own, outside an item; the frame goes whole or not at all. -/
def State.pushWords (r : StreamRef) (owner : Nat) : List (BitVec 512) → State → Option State
  | [], s => some s
  | w :: ws, s =>
    let e := s.offerWord r owner w
    if e.2 = .landed then State.pushWords r owner ws e.1 else none

/-- A run type list is the first frame's of the port, or the first (09 R665). -/
def shapeOk (c : OpCtx) (port : BitVec 3) (types : List (BitVec 8)) : Bool :=
  match AMap.find? c.shapes port with
  | some l => l == types
  | none => true

def OpCtx.setShape (c : OpCtx) (port : BitVec 3) (types : List (BitVec 8)) : OpCtx :=
  { c with shapes := c.shapes.insert port types }

/-- Spill pages an operator would hold with these rows and bytes fit its instance's quota (15 R460). -/
def State.spillFits (s : State) (t : Tag) (c : OpCtx) (pages : Nat) : Bool :=
  decide (s.spillUse t.inst - c.spill + pages ≤ (s.inst t.inst).spillPages.toNat)

/-- The pages that are left of an instance's spill quota. -/
def State.spillRoom (s : State) (i : BitVec 8) : Nat := (s.inst i).spillPages.toNat - s.spillUse i

/-- An operator that needs more pages than are left takes those that are (15 R460). -/
def State.takeSpill (s : State) (t : Tag) (op : BitVec 16) : State :=
  match s.op? t op with
  | some c => s.setOp t op { c with spill := c.spill + s.spillRoom t.inst }
  | none => s

/-- The Local Store units that are left of an instance's quota. -/
def State.lsRoom (s : State) (i : BitVec 8) : Nat := (s.inst i).lsUnits.toNat - s.lsUse i

/-- Frames of rows as output words of a port; with each frame the progress given for its rows. -/
def rowsOut (port : Nat) (types : List (BitVec 8)) (seed : Nat) (done : Nat) : List (List Vals) → List OutWord
  | [] => []
  | rows :: rest =>
    frameOut port ((rowsFrame types rows 0).bytes seed) (some (done + rows.length)) none ++
      rowsOut port types seed (done + rows.length) rest

/-- The output words of a whole list of rows, an element of the item each. -/
def emitRows (port : Nat) (types : List (BitVec 8)) (seed : Nat) (rows : List Vals) : List OutWord :=
  rowsOut port types seed 0 (cutRows types seed rows.length rows)

end Sys2Proof.Machine
end

