-- ==== Sys2Proof/Machine/Aggregate.lean ====
section
/-! DEFINITION. AGG_HASH, AGG_SCALAR and SKETCH (09 R290-R303). -/

namespace Sys2Proof.Machine

/-! ### HyperLogLog (R299, R300) -/

/-- Trailing zeros of a number, at most `fuel`. -/
def trailing : Nat → Nat → Nat
  | 0, _ => 0
  | fuel + 1, n => if n % 2 = 1 then 0 else trailing fuel (n / 2) + 1

/-- A register takes the larger rank. -/
def hllPut (r : AMap (BitVec 14) (BitVec 6)) (idx : BitVec 14) (rank : BitVec 6) : AMap (BitVec 14) (BitVec 6) :=
  if (AMap.get r idx 0).ult rank then AMap.insert r idx rank else r

def hllAdd (r : AMap (BitVec 14) (BitVec 6)) (ks : Bytes) : AMap (BitVec 14) (BitVec 6) :=
  let h := (sh64 ks hllSeed).toNat
  let rest := h / 2 ^ 14
  hllPut r (BitVec.ofNat 14 h) (BitVec.ofNat 6 (if rest = 0 then 51 else trailing 50 rest + 1))

def hllMerge (a b : AMap (BitVec 14) (BitVec 6)) : AMap (BitVec 14) (BitVec 6) :=
  b.foldl (fun r e => hllPut r e.1 e.2) a

/-! The natural logarithm of the estimate (R299), in units of 2^-128 and then as a binary64 number. -/

/-- z + z^3/3 + z^5/5 + …, from the term of exponent 2k + 1 on; `zp` is that power of z, `z2` its square. -/
def atanhSum : Nat → Nat → Nat → Nat → Nat
  | 0, _, _, _ => 0
  | fuel + 1, k, zp, z2 => zp / (2 * k + 1) + atanhSum fuel (k + 1) (zp * z2 / 2 ^ 128) z2

/-- ln (num / den) for 1 ≤ num / den ≤ 2. -/
def lnUnit (num den : Nat) : Nat :=
  let z := (num - den) * 2 ^ 128 / (num + den)
  2 * atanhSum 48 0 z (z * z / 2 ^ 128)

/-- The natural logarithm of a binary64 number of at least 1: the number at or below it, or where it lies between two the one above,
as the engine has it. -/
def log64 (x : Nat) : Nat :=
  let m := x % 2 ^ 52 + 2 ^ 52
  let v := (x / 2 ^ 52 - 1023) * lnUnit 2 1 + lnUnit m (2 ^ 52)
  if v = 0 then 0
  else
    let l := Nat.log2 v
    (1023 + l - 128) * 2 ^ 52 + (v * 2 ^ 52 / 2 ^ l - 2 ^ 52) + Bool.asNat (Config.logUp (BitVec.ofNat 64 x))

/-- The estimate, in binary64 and in index order (R299). -/
def hllEstimate (r : AMap (BitVec 14) (BitVec 6)) : Nat :=
  let regs := (List.range 16384).map fun k => (AMap.get r (BitVec.ofNat 14 k) 0).toNat
  let nZero := (regs.filter (· == 0)).length
  let sum := regs.foldl (fun a k => (f64.add a ((1023 - k) * 2 ^ 52)).1) 0
  let m : Nat := 0x40D0000000000000
  let alpha := (f64.div 0x3FE714E3BCD35A86 (f64.add 0x3FF0000000000000 (f64.div 0x3FF14395810624DD m).1).1).1
  let e := (f64.div (f64.mul (f64.mul alpha m).1 m).1 sum).1
  let e := if (f64.compare .le e 0x40E4000000000000).1 && decide (0 < nZero) then
      (f64.mul m (log64 (f64.div m (f64.ofInt nZero).1).1)).1
    else e
  (f64.toInt 65 (f64.add e 0x3FE0000000000000).1).1

def hllState (r : AMap (BitVec 14) (BitVec 6)) : Bytes :=
  leBytes 2 0x4C48 ++ [1, 14] ++ zeros 4 ++
    pack 6 ((List.range 16384).map fun k => (AMap.get r (BitVec.ofNat 14 k) 0).toNat)

/-- A state read back; none where it breaks R300. -/
def readHll (bs : Bytes) : Option (AMap (BitVec 14) (BitVec 6)) :=
  if bs.length ≠ 12296 || fld bs 0 2 ≠ 0x4C48 || fld bs 2 1 ≠ 1 || fld bs 3 1 ≠ 14 || fld bs 4 4 ≠ 0 then none
  else
    let n := leNat (bs.drop 8)
    some ((List.range 16384).filterMap fun k =>
      let v := n / 2 ^ (6 * k) % 64
      if v = 0 then none else some (BitVec.ofNat 14 k, BitVec.ofNat 6 v))

/-! ### QS sketches (R301-R303) -/

def Qs.empty (ty : BitVec 8) : Qs := { ty := ty, levels := [[]], parity := [false], n := 0 }

/-- The elements at every second place from `par`. -/
def everyOther {α : Type} (par : Bool) (l : List α) : List α :=
  (l.zipIdx.filter fun e => e.2 % 2 == Bool.asNat par).map (·.1)

/-- The levels from one on settled: what is promoted joins the next level, a new one at the end. -/
def settleLevels (ty : Nat) : Nat → List Val → List (List Val) → List Bool → List (List Val) × List Bool
  | 0, _, ls, ps => (ls, ps)
  | fuel + 1, carry, ls, ps =>
    match ls, ps with
    | l :: ls, p :: ps =>
      let items := l ++ carry
      if items.length < 1024 then
        let r := settleLevels ty fuel [] ls ps
        (items :: r.1, p :: r.2)
      else
        let sorted := sortBy (valLt ty) items
        let c := sorted.length / 2 * 2
        let r := settleLevels ty fuel (everyOther p (sorted.take c)) ls ps
        (sorted.drop c :: r.1, (!p) :: r.2)
    | _, _ => if carry.isEmpty then ([], []) else
        let r := settleLevels ty fuel carry [[]] [false]
        (r.1, r.2)

def Qs.settle (q : Qs) : Qs :=
  let r := settleLevels q.ty.toNat 128 [] q.levels q.parity
  { q with levels := r.1, parity := r.2 }

/-- A value added; a NaN is not. -/
def Qs.add (q : Qs) (v : Val) : Qs :=
  if isFloat q.ty.toNat && isNan q.ty.toNat v.bits then q
  else
    let levels := match q.levels with
      | l :: r => (l ++ [v]) :: r
      | [] => [[v]]
    Qs.settle { q with levels := levels, n := q.n + 1 }

/-- Two lists joined element by element, the longer one's rest kept. -/
def zipLong {α : Type} (f : α → α → α) : List α → List α → List α
  | [], b => b
  | a, [] => a
  | x :: a, y :: b => f x y :: zipLong f a b

def Qs.merge (a b : Qs) : Qs :=
  Qs.settle { a with
    ty := if a.n = 0 ∧ (b.n ≠ 0 ∨ a.ty = 0) then b.ty else a.ty, levels := zipLong (· ++ ·) a.levels b.levels,
    parity := zipLong (fun x y => x ^^ y) a.parity b.parity, n := a.n + b.n }

/-- ceil(q × N) of a binary64 fraction, at least 1. -/
def quantileRank (frac n : Nat) : Nat :=
  match f64.unpack frac with
  | .fin _ m e =>
    let t := if 0 ≤ e then m * n * 2 ^ e.toNat else ceilDiv (m * n) (2 ^ (-e).toNat)
    max 1 t
  | _ => 1

/-- The first item at which the running weight reaches a rank. -/
def weightAt : List (Val × Nat) → Nat → Nat → Option Val
  | [], _, _ => none
  | (v, w) :: r, acc, rank => if rank ≤ acc + w then some v else weightAt r (acc + w) rank

def Qs.quantile (q : Qs) (frac : Nat) : Option Val :=
  if q.n = 0 then none
  else
    let all := q.levels.zipIdx.flatMap fun l => l.1.map fun v => (v, 2 ^ l.2)
    weightAt (sortBy (fun a b => valLt q.ty.toNat a.1 b.1) all) 0 (quantileRank frac q.n)

/-- The value types that a QS sketch can have (R293). -/
def sketchTypes : List (BitVec 8) := [0x02, 0x03, 0x04, 0x05, 0x06, 0x07, 0x08, 0x09, 0x0A, 0x0B, 0x0C, 0x0E, 0x0F]

/-- The value type of a sketch that no value has joined, which the spec does not state: one of those. -/
def openSketchType (k : Nat) : BitVec 8 := sketchTypes.getD ((Config.absentType k).toNat % 13) 0x02

/-- A sketch with a value type of its own. -/
def Qs.typed (q : Qs) (k : Nat) : Qs := if q.ty = 0 then { q with ty := openSketchType k } else q

def Qs.state (q : Qs) : Bytes :=
  let w := tyBytes q.ty.toNat
  leBytes 2 0x5351 ++ [1, q.ty] ++ leBytes 2 1024 ++ leBytes 1 q.levels.length ++ [0] ++ leBytes 8 q.n ++
    ((q.levels.zip q.parity).flatMap fun e => leBytes 4 (e.1.length + 65536 * Bool.asNat e.2)) ++
    q.levels.flatMap fun l => (sortBy (valLt q.ty.toNat) l).flatMap fun v => leBytes w v.bits

/-- Whether values ascend. -/
def ascends (ty : Nat) : List Val → Bool
  | a :: b :: r => !valLt ty b a && ascends ty (b :: r)
  | _ => true

/-- The levels cut from the items. -/
def cutLevels (w ty : Nat) : List Nat → Bytes → List (List Val)
  | [], _ => []
  | n :: r, bs => ((chunks w n (bs.take (w * n))).map fun b => mkVal ty (leNat b)) :: cutLevels w ty r (bs.drop (w * n))

/-- A state read back; none where it breaks R303. -/
def readQs (bs : Bytes) : Option Qs :=
  let ty := fld bs 3 1
  let nl := fld bs 6 1
  let words := (entries 4 nl (slice bs 16 (4 * nl))).map leNat
  let counts := words.map (· % 65536)
  let levels := cutLevels (tyBytes ty) ty counts (bs.drop (16 + 4 * nl))
  if fld bs 0 2 ≠ 0x5351 || fld bs 2 1 ≠ 1 || !fnAccepts 0x11 ty || fld bs 4 2 ≠ 1024 || nl < 1 || 48 < nl ||
      fld bs 7 1 ≠ 0 || words.any (fun x => 2 ^ 17 ≤ x || 1023 < x % 65536) ||
      bs.length ≠ 16 + 4 * nl + tyBytes ty * counts.sum || !levels.all (ascends ty) then none
  else some {
    ty := BitVec.ofNat 8 ty, levels := levels, parity := words.map fun x => bit x 16, n := fld bs 8 8 }

/-! ### One function of a group -/

def AggCell.fresh (fn : AggFn) (ty : Nat) : AggCell where
  count := 0
  sum := 0
  fsum := 0
  fexact := []
  best := none
  picks := []
  seen := []
  hll := []
  qs := Qs.empty (if fn.code = 0x13 then 0 else BitVec.ofNat 8 ty)

/-- A float value as binary64 bits. -/
def asF64 (ty : Nat) (v : Val) : Nat := if ty = 0x0A then (f64.convert f32 v.bits).1 else v.bits

def qsMixed (a b : Qs) : Bool := a.n != 0 && b.n != 0 && a.ty != b.ty

/-- A non-null input joins a function's cell (R293-R296, R299-R303); none where a state breaks its layout. -/
def AggCell.add (ftotal : Bool) (fn : AggFn) (ty : Nat) (v : Val) (c : AggCell) : Option AggCell :=
  let ks := keyPart ftotal ty (some v)
  let c1 := { c with count := c.count + 1 }
  if fn.code = 0x03 || fn.code = 0x04 then
    if isFloat ty then
      let x := asF64 ty v
      some (if fn.dsum then { c1 with fexact := c.fexact ++ [BitVec.ofNat 64 x] }
        else { c1 with
          fsum := BitVec.ofNat 64 (if c.count = 0 then x else (f64.add c.fsum.toNat x).1)
          fexact := if x / 2 ^ 52 % 2048 = 2047 then c.fexact ++ [BitVec.ofNat 64 x] else c.fexact })
    else some { c1 with sum := c.sum + v.int ty }
  else if fn.code = 0x05 then
    some { c1 with best := match c.best with
      | some b => if valLt ty v b then some v else some b
      | none => some v }
  else if fn.code = 0x06 then
    some { c1 with best := match c.best with
      | some b => if valLt ty b v then some v else some b
      | none => some v }
  else if fn.code = 0x07 || fn.code = 0x08 then
    some { c1 with best := match c.best with
      | some b => some (.fixed (if fn.code = 0x07 then BitVec.ofNat 128 b.bits &&& BitVec.ofNat 128 v.bits
          else BitVec.ofNat 128 b.bits ||| BitVec.ofNat 128 v.bits))
      | none => some v }
  else if fn.code = 0x09 then some { c1 with picks := c.picks ++ [v] }
  else if fn.code = 0x0A then some { c1 with seen := if c.seen.contains ks then c.seen else c.seen ++ [ks] }
  else if fn.code = 0x0B || fn.code = 0x10 then some { c1 with hll := hllAdd c.hll ks }
  else if fn.code = 0x0C || fn.code = 0x11 then some { c1 with qs := c.qs.add v }
  else if fn.code = 0x12 then (readHll v.text).map fun r => { c1 with hll := hllMerge c.hll r }
  else if fn.code = 0x13 then
    match readQs v.text with
    | some q => if qsMixed c.qs q then none else some { c1 with qs := c.qs.merge q }
    | none => none
  else some c1

/-- Two cells of the same function joined, in the order in which the partial records arrive. -/
def AggCell.join (fn : AggFn) (ty : Nat) (a b : AggCell) : AggCell :=
  let pick (x y : Val) : Val :=
    if fn.code = 0x05 then if valLt ty y x then y else x
    else if fn.code = 0x06 then if valLt ty x y then y else x
    else if fn.code = 0x07 then .fixed (BitVec.ofNat 128 x.bits &&& BitVec.ofNat 128 y.bits)
    else .fixed (BitVec.ofNat 128 x.bits ||| BitVec.ofNat 128 y.bits)
  { count := a.count + b.count
    sum := a.sum + b.sum
    fsum := if a.count = 0 then b.fsum else if b.count = 0 then a.fsum else
      BitVec.ofNat 64 (f64.add a.fsum.toNat b.fsum.toNat).1
    fexact := a.fexact ++ b.fexact
    best := match a.best, b.best with
      | some x, some y => some (pick x y)
      | some x, none => some x
      | none, y => y
    picks := a.picks ++ b.picks
    seen := a.seen ++ b.seen.filter fun k => !(a.seen.contains k)
    hll := hllMerge a.hll b.hll
    qs := a.qs.merge b.qs }

/-- The run type of a SUM (R295, R296). -/
def sumType (fn : AggFn) (ty : Nat) : Nat :=
  if isFloat ty then 0x0B else if isDec ty || fn.wide then 0x0D else if isSigned ty then 0x05 else 0x09

/-- The result run types of a function (R293); `state` is the value type of QS states. -/
def fnTypes (op : Nat) (fn : AggFn) (ty state : Nat) : List Nat :=
  if fn.code = 0x03 then [sumType fn ty]
  else if fn.code = 0x04 then [sumType fn ty, 0x09]
  else if fn.code = 0x05 || fn.code = 0x06 || fn.code = 0x07 || fn.code = 0x08 || fn.code = 0x09 || fn.code = 0x0C then [ty]
  else if fn.code = 0x10 || fn.code = 0x11 then [0x11]
  else if fn.code = 0x12 then [if op = opSketch then 0x11 else 0x09]
  else if fn.code = 0x13 then [if op = opSketch then 0x11 else state]
  else [0x09]

/-- An exact float sum rounded once, with the special values of R296. -/
def exactSum (l : List (BitVec 64)) : Nat :=
  let ns := l.map fun x => f64.unpack x.toNat
  if ns.any FNum.isNan || (ns.contains (.inf true) && ns.contains (.inf false)) then f64.qnan
  else if ns.contains (.inf false) then f64.infBits
  else if ns.contains (.inf true) then f64.signed true f64.infBits
  else
    let t := (l.map fun x => exact64 x.toNat).sum
    if t = 0 then f64.signed (Config.zeroSumNegative && l.all fun x => x.toNat == f64.signBit) 0
    else (f64.round (decide (t < 0)) t.natAbs (-1074) false).1

/-- The value of a SUM, and whether it overflowed (R294-R296); without DSUM, NaNs and infinities among the inputs settle it. -/
def sumValue (fn : AggFn) (ty : Nat) (c : AggCell) : Option Val × Bool :=
  if c.count = 0 then (none, false)
  else if isFloat ty then (some (mkVal 0x0B (if fn.dsum || !c.fexact.isEmpty then exactSum c.fexact else normNan c.fsum.toNat)), false)
  else
    let t := sumType fn ty
    if inRange t c.sum then (some (mkVal t (toBits (tyBits t) c.sum)), false) else (none, true)
where
  normNan (n : Nat) : Nat := if isNan 0x0B n then qnan 0x0B else n

/-- The results of a function, and whether a sum overflowed (R293, R294). -/
def AggCell.results (im : Image) (params : Bytes) (op : Nat) (fn : AggFn) (ty seed : Nat) (c : AggCell) : Vals × Bool :=
  let frac := leNat (im.ref (some params) fn.arg 8).bytes
  if fn.code = 0x03 then ([(sumValue fn ty c).1], (sumValue fn ty c).2)
  else if fn.code = 0x04 then ([(sumValue fn ty c).1, some (mkVal 0x09 c.count)], (sumValue fn ty c).2)
  else if fn.code = 0x05 || fn.code = 0x06 || fn.code = 0x07 || fn.code = 0x08 then ([c.best], false)
  else if fn.code = 0x09 then ([c.picks[Config.anyPick seed % max 1 c.picks.length]?], false)
  else if fn.code = 0x0A then ([some (mkVal 0x09 c.seen.length)], false)
  else if fn.code = 0x0B then ([some (mkVal 0x09 (if c.count = 0 then 0 else hllEstimate c.hll))], false)
  else if fn.code = 0x0C then ([c.qs.quantile frac], false)
  else if fn.code = 0x10 then ([some (.str (hllState c.hll))], false)
  else if fn.code = 0x11 then ([some (.str c.qs.state)], false)
  else if fn.code = 0x12 then
    if op = opSketch then ([some (.str (hllState c.hll))], false)
    else ([if c.count = 0 then none else some (mkVal 0x09 (hllEstimate c.hll))], false)
  else if fn.code = 0x13 then
    if op = opSketch then ([some (.str (c.qs.typed fn.run).state)], false) else ([c.qs.quantile frac], false)
  else ([some (mkVal 0x09 c.count)], false)

/-! ### Groups -/

/-- The functions of an operator. -/
def aggFns (im : Image) (params : Bytes) (o : OpDesc) : List AggFn :=
  (entries 8 (o.p 9 1) (im.ref (some params) (o.p 12 4) (8 * o.p 9 1)).bytes).map readFn

def OpDesc.aggKeys (o : OpDesc) : List Nat := o.keyRuns (o.p 8 1)
def OpDesc.aggTotal (o : OpDesc) : Bool := bit (o.p 16 1) 0

/-- The type of a function's input run. -/
def fnType (types : List (BitVec 8)) (fn : AggFn) : Nat := if fn.run = 0xFF then 0 else (types.getD fn.run 0).toNat

/-- One row joins its group; none where a state breaks its layout. -/
def addRow (ftotal : Bool) (types : List (BitVec 8)) (keys : List Nat) (fns : List AggFn) (row : Vals)
    (gs : List Group) : Option (List Group) :=
  let key := keyString ftotal types keys row
  let kvals : Vals := keys.map fun k =>
    let ty := (types.getD k 0).toNat
    ((row[k]?).join).map fun v => if isStr ty then v else mkVal ty (normBits ftotal ty v.bits)
  let g := (gs.find? (·.key == key)).getD { key := key, kvals := kvals, cells := fns.map fun f => AggCell.fresh f (fnType types f) }
  let cells := (fns.zip g.cells).map fun (f, c) =>
    if f.code = 1 then some { c with count := c.count + 1 }
    else
      match (row[f.run]?).join with
      | none => some c
      | some v => c.add ftotal f (fnType types f) v
  if cells.any (·.isNone) then none
  else
    let g1 := { g with cells := cells.filterMap id }
    some (if gs.any (·.key == key) then gs.map fun x => if x.key = key then g1 else x else gs ++ [g1])

/-- Groups a table holds (R297). -/
def maxGroups : Nat := 1048576

/-- The bytes that groups keep of their own: keys and the value sets of COUNT_DISTINCT. -/
def groupBytes (gs : List Group) : Nat :=
  (gs.map fun g => g.key.length + (g.cells.map fun c => (c.seen.map List.length).sum).sum).sum

/-- Local Store units of a group table (R297). A table of one group, which an aggregate unit holds itself, takes none (DESIGN CHOICE,
log 271). -/
def groupUnits (gs : List Group) : Nat := if gs.length ≤ 1 then 0 else Config.lsUnits 0x28 gs.length (groupBytes gs)

/-- Spill pages of partial records. -/
def recordPages (gs : List Group) : Nat := if gs.isEmpty then 0 else Config.spillPages 0x28 gs.length (groupBytes gs)

/-- Units of all tables of an operator. -/
def OpCtx.groupUnits (c : OpCtx) : Nat :=
  ((c.partials ++ c.finals).map fun e => Sys2Proof.Machine.groupUnits e.2).sum

/-- Whether a table of an operator can grow to these groups (R297): the limit of groups, and the instance's Local Store beside what
its other tables hold. -/
def State.groupsFit (s : State) (t : Tag) (c : OpCtx) (others : Nat) (gs : List Group) : Bool :=
  decide (gs.length ≤ maxGroups) && (decide (gs.length ≤ 1) || decide (others + groupUnits gs ≤ s.lsRoom t.inst + c.lsUnits))

/-- Rows join a partial table; one that cannot grow is flushed and starts empty (R297): the table, and what was flushed. -/
def addRows (ftotal : Bool) (types : List (BitVec 8)) (keys : List Nat) (fns : List AggFn) (fits : List Group → Bool) :
    List Vals → List Group → List Group → Option (List Group × List Group)
  | [], gs, out => some (gs, out)
  | r :: rs, gs, out =>
    match addRow ftotal types keys fns r gs with
    | none => none
    | some more =>
      if fits more then addRows ftotal types keys fns fits rs more out
      else
        match addRow ftotal types keys fns r [] with
        | some one => addRows ftotal types keys fns fits rs one (out ++ gs)
        | none => none

/-- Partial records join a final table, in their order. -/
def joinGroups (types : List (BitVec 8)) (fns : List AggFn) (finals : List Group) (rs : List Group) : List Group :=
  rs.foldl (fun gs r =>
    if gs.any (·.key == r.key) then
      gs.map fun g => if g.key = r.key then
        { g with cells := (fns.zip (g.cells.zip r.cells)).map fun e => AggCell.join e.1 (fnType types e.1) e.2.1 e.2.2 } else g
    else gs ++ [r]) finals

/-- The partition of a group (R275). -/
def OpDesc.partOf (o : OpDesc) (key : Bytes) : BitVec 8 :=
  BitVec.ofNat 8 (hashPart 1 (sh64 key 0) * o.parts / 64)

/-- Groups flushed as partial records to their partition flows (R290, R297). -/
def flushGroups (o : OpDesc) (records : AMap (BitVec 8) (List Group)) (gs : List Group) : AMap (BitVec 8) (List Group) :=
  gs.foldl (fun m g => AMap.insert m (o.partOf g.key) (AMap.get m (o.partOf g.key) [] ++ [g])) records

/-- QS states of one function carry one value type. -/
def statesMixed (fns : List AggFn) (c : OpCtx) : Bool :=
  let all := (c.partials ++ c.records ++ c.finals ++ c.spilled).flatMap (·.2)
  (List.range fns.length).any fun k => hasTwo (dedup (all.filterMap fun g =>
    (g.cells[k]?).bind fun x => if x.qs.n = 0 then none else some x.qs.ty))
where
  hasTwo : List (BitVec 8) → Bool
    | _ :: _ :: _ => true
    | _ => false

/-- A frame of a partial flow's item (R290-R297, R665): its rows join the flow's partial table, which is flushed when it
cannot grow. -/
def State.aggFrame (s : State) (q : Query) (im : Image) (o : OpDesc) (c : OpCtx) (i : Item) (f : Frame) : FrameEnd :=
  let fns := aggFns im q.params o
  let types := f.types
  let badFn (fn : AggFn) : Bool :=
    fn.code != 1 && (decide (types.length ≤ fn.run) || !fnAccepts fn.code (fnType types fn) ||
      (fn.itype != 0 && fn.itype != fnType types fn))
  if !shapeOk c 0 types then .stream
  else if fns.any badFn || o.aggKeys.any (fun k => decide (types.length ≤ k)) then .params
  else
    let table := AMap.get c.partials i.flow []
    let others := c.groupUnits - groupUnits table
    match addRows o.aggTotal types o.aggKeys fns (s.groupsFit q.tag c others) (f.rows.map (·.2)) table [] with
    | none => .params
    | some (gs, out) =>
      let c2 : OpCtx := { c.setShape 0 types with
        partials := AMap.insert c.partials i.flow gs
        records := flushGroups o c.records out }
      if statesMixed fns c2 then .params
      else .emit [] { c2 with lsUnits := c2.groupUnits } { i with progress := i.startRows + f.sel.length } true

/-- Whether every partial flow has ended: the input is drained and no item of one is left. -/
def State.partialsEnded (s : State) (q : Query) (o : OpDesc) (op : BitVec 16) : Bool :=
  s.inputsDrained q o && !((s.opItems q.tag op).any fun i => decide (i.flow.toNat < o.pflows))

/-- A partial flow that has ended flushes its table to the partition flows (R290). -/
def State.aggSettle (s : State) (q : Query) (o : OpDesc) (op : BitVec 16) : State :=
  match s.op? q.tag op with
  | some c =>
    let ended (e : BitVec 8 × List Group) : Bool := s.inputsDrained q o && (s.flowItems q.tag op e.1).isEmpty
    if c.partials.any ended then
      let c1 := { c with
        partials := c.partials.filter fun e => !ended e
        records := ((c.partials.filter ended).reverse).foldl (fun m (e : BitVec 8 × List Group) => flushGroups o m e.2) c.records }
      s.setOp q.tag op { c1 with lsUnits := c1.groupUnits }
    else s
  | none => s

/-- The next merge item of a partition flow, over the partial records that are there (R290, R298). -/
def State.aggMergeItem (s : State) (q : Query) (o : OpDesc) (op : BitVec 16) (flow : BitVec 8) : State :=
  let s := s.aggSettle q o op
  match s.op? q.tag op with
  | none => s
  | some c =>
    let n := (AMap.get c.records (flow - BitVec.ofNat 8 o.pflows) []).length
    if n = 0 || !(s.flowItems q.tag op flow).isEmpty then s
    else s.newItem q o op flow (BitVec.ofNat 64 (s.cursor q.tag op flow)) (min n itemRows) []

/-- The partition that a merge item of an aggregate works for, while records of its range are left. -/
def OpDesc.mergePart (o : OpDesc) (c : OpCtx) (i : Item) : Option (BitVec 8) :=
  let part := i.flow - BitVec.ofNat 8 o.pflows
  if !(o.code = opAggHash || o.code = opAggScalar || o.code = opSketch) || i.flow.toNat < o.pflows || !i.outq.isEmpty ||
      i.count ≤ i.progress || c.emitted.contains part then none
  else some part

/-- One partial record joins its partition's final table; a table that cannot grow spills: its groups and the record are partial records
in pool memory from then on, as every later record (R297). None where no spill page is left. -/
def State.mergeRecord (s : State) (q : Query) (im : Image) (o : OpDesc) (c : OpCtx) (part : BitVec 8) (r : Group) : Option OpCtx :=
  let old := AMap.get c.finals part []
  let gs := joinGroups (AMap.get c.shapes 0 []) (aggFns im q.params o) old [r]
  if !AMap.has c.spilled part && s.groupsFit q.tag c (c.groupUnits - groupUnits old) gs then
    let c1 := { c with finals := AMap.insert c.finals part gs }
    some { c1 with lsUnits := c1.groupUnits }
  else
    let c1 := { c with
      finals := AMap.erase c.finals part
      spilled := AMap.insert c.spilled part (AMap.get c.spilled part [] ++ old ++ [r]) }
    let pages := (c1.spilled.map fun e => recordPages e.2).sum
    if s.spillFits q.tag c pages then some { c1 with lsUnits := c1.groupUnits, spill := pages } else none

/-- The element of a merge item (R298): its next record is merged; without a spill page for it the pages that are left are taken. -/
def State.mergeStep (s : State) (q : Query) (im : Image) (o : OpDesc) (c : OpCtx) (i : Item) (part : BitVec 8) : State :=
  match AMap.get c.records part [] with
  | [] => s
  | r :: rest =>
    match s.mergeRecord q im o c part r with
    | none => s.takeSpill q.tag i.op
    | some c1 => (s.setOp q.tag i.op { c1 with records := AMap.insert c1.records part rest }).modItem i.id fun i => { i with
        progress := i.progress + 1 }

/-! A spilled partition is emitted table by table (R297): each with its spill level and pass. -/

/-- As many groups as fit a table, one at least, and the rest. -/
def fillGroups (fits : List Group → Bool) : List Group → List Group → List Group × List Group
  | acc, [] => (acc, [])
  | acc, g :: rest => if acc.isEmpty || fits (acc ++ [g]) then fillGroups fits (acc ++ [g]) rest else (acc, g :: rest)

/-- The passes over a sub-partition that does not fit at level 3: the groups in order of first appearance. -/
def aggPasses (fits : List Group → Bool) : Nat → Nat → List Group → List (Nat × Nat × List Group)
  | 0, _, _ => []
  | _, _, [] => []
  | fuel + 1, k, gs =>
    let e := fillGroups fits [] gs
    (3, k, e.1) :: aggPasses fits fuel (k + 1) e.2

/-- The tables of partial records split by the spill level bits of R275, from a level on. -/
def aggTables (join : List Group → List Group) (fits : List Group → Bool) : Nat → Nat → List Group → List (Nat × Nat × List Group)
  | 0, _, rs => aggPasses fits rs.length 0 (join rs)
  | fuel + 1, level, rs =>
    (List.range 64).flatMap fun k =>
      let sub := rs.filter fun r => hashPart (level + 1) (sh64 r.key 0) == k
      if sub.isEmpty then []
      else if fits (join sub) then [(level, 0, join sub)]
      else aggTables join fits fuel (level + 1) sub

/-- The run types an aggregate emits (R293, R294). -/
def aggTypes (im : Image) (params : Bytes) (o : OpDesc) (c : OpCtx) : List (BitVec 8) :=
  let fns := aggFns im params o
  let all := (c.partials ++ c.records ++ c.finals ++ c.spilled).flatMap (·.2)
  let state (k : Nat) : Nat :=
    ((all.findSome? fun g => (g.cells[k]?).bind fun x => if x.qs.ty = 0 then none else some x.qs.ty).getD
      (openSketchType k)).toNat
  match AMap.find? c.shapes 0 with
  | some types =>
    (o.aggKeys.map fun k => types.getD k 0) ++
      fns.zipIdx.flatMap fun e => (fnTypes o.code e.1 (fnType types e.1) (state e.2)).map (BitVec.ofNat 8)
  | none =>
    fns.zipIdx.flatMap fun (fn, k) =>
      let ty := if fn.itype != 0 then fn.itype else 0x05
      (fnTypes o.code fn ty (if fn.itype != 0 then (openSketchType k).toNat else ty)).map (BitVec.ofNat 8)

/-- Replace the first elements of a list with the rest: a rotation. -/
def rotate {α : Type} (n : Nat) (l : List α) : List α := l.drop (n % max 1 l.length) ++ l.take (n % max 1 l.length)

/-- The tables that a partition is emitted from, each with its OPSTATE: its final table, or those of a spilled partition; AGG_SCALAR
has one group always (R294). Within a table the order is open. -/
def State.partTables (s : State) (q : Query) (im : Image) (o : OpDesc) (c : OpCtx) (part : BitVec 8) :
    List (Option (BitVec 32) × List Group) :=
  let fns := aggFns im q.params o
  let turn (l : List Group) : List Group := rotate (Config.emitTurn s.free) l
  if AMap.has c.spilled part then
    (aggTables (joinGroups (AMap.get c.shapes 0 []) fns []) (s.groupsFit q.tag c c.groupUnits) 3 1 (AMap.get c.spilled part [])).map
      fun e => (some (Config.aggOpstate e.1 e.2.1), turn e.2.2)
  else
    match AMap.get c.finals part [] with
    | [] => if o.code = opAggScalar then
        [(none, [{ key := [], kvals := [], cells := fns.map fun f => AggCell.fresh f f.itype }])] else []
    | l => [(none, turn l)]

/-- The frames of groups: where a frame ends, OPSTATE is that of the next group's table. -/
def groupsOut (types : List (BitVec 8)) (seed : Nat) (states : List (Option (BitVec 32))) : Nat → List (List Vals) → List OutWord
  | _, [] => []
  | done, rows :: rest =>
    let n := done + rows.length
    frameOut 0 ((rowsFrame types rows 0).bytes seed) (some n) (states.getD n none) ++ groupsOut types seed states n rest

/-- PARTITION_EMIT (R290, R294, R297): after every partial flow has ended and the partition's records are merged, the last item
of its flow emits the groups; AGG_SCALAR emits one row always. -/
def execPartitionEmit (t : Tag) (op : BitVec 16) (part : BitVec 8) (s : State) : Host.Outcome State Fault Refusal :=
  match (s.query? t).bind fun q => (q.opOf op).map (q, ·) with
  | none => .next s
  | some (q, im, o) =>
    let s := s.aggSettle q o op
    match s.op? t op with
    | none => .next s
    | some c =>
      let flow := BitVec.ofNat 8 (o.pflows + part.toNat)
      let agg : Bool := o.code == opAggHash || o.code == opAggScalar || o.code == opSketch
      if !agg || (q.st ≠ .running && q.st ≠ .paused) || o.parts ≤ part.toNat || c.emitted.contains part ||
          !s.partialsEnded q o op || !(AMap.get c.records part []).isEmpty || !(s.flowItems t op flow).isEmpty ||
          !s.itemRoom then .next s
      else
        let fns := aggFns im q.params o
        let shapes := AMap.get c.shapes 0 []
        let tables := s.partTables q im o c part
        let gs := tables.flatMap fun e => e.2.map (e.1, ·)
        let results := gs.zipIdx.map fun x => (x.1.2.kvals, (fns.zip x.1.2.cells).zipIdx.map fun e =>
          AggCell.results im q.params o.code e.1.1 (if shapes.isEmpty then e.1.1.itype else fnType shapes e.1.1)
            ((s.free * 2 ^ 21 + x.2) * 16 + e.2) e.1.2)
        let rows := results.map fun r => r.1 ++ r.2.flatMap (·.1)
        let overflown := (results.map fun r => (r.2.filter (·.2)).length).sum
        let s := s.modQuery t fun q => { q with
          overflows := if overflown = 0 then q.overflows
            else AMap.insert q.overflows op (AMap.get q.overflows op 0 + BitVec.ofNat 32 overflown) }
        let types := aggTypes im q.params o c
        let s := s.setOp t op { c with emitted := part :: c.emitted }
        if rows.isEmpty then .next (s.tick.settleOps t)
        else
          let id := s.disp.nextItem
          let units := if AMap.has c.spilled part then (tables.map fun e => groupUnits e.2).foldl max 0 else 0
          .next (((s.newItem q o op flow 0 rows.length
            (groupsOut types s.free (gs.map (·.1)) 0 (cutRows types s.free rows.length rows))).modItem id fun i => { i with
              ls := units, opstate := (tables.head?.bind (·.1)).getD 0 }).tick)

end Sys2Proof.Machine
end

