-- ==== Sys2Proof/Machine/Operands.lean ====
section
/-! DEFINITION. The cores (13, 14): registers, vector elements, predicates and operand forms, what a mode reaches, control
and status registers, instruction words, and the trap as one operation. -/

namespace Sys2Proof

/-! ### Kinds of core (13 R395), precisions, operand forms, sources -/

def CoreId.isEc : CoreId → Bool
  | .ec _ _ => true
  | .mc _ => false

/-- VLENB (R400). -/
def CoreId.vlenb (k : CoreId) : Nat := if k.isEc then 256 else 16

/-- CORE_ID (R400). -/
def CoreId.number : CoreId → BitVec 64
  | .ec c n => BitVec.ofNat 64 (n.toNat + 8 * c.toNat)
  | .mc n => BitVec.ofNat 64 (n.toNat + 64)

/-- The two modes of a core; the higher is its trap mode (14 R422). -/
def CoreId.low (k : CoreId) : BitVec 2 := if k.isEc then 0 else 1
def CoreId.trapMode (k : CoreId) : BitVec 2 := if k.isEc then 1 else 2

/-- The runner that an EC is. -/
def CoreId.runner : CoreId → Option Runner
  | .ec c n => some ⟨.ec, BitVec.ofNat 6 (8 * c.toNat + n.toNat)⟩
  | .mc _ => none

def Prec.fmt : Prec → Machine.FFmt
  | .single => Machine.f32
  | .double => Machine.f64

def VSrc.isVv : VSrc → Bool
  | .vv _ => true
  | _ => false
def VSrc.isVx : VSrc → Bool
  | .vx _ => true
  | _ => false
def VSrc.isVi : VSrc → Bool
  | .vi _ => true
  | _ => false
def VSrc.isVf : VSrc → Bool
  | .vf _ => true
  | _ => false
def VSrc.form : VSrc → Nat
  | .vv _ => 0
  | .vx _ => 1
  | .vi _ => 2
  | .vf _ => 3
def VSrc.field : VSrc → BitVec 5
  | .vv r => r
  | .vx r => r
  | .vi r => r
  | .vf r => r

/-- The bit of a source (14 R424). -/
def AsyncSrc.bit : AsyncSrc → Nat
  | .preempt => 0
  | .stop => 1
  | .wdog => 2
  | .mcheck => 3
  | .event => 4
  | .ipi => 5
  | .maskto => 6

/-- Whether a core has a source (R440). -/
def AsyncSrc.on (a : AsyncSrc) (k : CoreId) : Bool :=
  match a with
  | .preempt | .stop => k.isEc
  | .wdog | .mcheck => true
  | .event | .ipi | .maskto => !k.isEc

end Sys2Proof

namespace Sys2Proof.Machine

/-- The core that a runner of kind EC is. -/
def ecOf (r : Runner) : CoreId := .ec (BitVec.ofNat 3 (r.num.toNat / 8)) (BitVec.ofNat 3 (r.num.toNat % 8))

/-- A core after its reset (13 R400, 14 R424). -/
def Core.reset (k : CoreId) : Core where
  x := []
  v := []
  p := []
  pc := 0
  vl := 0
  sew := 0
  vprog := 0
  fflags := 0
  lcount0 := 0
  lstart0 := 0
  lend0 := 0
  lcount1 := 0
  lstart1 := 0
  lend1 := 0
  cycle := 0
  instret := 0
  itemOrigin := 0
  itemCount := 0
  mode := k.trapMode
  gm := true
  cause := 0
  eval := 0
  kentryPc := Config.kentryBoot
  kentrySp := 0
  klinkPc := 0
  klinkStatus := 0
  klinkVprog := 0
  ssp := 0
  ssbase := 0
  sslimit := 0
  lssp := 0
  lssbase := 0
  lsslimit := 0
  inten := 0x7F
  ipend := 0
  ievals := []
  wdcnt := 0
  kbase := 0x80000
  kitem := 0
  maskCount := 0
  halted := false
  waiting := false
  scratch := []
  code := []
  scratchKib := 0
  item := none

def State.core (s : State) (k : CoreId) : Core := AMap.get s.cores.cores k (Core.reset k)
def State.setCore (s : State) (k : CoreId) (c : Core) : State :=
  { s with cores := { s.cores with cores := AMap.insert s.cores.cores k c } }

/-! ### Registers (13 R397, R398) -/

def Core.getX (c : Core) (r : BitVec 5) : BitVec 64 := if r = 0 then 0 else AMap.get c.x r 0
def Core.setX (c : Core) (r : BitVec 5) (w : BitVec 64) : Core := if r = 0 then c else { c with x := AMap.insert c.x r w }
def Core.getV (c : Core) (r : BitVec 5) : BitVec 2048 := AMap.get c.v r 0
def Core.setV (c : Core) (r : BitVec 5) (w : BitVec 2048) : Core := { c with v := AMap.insert c.v r w }
def Core.getP (c : Core) (k : CoreId) (r : BitVec 3) : BitVec 256 :=
  if r = 0 then BitVec.ofNat 256 (2 ^ k.vlenb - 1) else AMap.get c.p r 0
def Core.setP (c : Core) (r : BitVec 3) (w : BitVec 256) : Core := if r = 0 then c else { c with p := AMap.insert c.p r w }

/-- The bits of an f register at a precision (R398). -/
def Core.getF (c : Core) (d : Prec) (r : BitVec 5) : Nat :=
  (c.getV r).toNat % (match d with | .single => 2 ^ 32 | .double => 2 ^ 64)

/-- A scalar FP result: the low bits, the rest of the vector register 0 (R398). -/
def Core.setF (c : Core) (d : Prec) (r : BitVec 5) (n : Nat) : Core :=
  c.setV r (BitVec.ofNat 2048 (n % (match d with | .single => 2 ^ 32 | .double => 2 ^ 64)))

def Core.addFlags (c : Core) (f : BitVec 5) : Core := { c with fflags := c.fflags ||| f }

/-! ### Vector elements (13 R397, R401-R404) -/

/-- eb: the bytes of an element. -/
def Core.eb (c : Core) : Nat := 2 ^ c.sew.toNat
def vlMax (k : CoreId) (sew : BitVec 2) : Nat := k.vlenb / 2 ^ sew.toNat

/-- Element i at width eb. -/
def elem (v : BitVec 2048) (eb i : Nat) : Nat := (v >>> (8 * eb * i)).toNat % 2 ^ (8 * eb)
def setElem (v : BitVec 2048) (eb i n : Nat) : BitVec 2048 :=
  (v &&& ~~~(BitVec.ofNat 2048 (2 ^ (8 * eb) - 1) <<< (8 * eb * i))) |||
    (BitVec.ofNat 2048 (n % 2 ^ (8 * eb)) <<< (8 * eb * i))

/-- Whether element i is active under a predicate (R402). -/
def Core.active (c : Core) (k : CoreId) (pg : BitVec 3) (i : Nat) : Bool :=
  decide (i < c.vl.toNat) && (c.getP k pg).getLsbD (i * c.eb)

/-- The bits of element i of a predicate set to a result (R403). -/
def setPred (p : BitVec 256) (eb i : Nat) (b : Bool) : BitVec 256 :=
  let m := BitVec.ofNat 256 (2 ^ eb - 1) <<< (eb * i)
  if b then p ||| m else p &&& ~~~m

/-- A number of a width as a signed integer. -/
def signedAt (bits n : Nat) : Int := if n < 2 ^ (bits - 1) then (n : Int) else (n : Int) - 2 ^ bits
/-- An integer modulo a width. -/
def wrapAt (bits : Nat) (v : Int) : Nat := (v % 2 ^ bits).toNat

/-- The second source of a V-format instruction for element i: integer forms (R404); `shift` takes vi unsigned. -/
def Core.src2 (c : Core) (s2 : VSrc) (shift : Bool) (i : Nat) : Nat :=
  let w := 8 * c.eb
  match s2 with
  | .vv r => elem (c.getV r) c.eb i
  | .vx r => (c.getX r).toNat % 2 ^ w
  | .vi n => if shift then n.toNat else wrapAt w n.toInt
  | .vf r => (c.getV r).toNat % 2 ^ w

/-! ### Instruction words (13 R409), as EVAL of ILLEGAL gives them (14 R440) -/

def encOp (major fn : Nat) (rd rs1 rs2 : BitVec 5) : BitVec 32 :=
  BitVec.ofNat 32 (major + 2 ^ 7 * rd.toNat + 2 ^ 12 * rs1.toNat + 2 ^ 17 * rs2.toNat + 2 ^ 22 * fn)
def encImm (major fn : Nat) (rd rs1 : BitVec 5) (imm : BitVec 12) : BitVec 32 :=
  BitVec.ofNat 32 (major + 2 ^ 7 * rd.toNat + 2 ^ 12 * rs1.toNat + 2 ^ 17 * fn + 2 ^ 20 * imm.toNat)
/-- BR: RS1 in bits 11:7, RS2 in bits 16:12. -/
def encBr (fn : Nat) (rs1 rs2 : BitVec 5) (off : BitVec 12) : BitVec 32 := encImm 0x08 fn rs1 rs2 off
def encUp (major : Nat) (rd : BitVec 5) (imm : BitVec 20) : BitVec 32 :=
  BitVec.ofNat 32 (major + 2 ^ 7 * rd.toNat + 2 ^ 12 * imm.toNat)
def encLp (lvl : BitVec 1) (rs1 : BitVec 5) (off : BitVec 15) : BitVec 32 :=
  BitVec.ofNat 32 (0x0C + 2 ^ 7 * lvl.toNat + 2 ^ 12 * rs1.toNat + 2 ^ 17 * off.toNat)
def encV (major fn form : Nat) (z : Bool) (pg : BitVec 3) (vd vs1 s2 : BitVec 5) : BitVec 32 :=
  BitVec.ofNat 32 (major + 2 ^ 7 * vd.toNat + 2 ^ 12 * vs1.toNat + 2 ^ 17 * s2.toNat + 2 ^ 22 * pg.toNat +
    2 ^ 25 * Bool.asNat z + 2 ^ 26 * form + 2 ^ 28 * fn)
def encVm (fn : Nat) (z : Bool) (pg : BitVec 3) (vt rs1 : BitVec 5) : BitVec 32 :=
  BitVec.ofNat 32 (0x1D + 2 ^ 7 * vt.toNat + 2 ^ 12 * rs1.toNat + 2 ^ 17 * pg.toNat + 2 ^ 20 * Bool.asNat z + 2 ^ 21 * fn)
def encSt (fn : Nat) (port : BitVec 3) (vt rd : BitVec 5) : BitVec 32 :=
  BitVec.ofNat 32 (0x1E + 2 ^ 7 * vt.toNat + 2 ^ 12 * rd.toNat + 2 ^ 17 * port.toNat + 2 ^ 20 * fn)
def encSys (fn : Nat) (csr : BitVec 12) (rd rs1 : BitVec 5) : BitVec 32 := encImm 0x20 fn rd rs1 csr

/-- Whether a word is an instruction of the L profile (R409): a listed MAJOR, FN, FORM and combination of operands, with every reserved
field and every field that a table marks so 0. A field of a SYS instruction without operands is not marked so. -/
def isInstruction (word : BitVec 32) : Bool :=
  let w := word.toNat
  let f (hi lo : Nat) : Nat := bits w hi lo
  let rd := f 11 7
  let r1 := f 16 12
  let r2 := f 21 17
  let fn3 := f 19 17
  let imm := f 31 20
  let form := f 27 26
  let fnV := f 31 28
  let plain : Bool := f 25 22 == 0
  match f 6 0 with
  | 0x01 => decide (f 31 22 ≤ 0x1A) && (f 31 22 < 0x15 || 0x18 < f 31 22 || r2 == 0)
  | 0x02 => fn3 < 4 || fn3 == 7 || decide (imm < 64)
  | 0x03 => decide (fn3 ≤ 6)
  | 0x04 => decide (fn3 ≤ 3)
  | 0x05 => true
  | 0x06 => true
  | 0x08 => decide (fn3 ≤ 5)
  | 0x09 => rd == 0
  | 0x0A => true
  | 0x0B => (fn3 == 0 && rd == 0) || fn3 == 1 || (fn3 == 2 && rd == 0 && imm == 0)
  | 0x0C => f 11 8 == 0 && f 31 17 != 0
  | 0x10 => f 31 27 == 0 && (f 25 22 != 4 || r2 == 0)
  | 0x11 => fn3 == 2 || fn3 == 3
  | 0x12 => fn3 == 2 || fn3 == 3
  | 0x18 => (fn3 == 0 && decide (imm < 4)) || (fn3 == 1 && r1 == 0 && decide (imm < 4))
  | 0x19 => decide (form ≤ 2)
  | 0x1A => if fnV < 8 then form == 0 || form == 3 else decide (fnV ≤ 12) && form == 0 && r2 == 0
  | 0x1B =>
    decide (1 ≤ rd) && decide (rd ≤ 7) &&
    if fnV < 8 then decide (form ≤ 2)
    else if fnV < 11 then form == 0 || form == 3
    else decide (fnV ≤ 13) && form == 0 && plain && decide (r1 < 8) && decide (r2 < 8)
  | 0x1C =>
    match fnV with
    | 0 => form == 0 && r2 == 0 && rd != r1
    | 1 => (form == 1 || form == 2) && rd != r1
    | 2 => (form == 1 || form == 2) && rd != r1
    | 3 => r1 == 0
    | 4 => (form == 1 || form == 2) && plain
    | 5 => (form == 1 || form == 2) && plain
    | 6 => form == 0
    | 7 => form == 0
    | 8 => form == 0
    | 9 => form == 0
    | 10 => form == 0 && decide (r1 < 8)
    | 11 => form == 0 && decide (r1 < 8)
    | 12 => form == 0 && rd != r1 && rd != r2
    | _ => false
  | 0x1D => f 31 23 == 0
  | 0x1E => f 31 23 == 0 && (f 22 20 == 0 || (f 22 20 == 1 && r1 == 0) || (f 22 20 == 2 && r1 == 0 && rd == 0) || (f 22 20 == 3 && rd == 0))
  | 0x1F => f 31 22 == 0
  | 0x20 => (fn3 != 0 || r1 == 0) && (fn3 != 1 || rd == 0)
  | _ => false

/-! ### What a mode reaches (14 R423, 13 R406) -/

inductive Region where
  | scratch | code | ls | runtime | pool | device | none
deriving DecidableEq, Repr

/-- The region an address lies in; the code is that of the running item (R423). -/
def Core.region (c : Core) (k : CoreId) (a : Nat) : Region :=
  if a < (if k.isEc then 0x40000 else 0x100000) then .scratch
  else if k.isEc && c.item.isSome && decide (0x100000000 ≤ a) && decide (a < 0x100000000 + c.code.length) then .code
  else if decide (0x200000000 ≤ a) && decide (a ≤ 0x20BFFFFFF) then .ls
  else if k.isEc && decide (0x300000000 ≤ a) && decide (a ≤ 0x30007FFFF) then .runtime
  else if decide (0x100000000000 ≤ a) && decide (a ≤ 0x15FFFFFFFFFF) then .pool
  else if decide (0x20000000000 ≤ a) && decide (a ≤ 0x20000FFFFFF) then .device
  else .none

/-- Whether the current mode may read (or write) a byte as data. -/
def Core.mayData (c : Core) (k : CoreId) (write : Bool) (a : Nat) : Bool :=
  match c.region k a with
  | .scratch =>
    if k.isEc then c.mode != 0 || decide (a < 1024 * c.scratchKib)
    else c.mode == 2 || decide (c.kbase.toNat ≤ a)
  | .code | .runtime => c.mode != 0 && !write
  | .ls => c.mode != 0
  | .pool | .device => c.mode == 2
  | .none => false

/-- Whether the current mode may fetch at an address. -/
def Core.mayFetch (c : Core) (k : CoreId) (a : Nat) : Bool :=
  match c.region k a with
  | .scratch => !k.isEc && (c.mode == 2 || decide (c.kbase.toNat ≤ a))
  | .code => c.mode == 0
  | .runtime => c.mode == 1
  | _ => false

/-- A word at PC that is no instruction, where the core runs a kernel's code (R409). -/
def Core.strayWord (c : Core) (k : CoreId) : Option (BitVec 32) :=
  if c.region k c.pc.toNat = .code then
    let w := BitVec.ofNat 32 (fld c.code (c.pc.toNat - 0x100000000) 4)
    if isInstruction w then none else some w
  else none

/-- The addresses of an access; addresses wrap at 2^64. -/
def span (a : BitVec 64) (n : Nat) : List Nat := (List.range n).map fun k => (a.toNat + k) % 2 ^ 64

/-- A byte as data. -/
def State.byteIn (s : State) (k : CoreId) (c : Core) (a : Nat) : Byte :=
  match c.region k a with
  | .scratch => c.scratch.read a
  | .code => byteAt c.code (a - 0x100000000)
  | .ls => s.cores.ls.read (a - 0x200000000)
  | .runtime => s.cores.runtime.read (a - 0x300000000)
  | .pool => s.cores.pool.read (a - 0x100000000000)
  | .device | .none => 0

/-- A byte written as data. -/
def State.byteOut (s : State) (k : CoreId) (c : Core) (a : Nat) (b : Byte) : State × Core :=
  match c.region k a with
  | .scratch => (s, { c with scratch := c.scratch.write a b })
  | .ls => ({ s with cores := { s.cores with ls := s.cores.ls.write (a - 0x200000000) b } }, c)
  | .pool => ({ s with cores := { s.cores with pool := s.cores.pool.write (a - 0x100000000000) b } }, c)
  | _ => (s, c)

/-- What a data access comes to. -/
inductive Access where
  | ok | denied | dataErr | device
deriving DecidableEq, Repr

/-- The checks of an access of n bytes: reach, the device window, an uncorrectable byte that it reads. -/
def Core.access (c : Core) (k : CoreId) (ue : Option (BitVec 64)) (write : Bool) (a : BitVec 64) (n : Nat) : Access :=
  let l := span a n
  if !(l.all (c.mayData k write)) then .denied
  else if l.any fun x => c.region k x == .device then .device
  else if !write && (ue.any fun u => l.contains u.toNat) then .dataErr
  else .ok

def State.bytesIn (s : State) (k : CoreId) (c : Core) (a : BitVec 64) (n : Nat) : Nat :=
  leNat ((span a n).map (s.byteIn k c))

/-- Bytes written from an address up. -/
def State.bytesOut (s : State) (k : CoreId) (c : Core) : BitVec 64 → Bytes → State × Core
  | _, [] => (s, c)
  | a, b :: bs =>
    let r := s.byteOut k c a.toNat b
    State.bytesOut r.1 k r.2 (a + 1) bs

/-! ### Status and the trap (14 R422, R424-R426) -/

/-- STATUS. -/
def Core.status (c : Core) : BitVec 64 := BitVec.ofNat 64 (c.mode.toNat + 4 * Bool.asNat c.gm)

/-- The mode changes: the shadow stack registers of the current and of the other mode trade places (R424, R428). -/
def Core.setMode (c : Core) (m : BitVec 2) : Core :=
  if m = c.mode then c
  else { c with
    mode := m
    ssp := c.lssp, ssbase := c.lssbase, sslimit := c.lsslimit
    lssp := c.ssp, lssbase := c.ssbase, lsslimit := c.sslimit }

/-- x30 and KENTRY_SP exchange values. -/
def Core.swapSp (c : Core) : Core := { (c.setX 30 c.kentrySp) with kentrySp := c.getX 30 }

/-- An address as the PC takes it: a multiple of 4 (13 R397). -/
def pcOf (a : BitVec 64) : BitVec 64 := a &&& ~~~3

/-- A trap into the trap mode (R425). -/
def Core.trap (c : Core) (k : CoreId) (code : BitVec 8) (intr : Bool) (eval epc : BitVec 64) : Core :=
  let c1 : Core := { c with
    klinkPc := epc, klinkStatus := c.status, klinkVprog := c.vprog, vprog := 0
    cause := BitVec.ofNat 64 (code.toNat + 256 * Bool.asNat c.gm + 2 ^ 63 * Bool.asNat intr), eval := eval }
  let c2 := if c1.mode = k.trapMode then c1 else c1.swapSp.setMode k.trapMode
  { c2 with gm := true, pc := pcOf c2.kentryPc }

/-- Cause codes (R440). -/
def cIllegal : BitVec 8 := 0x01
def cAccess : BitVec 8 := 0x02
def cMisalign : BitVec 8 := 0x03
def cCfi : BitVec 8 := 0x04
def cSsovf : BitVec 8 := 0x05
def cStreamPort : BitVec 8 := 0x06
def cStreamAlign : BitVec 8 := 0x07
def cBreak : BitVec 8 := 0x08
def cKcall : BitVec 8 := 0x09
def cKret : BitVec 8 := 0x0A
def cDataErr : BitVec 8 := 0x0B

/-- The address at which a kernel item ends (R431). -/
def kretAddr : BitVec 64 := 0xFFFFFFFFFFFFFFF0

/-! ### Asynchronous sources (14 R424, R435-R440) -/

/-- The order in which takeable sources win (R438). -/
def asyncOrder : List AsyncSrc := [.maskto, .mcheck, .wdog, .stop, .ipi, .preempt, .event]

/-- A source becomes pending with its EVAL; a core that waits for an event goes on once an enabled source is pending. -/
def Core.pend (c : Core) (a : AsyncSrc) (eval : BitVec 64) : Core :=
  { c with
    ipend := c.ipend ||| (1#7 <<< a.bit), ievals := AMap.insert c.ievals a eval
    waiting := c.waiting && !(c.inten.getLsbD a.bit) }

/-- Whether some enabled source is pending. -/
def Core.pendingEnabled (c : Core) : Bool := c.ipend &&& c.inten != 0

/-- The source that is taken now, if any (R435, R436, R438). -/
def Core.takeable (c : Core) (k : CoreId) : Option AsyncSrc :=
  asyncOrder.find? fun a => a.on k && c.ipend.getLsbD a.bit && c.inten.getLsbD a.bit && (!c.gm || a == .maskto)

/-- A source is taken: it is pending no more, and the core traps (R425, R438). -/
def Core.take (c : Core) (k : CoreId) (a : AsyncSrc) (epc : BitVec 64) : Core :=
  Core.trap { c with ipend := c.ipend &&& ~~~(1#7 <<< a.bit), ievals := AMap.erase c.ievals a } k
    (BitVec.ofNat 8 (0x20 + a.bit)) true (AMap.get c.ievals a 0) epc

/-- Core cycles pass (R400 CYCLE, R436, R439): the watchdog counts down, and the masked count counts. -/
def Core.spend (c : Core) (n : BitVec 64) : Core :=
  let c1 := { c with cycle := c.cycle + n }
  let c2 := if c1.wdcnt = 0 then c1 else if c1.wdcnt ≤ n then Core.pend { c1 with wdcnt := 0 } .wdog 0
    else { c1 with wdcnt := c1.wdcnt - n }
  { c2 with maskCount := if c2.gm && c2.pendingEnabled then c2.maskCount + n.toNat else 0 }

/-! ### Control and status registers (13 R400, R410; 14 R424) -/

/-- How the current mode may access a CSR: not at all, reading only, or both. -/
inductive CsrAccess where
  | none | ro | rw
deriving DecidableEq, Repr

def Core.csrAccess (c : Core) (k : CoreId) (a : Nat) : CsrAccess :=
  let u := c.mode == 0
  let top := c.mode == k.trapMode
  if a = 0x800 || a = 0x801 then if u then .ro else .rw
  else if a = 0x804 || (0x810 ≤ a && a ≤ 0x815) then .rw
  else if [0x802, 0x820, 0x821, 0x830, 0x831, 0x832, 0x840, 0x841].contains a then .ro
  else if [0xC00, 0xC10, 0xC11, 0xC12].contains a then if u then .none else .rw
  else if [0xC01, 0xC02, 0xC04, 0xC05, 0xC06, 0xC07, 0xC08, 0xC14, 0xC15, 0xC16, 0xC20, 0xC23].contains a then
    if top then .rw else .none
  else if a = 0xC21 then if u then .none else .ro
  else if a = 0xC22 then if u then .none else if c.mode = 2 then .rw else .ro
  else if a = 0xC30 then if c.mode = 2 then .rw else .none
  else if 0xC40 ≤ a && a ≤ 0xC43 then if k.isEc && c.mode == 1 then .ro else .none
  else .none

def State.csrRead (s : State) (k : CoreId) (c : Core) (a : Nat) : BitVec 64 :=
  match a with
  | 0x800 => c.vl
  | 0x801 => c.sew.setWidth 64
  | 0x802 => BitVec.ofNat 64 k.vlenb
  | 0x804 => c.fflags.setWidth 64
  | 0x810 => c.lcount0
  | 0x811 => c.lstart0
  | 0x812 => c.lend0
  | 0x813 => c.lcount1
  | 0x814 => c.lstart1
  | 0x815 => c.lend1
  | 0x820 => if k.isEc then 0x0101 else 0x0102
  | 0x821 => k.number
  | 0x830 => c.cycle
  | 0x831 => s.time
  | 0x832 => c.instret
  | 0x840 => c.itemOrigin
  | 0x841 => c.itemCount
  | 0xC00 => c.status
  | 0xC01 => c.cause
  | 0xC02 => c.eval
  | 0xC04 => c.kentryPc
  | 0xC05 => c.kentrySp
  | 0xC06 => c.klinkPc
  | 0xC07 => c.klinkStatus
  | 0xC08 => c.klinkVprog
  | 0xC10 => c.ssp
  | 0xC11 => c.ssbase
  | 0xC12 => c.sslimit
  | 0xC14 => c.lssp
  | 0xC15 => c.lssbase
  | 0xC16 => c.lsslimit
  | 0xC20 => c.inten.setWidth 64
  | 0xC21 => c.ipend.setWidth 64
  | 0xC22 => s.cores.masklimit
  | 0xC23 => c.wdcnt
  | 0xC30 => c.kbase
  | 0xC40 => c.kitem.setWidth 64
  | 0xC41 => (c.kitem >>> 64).setWidth 64
  | 0xC42 => (c.kitem >>> 128).setWidth 64
  | 0xC43 => (c.kitem >>> 192).setWidth 64
  | _ => 0

/-- A shadow stack's registers keep R428: multiples of 8, in order, the region in EC scratch or MC SRAM. -/
def ssOk (k : CoreId) (ssp base limit : BitVec 64) : Bool :=
  ssp.toNat % 8 == 0 && base.toNat % 8 == 0 && limit.toNat % 8 == 0 && base.ule ssp && ssp.ule limit &&
    decide (limit.toNat ≤ if k.isEc then 0x40000 else 0x100000)

/-- A write of STATUS keeps R424 and R432. -/
def Core.statusOk (c : Core) (k : CoreId) (w : BitVec 64) : Bool :=
  let m := w.setWidth 2
  w.ult 8 && (m == k.low || m == k.trapMode) && m.ule c.mode && !(m == 0 && w.getLsbD 2)

/-- `csr_write` of R410: none where the value breaks a rule of the CSR. -/
def State.csrWrite (s : State) (k : CoreId) (c : Core) (a : Nat) (w : BitVec 64) : Option (State × Core) :=
  match a with
  | 0x800 => if w.toNat ≤ vlMax k c.sew then some (s, { c with vl := w }) else none
  | 0x801 => if w.ult 4 then some (s, { c with sew := w.setWidth 2 }) else none
  | 0x804 => some (s, { c with fflags := w.setWidth 5 })
  | 0x810 => some (s, { c with lcount0 := w })
  | 0x811 => some (s, { c with lstart0 := w })
  | 0x812 => some (s, { c with lend0 := w })
  | 0x813 => some (s, { c with lcount1 := w })
  | 0x814 => some (s, { c with lstart1 := w })
  | 0x815 => some (s, { c with lend1 := w })
  | 0xC00 => if c.statusOk k w then some (s, { c.setMode (w.setWidth 2) with gm := w.getLsbD 2 }) else none
  | 0xC01 => some (s, { c with cause := w &&& 0x80000000000001FF })
  | 0xC02 => some (s, { c with eval := w })
  | 0xC04 => some (s, { c with kentryPc := w })
  | 0xC05 => some (s, { c with kentrySp := w })
  | 0xC06 => some (s, { c with klinkPc := w })
  | 0xC07 => some (s, { c with klinkStatus := w })
  | 0xC08 => some (s, { c with klinkVprog := w })
  | 0xC10 => if ssOk k w c.ssbase c.sslimit then some (s, { c with ssp := w }) else none
  | 0xC11 => if ssOk k c.ssp w c.sslimit then some (s, { c with ssbase := w }) else none
  | 0xC12 => if ssOk k c.ssp c.ssbase w then some (s, { c with sslimit := w }) else none
  | 0xC14 => if ssOk k w c.lssbase c.lsslimit then some (s, { c with lssp := w }) else none
  | 0xC15 => if ssOk k c.lssp w c.lsslimit then some (s, { c with lssbase := w }) else none
  | 0xC16 => if ssOk k c.lssp c.lssbase w then some (s, { c with lsslimit := w }) else none
  | 0xC20 => some (s, { c with inten := w.setWidth 7 })
  | 0xC22 => if 256 ≤ w.toNat ∧ w.toNat ≤ 1048576 then some ({ s with cores := { s.cores with masklimit := w } }, c) else none
  | 0xC23 => some (s, { c with wdcnt := w })
  | 0xC30 => some (s, { c with kbase := w })
  | _ => none

/-! ### The frame of an instruction -/

/-- What the body of an instruction comes to: it completes (`done` goes on at PC + 4 and takes the loop-end step, `jump` has
set the PC), raises a cause, waits where it stands, is stopped at an element-group boundary by an interrupt, or acts on the
device window, whose layout from F the spec does not give. -/
inductive CoreEnd where
  | done (s : State) (c : Core)
  | jump (s : State) (c : Core)
  | fault (s : State) (c : Core) (code : BitVec 8) (eval : BitVec 64)
  | stay (s : State) (c : Core)
  | stop (s : State) (c : Core)
  | device

/-- The loop-end step after the instruction at `a` has completed (13, Pseudocode). -/
def Core.loopEnd (c : Core) (a : BitVec 64) : Core :=
  let on1 : Bool := c.lcount1 != 0 && a == c.lend1
  let c1 := if on1 then { c with lcount1 := c.lcount1 - 1 } else c
  if on1 && c1.lcount1 != 0 then { c1 with pc := pcOf c1.lstart1 }
  else
    let on0 : Bool := c1.lcount0 != 0 && a == c1.lend0
    let c2 := if on0 then { c1 with lcount0 := c1.lcount0 - 1 } else c1
    if on0 && c2.lcount0 != 0 then { c2 with pc := pcOf c2.lstart0 } else c2

/-- Whether an address is the LEND of an active level (R411). -/
def Core.atLend (c : Core) (a : BitVec 64) : Bool :=
  (c.lcount0 != 0 && a == c.lend0) || (c.lcount1 != 0 && a == c.lend1)

/-- The instruction at `a` has completed: VPROG is clear, INSTRET counts it, and the loop-end step is taken past it (R400). -/
def Core.complete (d : Core) (a : BitVec 64) : Core :=
  Core.loopEnd { d with pc := a + 4, vprog := 0, instret := d.instret + 1 } a

/-- A control instruction has completed. -/
def Core.counted (d : Core) : Core := { d with instret := d.instret + 1 }

/-- A synchronous exception of the instruction at the PC. -/
def Core.raise (c : Core) (k : CoreId) (code : BitVec 8) (eval : BitVec 64) : Core := c.trap k code false eval c.pc

/-- A source is taken at an address: the core goes on in the handler after `n` cycles; MCHECK is the event CORE_UE (20 R584). -/
def State.takeAt (s : State) (k : CoreId) (c : Core) (a : AsyncSrc) (epc n : BitVec 64) : State :=
  let s := s.setCore k ((c.take k a epc).spend n)
  if a = .mcheck then s.raiseDevice 4 0xFF k.number 0 else s

/-- The state that the body of the instruction at `pc` leaves after `n` cycles: at the next instruction, in the handler, or at the
same instruction. -/
def CoreEnd.leave (e : CoreEnd) (k : CoreId) (pc n : BitVec 64) : Host.Outcome State Fault Refusal :=
  match e with
  | .done s d => .next (s.setCore k ((d.complete pc).spend n))
  | .jump s d => .next (s.setCore k (d.counted.spend n))
  | .fault s d code eval => .next (s.setCore k ((d.raise k code eval).spend n))
  | .stay s d => .next (s.setCore k (d.spend n))
  | .stop s d =>
    match d.takeable k with
    | some a => .next (s.takeAt k d a d.pc n)
    | none => .next (s.setCore k (d.spend n))
  | .device => .refused .deviceWindow

/-- One instruction on a core: a halted or waiting core does nothing; the fetch is checked (14 R423, R431), then that kernel code holds an
instruction at PC (13 R409), then the instruction's own legality, then its body runs. -/
def State.instr (s : State) (k : CoreId) (w : BitVec 32) (resumable control : Bool) (legal : Core → Bool)
    (body : State → Core → CoreEnd) : Host.Outcome State Fault Refusal :=
  let c := s.core k
  let n := Config.cycles s.free
  let s := s.tick
  if c.halted || c.waiting then .next s
  else if c.mode = 0 && c.pc = kretAddr then .next (s.setCore k ((c.raise k cKret 0).spend n))
  else if !c.mayFetch k c.pc.toNat then .next (s.setCore k ((c.raise k cAccess c.pc).spend n))
  else
    match c.strayWord k with
    | some x => .next (s.setCore k ((c.raise k cIllegal (x.setWidth 64)).spend n))
    | none =>
    if (!resumable && c.vprog != 0) || (control && c.atLend c.pc) || !legal c then
      .next (s.setCore k ((c.raise k cIllegal (w.setWidth 64)).spend n))
    else
    (body s c).leave k c.pc n

/-- An instruction that is legal wherever it stands. -/
def anywhere (_ : Core) : Bool := true

end Sys2Proof.Machine
end

