-- ==== Sys2Proof/Machine/Firmware.lean ====
section
/-! DEFINITION. The firmware slots, downloads and activations (20 R601-R610) and the management port (20 R611-R614). -/

namespace Sys2Proof.Machine

/-! ### Slots and images -/

/-- The slot of a name: true for B. -/
def Fw.slot (f : Fw) (b : Bool) : FlashSlot := if b then f.slotB else f.slotA
def Fw.setSlot (f : Fw) (b : Bool) (m : FlashSlot) : Fw := if b then { f with slotB := m } else { f with slotA := m }
/-- The first bytes of a slot. -/
def FlashSlot.bytes (m : FlashSlot) (len : Nat) : Bytes :=
  ((List.range (ceilDiv len 4096)).flatMap m.unit).take len
/-- LENGTH of the image's body (R603). -/
def FlashSlot.bodyLen (m : FlashSlot) : Nat := fld (m.unit 0) 12 4

/-- The digest that the signature of a slot's image is over (R603). -/
def FlashSlot.digest (m : FlashSlot) : BitVec 384 :=
  let b := m.bytes (256 + m.bodyLen)
  Config.sha384 (b.take 160 ++ b.drop 256)

/-- An image that R604 calls valid. -/
def Fw.imageValid (f : Fw) (b : Bool) : Bool :=
  let m := f.slot b
  decide (256 + m.bodyLen ≤ 32 * 2 ^ 20) && Config.sha384 (slice (m.unit 0) 64 96) == Config.fusedKey &&
  Config.ecdsaVerify (slice (m.unit 0) 64 96) m.digest (slice (m.unit 0) 160 96) && decide (f.fuseSvn.toNat ≤ m.svn)

/-- A downloaded image is complete (R608). -/
def Fw.complete (f : Fw) (b : Bool) : Bool :=
  let n := 256 + (f.slot b).bodyLen
  match AMap.find? f.units b with
  | none => false
  | some u => decide (n ≤ 32 * 2 ^ 20) && (List.range (ceilDiv n 4096)).all u.contains

/-- The directory names a slot active from the next boot: the copy that does not govern is written (R602). -/
def Fw.commitDir (f : Fw) (b : Bool) : Fw :=
  match f.governing with
  | some (d, copy1) =>
    let n : FlashDir := { slotB := b, dseq := d.dseq + 1 }
    if copy1 then { f with dir0 := some n } else { f with dir1 := some n }
  | none =>
    let n : FlashDir := { slotB := b, dseq := Config.firstDseq }
    if Config.dirTie then { f with dir1 := some n } else { f with dir0 := some n }

/-- A commit of a slot's image, raising the fused SVN where it exceeds it (R604, R608). -/
def Fw.commit (f : Fw) (b : Bool) : Fw :=
  let svn := (f.slot b).svn
  { f.commitDir b with fuseSvn := if f.fuseSvn.toNat < svn then BitVec.ofNat 16 svn else f.fuseSvn }

/-- The image of a slot runs. -/
def Fw.run (f : Fw) (b : Bool) : Fw :=
  { f with running := BitVec.ofNat 32 (f.slot b).version, runSvn := BitVec.ofNat 16 (f.slot b).svn
           runDigest := (f.slot b).digest }

/-- A piece may be written: R607's third case. -/
def Fw.mayWrite (f : Fw) (b : Bool) (off len : Nat) : Bool :=
  off == 0 || match AMap.find? f.units b with
    | none => false
    | some u => (List.range (len / 4096)).all fun k => !u.contains (off / 4096 + k)

/-- A piece written into a slot; at OFFSET 0 the whole slot is erased first (R607). -/
def Fw.writePiece (f : Fw) (b : Bool) (off : Nat) (bs : Bytes) : Fw :=
  let n := bs.length / 4096
  let (m, u) : FlashSlot × List Nat :=
    if off = 0 then ([], []) else (f.slot b, (AMap.find? f.units b).getD [])
  let m := (List.range n).foldl (fun (m : FlashSlot) k => AMap.insert m (off / 4096 + k) (slice bs (4096 * k) 4096)) m
  let f := f.setSlot b m
  { f with units := AMap.insert f.units b (u ++ (List.range n).map (off / 4096 + ·)) }

/-! ### FW_DOWNLOAD and FW_ACTIVATE -/

/-- FW_DOWNLOAD (R607); it waits while an activation is in progress, once begun, so that other commands go on. -/
def execFwDownload (t : Tag) (src : HostRead) (s : State) : Host.Outcome State Fault Refusal :=
  s.opcode t 0x10 fun c s =>
    let len := c.f 16 4
    let off := c.f 20 4
    let b := !s.fw.activeB
    if s.fw.act.isSome then s
    else if !c.clean [(8, 16)] || len % 4096 ≠ 0 || len < 4096 || len > 1048576 || off % 4096 ≠ 0 ||
        off + len > 32 * 2 ^ 20 || !s.fw.mayWrite b off len then s.finish t stFieldInvalid 0
    else s.withRead t none (BitVec.ofNat 64 (c.f 8 8)) len src fun bs s =>
      State.finish { s with fw := s.fw.writePiece b off bs } t stOk 0

/-- What an ACTION of FW_ACTIVATE meets (R608): a status that refuses it, or the state after it. LIVE begins: the image
is checked and loaded into the standby banks (R609 step 1). -/
def State.activate (s : State) (action : Nat) (tag : Option Tag) : Except (BitVec 15) State :=
  let b := !s.fw.activeB
  if s.fw.act.isSome || action > 2 then .error stFieldInvalid
  else if action = 2 then
    if s.fw.imageValid b then .ok { s with fw := s.fw.commitDir b } else .error stIntegrity
  else if !s.fw.complete b then .error stFieldInvalid
  else if !s.fw.imageValid b then .error stIntegrity
  else if action = 0 then .ok { s with fw := s.fw.commit b }
  else .ok { s with fw := { s.fw with act := some { tag := tag, step := .loaded, mgmt := tag.isNone } } }

/-- FW_ACTIVATE (R608, R609). -/
def execFwActivate (t : Tag) (s : State) : Host.Outcome State Fault Refusal :=
  if (match s.fw.act with
      | some a => a.tag == some t
      | none => false) then .next s
  else s.opcode t 0x11 fun c s =>
    if !c.clean [(16, 1)] || s.fw.late.contains t then s.finish t stFieldInvalid 0
    else match s.activate (c.f 16 1) (some t) with
      | .error st => s.finish t st 0
      | .ok s' => if c.f 16 1 = 1 then s' else s'.finish t stOk (s'.fw.running.setWidth 64)

/-- FW_LIVE_PAUSE (R609 steps 2 and 3): once no activation pause of the partner is reported, fetching pauses. -/
def execFwLivePause (s : State) : Host.Outcome State Fault Refusal :=
  match s.fw.act with
  | some a =>
    if a.step = .loaded && s.ready && !(s.pair.role == .paired && s.pair.partnerPause) then
      .next { s with
        fw := { s.fw with act := some { a with step := .paused } }
        glb := { s.glb with fetchPaused := true } }
    else .next s
  | none => .next s

/-- The end of a live activation for whoever asked for it. -/
def State.endActivation (s : State) (a : Activation) (st : BitVec 15) (result : BitVec 64) : State :=
  if a.mgmt then s.emit (if st = stOk then .mgmt (leBytes 4 result.toNat) else .mgmtError)
  else match a.tag with
    | some t => s.finish t st result
    | none => s

/-- FW_LIVE_HANDOVER (R609 steps 4 and 5, R610): the new firmware checks the handover state; it commits and fetching
resumes, or the banks are swapped back. The FLRs that waited are served then. -/
def execFwLiveHandover (ok : Bool) (s : State) : Host.Outcome State Fault Refusal :=
  match s.fw.act with
  | some a =>
    if a.step = .paused && s.ready then
      let s := { s with glb := { s.glb with fetchPaused := false }, fw := { s.fw with act := none } }
      if ok then
        let b := !s.fw.activeB
        let s := { s with fw := (s.fw.commit b).run b }
        let v := s.fw.running.setWidth 64
        .next (State.serveFlrs (((s.raiseDevice 5 0xFF v 0).raiseAll 522 v).endActivation a stOk v))
      else .next (State.serveFlrs ((s.raiseDevice 6 0xFF 4 0).endActivation a stInternal 0))
    else .next s
  | none => .next s

/-! ### The management port -/

/-- Device state as R612 codes it; before READY and after a save no code is given. -/
def State.deviceState (s : State) : BitVec 8 :=
  match s.glb.phase with
  | .ready => 0
  | .recovery => 1
  | .fatal => 2
  | .starting | .saved => (Config.freeWord s.free).setWidth 8

/-- PEER_STS.ROLE (18 R559). -/
def Role.code : Role → Nat
  | .single => 0
  | .joining => 1
  | .syncing => 2
  | .paired => 3
  | .solo => 4
  | .fenced => 5

/-- Tokens held (19 R568). -/
def Power.heldTokens (p : Power) : Nat := (p.held.map (·.tokens)).sum

/-- Temperatures are signed bytes (19 R580). -/
def tjmax (temps : List (BitVec 8)) : Int := (temps.map BitVec.toInt).foldl max (-128)

/-- SET_MANAGER (R614, 17 R504): the role moves when MANAGER_TRANSFER can take effect; a port with no link answers
with an error. -/
def execSetManager (port : BitVec 2) (s : State) : Host.Outcome State Fault Refusal :=
  if s.portUp port then .next { s with glb := { s.glb with nextManager := some (pfOf port) } }
  else .next (s.emit .mgmtError)

/-- GET_STATE (R614). -/
def execGetState (s : State) : Host.Outcome State Fault Refusal :=
  .next (s.tick.emit (.mgmt [s.glb.manager.getD 0xFF, s.deviceState]))

/-- PLDM_SENSOR_READ (R612): a numeric or state sensor; DIMM temperatures and package power are measurements. -/
def execPldmSensorRead (sensor : BitVec 8) (s : State) : Host.Outcome State Fault Refusal :=
  let n := sensor.toNat
  let answer : Option Bytes :=
    if n = 1 then some (leBytes 4 (BitVec.ofInt 32 (tjmax s.power.temps)).toNat)
    else if n = 2 || (4 ≤ n && n ≤ 15) then some (leBytes 4 (Config.sensorValue sensor s.free).toNat)
    else if n = 3 then some (leBytes 4 s.power.heldTokens)
    else if n = 16 then some (leBytes 4 s.power.watts.toNat)
    else if n = 17 then some [BitVec.ofNat 8 s.pair.role.code]
    else if n = 18 then some [s.deviceState]
    else none
  .next (s.tick.emit (match answer with
    | some b => .mgmt b
    | none => .mgmtError))

/-- PLDM_FIRMWARE_UPDATE (R612): a piece of the one component is written into the slot that is not active, by the
record of R607. -/
def execPldmFirmwareUpdate (offset : BitVec 32) (bs : Bytes) (s : State) : Host.Outcome State Fault Refusal :=
  let off := offset.toNat
  let b := !s.fw.activeB
  if s.fw.act.isSome || bs.isEmpty || bs.length % 4096 ≠ 0 || off % 4096 ≠ 0 || off + bs.length > 32 * 2 ^ 20 ||
      !s.fw.mayWrite b off bs.length then .next (s.emit .mgmtError)
  else .next ({ s with fw := s.fw.writePiece b off bs }.emit (.mgmt []))

/-- ACTIVATE_FIRMWARE (R612): self-contained activation performs LIVE, any other COMMIT. -/
def execActivateFirmware (selfContained : Bool) (s : State) : Host.Outcome State Fault Refusal :=
  if selfContained && !s.ready then .next (s.emit .mgmtError)
  else match s.activate (if selfContained then 1 else 0) none with
    | .error _ => .next (s.emit .mgmtError)
    | .ok s' => .next (if selfContained then s' else s'.emit (.mgmt (leBytes 4 s'.fw.running.toNat)))

/-- GET_DIGESTS (R613): the digest of the chain of slot 0. -/
def execGetDigests (s : State) : Host.Outcome State Fault Refusal :=
  .next (s.emit (.mgmt (leBytes 48 (Config.sha384 Config.certificateChain).toNat)))

/-- GET_CERTIFICATE (R613): part of the device chain of slot 0. -/
def execGetCertificate (slot : BitVec 8) (offset len : BitVec 16) (s : State) : Host.Outcome State Fault Refusal :=
  if slot = 0 then .next (s.emit (.mgmt (slice Config.certificateChain offset.toNat len.toNat)))
  else .next (s.emit .mgmtError)

/-- CHALLENGE (R613): signed with ECDSA P-384. -/
def execChallenge (nonce : Bytes) (s : State) : Host.Outcome State Fault Refusal :=
  .next (s.emit (.mgmt (Config.spdmSign nonce)))

/-- A measurement of R613. -/
def State.measurement (s : State) (n : Nat) : Option Bytes :=
  match n with
  | 1 => some (leBytes 48 Config.bootRomDigest.toNat)
  | 2 => some (leBytes 48 s.fw.runDigest.toNat)
  | 3 => some (leBytes 2 s.fw.runSvn.toNat ++ leBytes 2 s.fw.fuseSvn.toNat)
  | 4 => some [BitVec.ofNat 8 (s.glb.straps.bootSel.toNat + 4 * Bool.asNat s.glb.straps.pairEn +
      8 * Bool.asNat s.glb.straps.rootN)]
  | _ => none

/-- GET_MEASUREMENTS (R613): one measurement, or all of them for index 0xFF. -/
def execGetMeasurements (index : BitVec 8) (s : State) : Host.Outcome State Fault Refusal :=
  if index = 0xFF then .next (s.emit (.mgmt ([1, 2, 3, 4].flatMap fun n => (s.measurement n).getD [])))
  else match s.measurement index.toNat with
    | some b => .next (s.emit (.mgmt b))
    | none => .next (s.emit .mgmtError)

end Sys2Proof.Machine
end

