-- ==== Sys2Proof/Machine/Dram.lean ====
section
/-! DEFINITION. The DRAM subsystem (16): the pool's address map, corrected and uncorrectable lines, refresh, drift,
retraining, rank sparing and the retirement of channels. -/

namespace Sys2Proof.Machine

/-! ### Channels, ranks and capacity -/

/-- Capacity of one rank in GiB. -/
def Chan.rankGib (c : Chan) : Nat := c.capGib / max 1 c.ranks.length

/-- Capacity less the spare rank (16 R476). -/
def Chan.lessSpare (c : Chan) : Nat := c.capGib - (if c.spareEn then c.rankGib else 0)

/-- Usable capacity U in GiB (16 R476). -/
def Chan.uGib (c : Chan) : Nat := c.lessSpare - c.hrGib

def Chan.modRank (c : Chan) (r : Nat) (f : Rank → Rank) : Chan := { c with ranks := c.ranks.modify r f }

def State.modChan (s : State) (n : BitVec 4) (f : Chan → Chan) : State := s.setChan n (f (s.chan n))

/-! ### Pool addresses of channel addresses (16 R478, R493) -/

/-- The pool address that a channel address of a member of a region has, before any retirement. -/
def unmap (w : BitVec 64) (ch : BitVec 4) (ca : Nat) : Option Nat :=
  let set := chset w
  let n := max 1 set.length
  let g := mapGrainBytes w
  let base := mapChbase w * 2 ^ 30
  match set.findIdx? (· == ch) with
  | none => none
  | some k =>
    if mapValid w && decide (base ≤ ca) && decide (ca < base + mapSize w / n * 2 ^ 30) then
      let o := ca - base
      some (mapBase w * 2 ^ 30 + (o / g * n + k) * g + o % g)
    else none

/-- The pool address that lies physically at a channel address, if any: through the map, or through the relocation of
a retired channel (R478, R493). -/
def State.poolOf (s : State) (ch : BitVec 4) (ca : Nat) : Option Nat :=
  let direct := s.dram.map.findSome? fun e => unmap e.2 ch ca
  match direct with
  | some pa => some pa
  | none => allChans.findSome? fun r =>
      let c := s.chan r
      if c.st ≠ .retired then none
      else match c.others.findIdx? (· == ch) with
        | none => none
        | some k =>
          let base := c.bases.get ch 0 * 2 ^ 30
          if ca < base then none
          else
            let u := (ca - base) / 256 * max 1 c.others.length + k
            let a := u * 256 + ca % 256
            if a < c.uGib * 2 ^ 30 then s.dram.map.findSome? fun e => unmap e.2 r a else none

/-! ### Segments and their lines -/

/-- Lines of a segment. -/
def Segment.lines (g : Segment) : List Nat := List.range (ceilDiv g.bytes.length 64)

/-- The segment and its line that the engine has placed at a pool line. -/
def State.segAt (s : State) (pa : Nat) : Option (Nat × Nat) :=
  s.store.segs.findSome? fun e => (e.2.lines.find? fun l => Config.lineAt e.1 l == pa).map fun l => (e.1, l)

def State.modSeg (s : State) (n : Nat) (f : Segment → Segment) : State :=
  { s with store := { s.store with segs := AMap.update s.store.segs n f } }

/-- The name of a segment: its table, column and slot, in the current map or, for a retained one, in a snapshot; true
for a current one. -/
def State.segName? (s : State) (n : Nat) : Option (BitVec 16 × BitVec 12 × BitVec 20 × Bool) :=
  let inTable (tid : BitVec 16) (t : Table) (cur : Bool) : Option (BitVec 16 × BitVec 12 × BitVec 20 × Bool) :=
    (List.find? (fun (c : (BitVec 12 × BitVec 20) × Nat) => c.2 == n) t.cells).map fun c => (tid, c.1.1, c.1.2, cur)
  match s.store.tables.findSome? fun e => inTable e.1.2 e.2 true with
  | some x => some x
  | none => s.queries.findSome? fun q => q.snap.findSome? fun e => inTable e.1 e.2 false

/-- Whether a partner is in service (18 R544, R545). -/
def State.partnerInService (s : State) : Bool := s.pair.role == .paired && s.linkUp 0

/-- A FETCH_REQ is sent to the partner (18 R539, R545). -/
def State.fetchReq (s : State) (use : FetchUse) (i : BitVec 8) (tid : BitVec 16) (col : BitVec 12) (slot : BitVec 20)
    (off len : Nat) (epoch : BitVec 32) (cseq : BitVec 64) : State :=
  let id := s.pair.reqId
  let s := { s with pair := { s.pair with reqId := id + 1, fetches := AMap.insert s.pair.fetches id use } }
  s.sendLink 0 0x30 id ([i, 0] ++ leBytes 2 tid.toNat ++ leBytes 2 col.toNat ++ zeros 2 ++ leBytes 4 slot.toNat ++
    leBytes 4 off ++ leBytes 4 len ++ leBytes 4 epoch.toNat ++ leBytes 8 cseq.toNat ++ zeros 16)

/-! ### Events of the subsystem (20 R584, 16 R663) -/

def dramD0 (ch : BitVec 4) (rank : BitVec 8) : BitVec 64 := ch.setWidth 64 ||| (rank.setWidth 64 <<< 8)

def State.dramEvent (s : State) (id : Nat) (ch : BitVec 4) (rank : BitVec 8) (d1 : BitVec 64) : State :=
  s.raiseDevice id 0xFF (dramD0 ch rank) d1

/-- D1 of a line's event: its pool address, or its channel address marked as outside the pool (R663). -/
def lineD1 (pa : Option Nat) (ca : Nat) : BitVec 64 :=
  match pa with
  | some a => BitVec.ofNat 64 (a / 64 * 64)
  | none => 0x8000000000000000 + BitVec.ofNat 64 (ca / 64 * 64)

/-! ### Full retraining (16 R486, R487, R492) -/

/-- A full retraining is scheduled: the channel at the head of the schedule is HELD. -/
def State.scheduleRetrain (s : State) (ch : BitVec 4) : State :=
  if (s.chan ch).st ≠ .active || s.dram.schedule.contains ch then s
  else
    let first := s.dram.schedule.isEmpty
    let s := { s with dram := { s.dram with schedule := s.dram.schedule ++ [ch] } }
    s.modChan ch fun c => { c with retrain := true, st := if first then .held else c.st }

/-- The next scheduled channel is HELD. -/
def State.nextRetrain (s : State) : State :=
  match s.dram.schedule with
  | [] => s
  | c :: _ => s.modChan c fun x => { x with st := if x.st == .active then .held else x.st }

/-! ### Rank sparing (16 R489, R490) -/

/-- The rank of a channel in a state. -/
def Chan.rankIn (c : Chan) (st : RankState) : Option Nat := c.ranks.findIdx? (·.st == st)

/-- A rank meets a trigger of R489: it migrates to a spare, or DRAM_NO_SPARE is raised. -/
def State.triggerMigration (s : State) (ch : BitVec 4) (rank : Nat) : State :=
  let c := s.chan ch
  match c.ranks[rank]? with
  | none => s
  | some r =>
    if r.st ≠ .active then s
    else match c.rankIn .spare with
      | some sp =>
        let c := ((c.modRank rank fun r => { r with st := .migrating }).modRank sp fun r => { r with st := .filling })
        (s.setChan ch { c with cursor := 0 }).dramEvent 68 ch (BitVec.ofNat 8 rank) (BitVec.ofNat 64 sp)
      | none => s.dramEvent 71 ch (BitVec.ofNat 8 rank) 0

/-- An uncorrectable error in the spare (R490). -/
def State.spareFails (s : State) (ch : BitVec 4) (sp : Nat) : State :=
  let s := s.modChan ch fun c =>
    { c with ranks := c.ranks.zipIdx.map fun e =>
        if e.2 = sp then { e.1 with st := .retired }
        else if e.1.st = .migrating then { e.1 with st := .active } else e.1 }
  s.dramEvent 70 ch (BitVec.ofNat 8 sp) 0

/-! ### Corrected and uncorrectable lines (16 R473, R474) -/

/-- Corrections counted: the rank's counter, the hourly threshold (20 R593), the storm of R489 and the lane's 64 a
second (R486). -/
def State.corrected (s : State) (ch : BitVec 4) (rank : BitVec 2) (lane : Option (BitVec 7)) : State :=
  let s := s.count (ctrDramCe ch rank)
  let within (counts : Nat) (t : BitVec 64) : Bool := decide ((s.time - t).toNat < counts)
  match (s.chan ch).ranks[rank.toNat]? with
  | none => s
  | some r =>
    let ces := (s.time, lane) :: r.ces.filter fun e => within (3600 * 25000000) e.1
    let s := s.modChan ch fun c => c.modRank rank.toNat fun r => { r with ces := ces }
    let s := if s.ras.ceThresh != 0 && ces.length == s.ras.ceThresh.toNat then
        s.dramEvent 76 ch (rank.setWidth 8) (BitVec.ofNat 64 ces.length) else s
    let storm := (ces.filter fun e => within (s.dram.windowMs.toNat * 25000) e.1).length
    let s := if decide (s.dram.thresh.toNat < storm) then s.triggerMigration ch rank.toNat else s
    let perLane := (ces.filter fun e => lane.isSome && e.2 == lane && within 25000000 e.1).length
    if 64 < perLane then s.scheduleRetrain ch else s

/-- A line is poisoned (R474 step 2). -/
def State.poisonLine (s : State) (pa : Option Nat) : State :=
  match pa with
  | none => s
  | some a =>
    match s.segAt (a / 64 * 64) with
    | some (n, l) => s.modSeg n fun g => { g with poison := if g.poison.contains l then g.poison else l :: g.poison }
    | none =>
      if s.dram.poison.contains (a / 64 * 64) then s
      else { s with dram := { s.dram with poison := a / 64 * 64 :: s.dram.poison } }

/-- A line is found uncorrectable (R474): repaired from the partner where it belongs to a segment and a partner is in
service, else poisoned and reported. -/
def State.uncorrectable (s : State) (ch : BitVec 4) (rank : BitVec 2) (ca : Nat) (inPool : Bool) : State :=
  let pa := if inPool then s.poolOf ch (ca / 64 * 64) else none
  let d1 := lineD1 pa ca
  let named := (pa.bind s.segAt).bind fun e =>
    match AMap.find? s.store.segs e.1, s.segName? e.1 with
    | some g, some m => if s.partnerInService then some (e, g, m) else none
    | _, _ => none
  match named with
  | some ((n, l), g, (tid, col, slot, _)) =>
    (s.modSeg n fun g => { g with repair := l :: g.repair }).fetchReq (.repair n l ch rank d1) g.inst tid col slot (64 * l) 64
      g.epoch g.cseq
  | none => ((s.poisonLine pa).count (ctrDramUe ch rank)).dramEvent 67 ch (rank.setWidth 8) d1

/-- One line has been read from a rank (R472-R474, R489, R490, R486). -/
def State.lineRead (s : State) (ch : BitVec 4) (rank : BitVec 2) (ca : Nat) (f : LineFinding) : State :=
  let st := (((s.chan ch).ranks[rank.toNat]?).map (·.st)).getD .absent
  match f with
  | .clean => s
  | .corrected lane => s.corrected ch rank lane
  | .uncorrectable lane =>
    let spare : Bool := st == .spare || st == .filling
    let s := s.uncorrectable ch rank ca (!spare)
    let s := if spare then s.spareFails ch rank.toNat else s.triggerMigration ch rank.toNat
    if lane.isSome then s.scheduleRetrain ch else s

/-- PATROL_SCRUB (R488): one line of an ACTIVE rank, of a spare or of headroom is read; a line found uncorrectable
before is not found again until it is written. -/
def execPatrolScrub (ch : BitVec 4) (rank : BitVec 2) (line : BitVec 64) (finding : LineFinding) (s : State) :
    Host.Outcome State Fault Refusal :=
  let c := s.chan ch
  let st := ((c.ranks[rank.toNat]?).map (·.st)).getD .absent
  if c.st = .active && st != .retired && st != .absent && s.ready then .next (s.lineRead ch rank line.toNat finding)
  else .next s

/-- Whether the Dispatcher marks an item's DRAM requests as real-time class: a SCAN item of a deadline-class query (05 R179, 07 R239). -/
def State.realTime (s : State) (i : Item) : Bool :=
  match s.query? i.query with
  | none => false
  | some q => q.deadline != 0 && (q.image.bind fun im => im.op? i.op.toNat).any fun o => o.code == opScan

/-- Whether a client that is said to have a request queued is one that issues requests of the real-time class now (R482). -/
def State.isRealTime (s : State) : RtClient → Bool
  | .mirror => s.pair.role == .paired || s.pair.role == .syncing
  | .exchange _ => !s.pair.xchs.isEmpty
  | .scan n => (s.item? n).any fun i => i.st == .running && s.realTime i

/-- tRFC of the installed devices in ns (R483). -/
def Chan.tRfc (c : Chan) : Nat :=
  let t := if c.gb = 16 then 295 else 410
  if c.high = 4 then 2 * t else if c.high = 2 then t * 145 / 100 else t

/-- A forced refresh stalls a request of a running item, for tRFC at most: its query's REFRESH total (R483, 07 R238). -/
def State.refreshStall (s : State) (n ns : Nat) : State :=
  match s.item? n with
  | none => s
  | some i => if i.st == .running then s.addTotalNs i.query 1 (BitVec.ofNat 64 ns) else s

/-- A refresh is issued: the correction of the rank's drift rides on it (R486). -/
def Rank.refreshed (r : Rank) : Rank := { r with drift := 0, delay := r.delay + r.drift.signExtend 16 }

/-- REFRESH_DUE (R481-R483): a refresh of a rank falls due: issued with all it owes, or postponed while a real-time
request is queued. A rank that owes 4 is refreshed whatever is queued, and the requests it stalls wait for it. -/
def execRefreshDue (ch : BitVec 4) (rank : BitVec 2) (queue : RankQueue) (s : State) :
    Host.Outcome State Fault Refusal :=
  let c := s.chan ch
  match c.ranks[rank.toNat]? with
  | none => .next s
  | some r =>
    if c.st ≠ .active then .next s
    else
      let put (r' : Rank) : State := s.modChan ch fun c => c.modRank rank.toNat fun _ => r'
      if !(queue.queued.any s.isRealTime) then .next (put { r.refreshed with owed := 0 })
      else if r.owed < 4 then .next (put { r with owed := r.owed + 1 })
      else .next (forEach queue.stalled (put r.refreshed) fun s e => s.refreshStall e.1 (min e.2.toNat c.tRfc))

/-- DRIFT_CHECK (R486): the oscillator of a rank shows a drift in delay steps: corrected with the next refresh, or past
16 steps a full retraining is scheduled. -/
def execDriftCheck (ch : BitVec 4) (rank : BitVec 2) (steps : BitVec 8) (s : State) :
    Host.Outcome State Fault Refusal :=
  let c := s.chan ch
  match c.ranks[rank.toNat]? with
  | none => .next s
  | some _ =>
    if c.st ≠ .active then .next s
    else if steps.toInt < -16 || 16 < steps.toInt then .next (s.scheduleRetrain ch)
    else .next (s.modChan ch fun c => c.modRank rank.toNat fun r => { r with drift := steps })

/-! ### Sparing copy (16 R491) -/

/-- Lines of one rank. -/
def Chan.rankLines (c : Chan) : Nat := c.rankGib * 2 ^ 24

/-- The channel address of a line of a rank: ranks fill channel addresses in order, the spare excluded (R476). -/
def Chan.rankBase (c : Chan) (r : Nat) : Nat := r * c.rankGib * 2 ^ 30

/-- MIGRATION_LINE_COPY (R490, R491): the line at the cursor is read from the source and written to the spare. -/
def execMigrationLineCopy (ch : BitVec 4) (source spare : LineFinding) (s : State) :
    Host.Outcome State Fault Refusal :=
  let c := s.chan ch
  match c.rankIn .migrating, c.rankIn .filling with
  | some src, some sp =>
    if c.st ≠ .active then .next s
    else
      let ca := c.rankBase src + 64 * c.cursor
      let s := match source with
        | .clean => s
        | .corrected lane => s.corrected ch (BitVec.ofNat 2 src) lane
        | .uncorrectable _ => s.uncorrectable ch (BitVec.ofNat 2 src) ca true
      match spare with
      | .uncorrectable _ =>
        .next ((s.uncorrectable ch (BitVec.ofNat 2 sp) ca false).spareFails ch sp)
      | f =>
        let s := match f with
          | .corrected lane => s.corrected ch (BitVec.ofNat 2 sp) lane
          | _ => s
        if c.cursor + 1 < c.rankLines then .next (s.modChan ch fun c => { c with cursor := c.cursor + 1 })
        else
          let s := s.modChan ch fun c =>
            ((c.modRank src fun r => { r with st := .retired }).modRank sp fun r => { r with st := .active })
          .next (s.dramEvent 69 ch (BitVec.ofNat 8 src) (BitVec.ofNat 64 sp))
  | _, _ => .next s

/-! ### Retirement (16 R492-R495) -/

/-- Whether a segment has a line that a test of pool lines finds. -/
def segTouches (f : Nat → Bool) (n : Nat) (g : Segment) : Bool := g.lines.any fun l => f (Config.lineAt n l)

/-- Loaded images' lines that a test finds are poisoned (R494). -/
def State.poisonImages (s : State) (f : Nat → Bool) : State :=
  let lines := s.insts.flatMap fun e => e.2.images.flatMap fun im => (imageLines e.1 im.1 im.2).filter f
  { s with dram := { s.dram with poison := s.dram.poison ++ lines.filter fun a => !s.dram.poison.contains a } }

/-- Queries whose spill pages or stream middles lie on a channel, or whose loaded image is lost, stop with DATA_LOST (R494). -/
def State.stopHolders (s : State) (ch : BitVec 4) : State :=
  let holds (q : Query) : Bool := (s.cmd? q.tag).any s.namesLost || Config.holdsOn q.no ch.toNat &&
    (s.ops.any (fun e => e.1.1 == q.tag && e.2.spill != 0) || s.disp.items.any (fun i => i.query == q.tag && i.spill != 0) ||
     s.streams.any fun e => e.1.query == q.tag && e.2.pages != 0)
  forEach ((s.queries.filter holds).map (·.tag)) s fun s t => s.stopQuery t stDataLost

/-- The rebuild has no segment left: DRAM_REBUILD_DONE (R494). -/
def State.rebuildCheck (s : State) : State :=
  match s.dram.rebuilding with
  | none => s
  | some ch =>
    if s.store.segs.any (·.2.rebuild) then s
    else
      let n := s.dram.rebuilt
      State.dramEvent { s with dram := { s.dram with rebuilding := none, rebuilt := 0 } } 74 ch 0xFF
        (BitVec.ofNat 64 n)

/-- The segments that wait for a rebuild are marked lost: no partner, or the partner is lost (R494). -/
def State.rebuildLost (s : State) (ch : BitVec 4) : State :=
  let n := (s.store.segs.filter (·.2.rebuild)).length
  let s := { s with
    store := { s.store with segs := s.store.segs.map fun e =>
        if e.2.rebuild then (e.1, { e.2 with rebuild := false, lost := true }) else e }
    dram := { s.dram with rebuilding := none, rebuilt := 0 } }
  if n = 0 then s else s.dramEvent 75 ch 0xFF (BitVec.ofNat 64 n)

/-- Segments in table, column and slot order (R494). -/
def State.rebuildOrder (s : State) (l : List (Nat × Segment)) : List (Nat × Segment) :=
  let key (n : Nat) : Nat := (s.segName? n).elim 0 fun e => (e.1.toNat * 4096 + e.2.1.toNat) * 2 ^ 20 + e.2.2.1.toNat
  sortBy (fun a b => decide (key a.1 < key b.1)) l

/-- The contents of a retired channel (R494): segments are fetched from the partner or marked lost, other pool data is
poisoned. -/
def State.retireContents (s : State) (ch : BitVec 4) (onCh : Nat → Bool) : State :=
  let mark (n : Nat) (g : Segment) : Segment :=
    if segTouches onCh n g && !g.lost then { g with rebuild := true, poison := [], repair := [] } else g
  let s := { s with store := { s.store with segs := s.store.segs.mapVals mark } }
  let s := (s.poisonImages onCh).stopHolders ch
  if !(s.store.segs.any (·.2.rebuild)) then s
  else if s.partnerInService then
    let s := { s with dram := { s.dram with rebuilding := some ch, rebuilt := 0 } }
    forEach (s.rebuildOrder (s.store.segs.filter (·.2.rebuild))) s fun s e =>
      match s.segName? e.1 with
      | some (tid, col, slot, _) =>
        s.fetchReq (.rebuild e.1) e.2.inst tid col slot 0 e.2.bytes.length e.2.epoch e.2.cseq
      | none => s.modSeg e.1 fun g => { g with rebuild := false, poison := g.lines }
  else s.rebuildLost ch

/-- A channel has no working setting (R492, R493, R485): it retires into the headroom of the others, or its regions
leave the pool and it is DISABLED. -/
def State.channelFails (s : State) (ch : BitVec 4) : State :=
  let c := s.chan ch
  let others := allChans.filter fun t => t != ch && (s.chan t).st == .active
  let m := others.length
  let u := c.uGib * 2 ^ 30
  let share := ceilDiv u (max 1 m)
  let named : List (BitVec 4) := (s.dram.map.filter fun e => mapValid e.2 && (chset e.2).contains ch).map (·.1)
  let fits (t : BitVec 4) : Bool := decide (share ≤ ((s.chan t).hrGib - (s.chan t).hrUsed) * 2 ^ 30)
  if decide (0 < m) && others.all fits then
    let onCh (pa : Nat) : Bool := (s.poolMap pa).any fun e => e.1 == ch
    let bases := others.map fun t => (t, (s.chan t).uGib + (s.chan t).hrUsed)
    let g := ceilDiv share (2 ^ 30)
    let s' : State := forEach others s fun s t => s.modChan t fun c => { c with hrUsed := c.hrUsed + g }
    let s' := s'.modChan ch fun c => { c with st := .retired, others := others, bases := bases, retrain := false }
    (s'.retireContents ch onCh).dramEvent 72 ch 0xFF 0
  else
    let out (pa : Nat) : Bool := (s.regionOf pa).any fun w => (chset w).contains ch
    let mask : Nat := (named.map fun n => 2 ^ n.toNat).sum
    let hit (n : Nat) (g : Segment) : Segment :=
      { g with poison := dedup (g.poison ++ g.lines.filter fun l => out (Config.lineAt n l)) }
    let s' := { s with
      store := { s.store with segs := s.store.segs.mapVals hit }
      dram := { s.dram with map := s.dram.map.mapVals fun k w => if named.contains k then w &&& ~~~0x8000#64 else w } }
    let s' := (s'.poisonImages out).stopHolders ch
    (s'.modChan ch fun c => { c with st := .disabled, retrain := false }).dramEvent 73 ch 0xFF (BitVec.ofNat 64 mask)

/-- CHANNEL_RETRAINING (R487, R492): the full retraining of the channel that is HELD ends. -/
def execChannelRetraining (ch : BitVec 4) (works : Bool) (s : State) : Host.Outcome State Fault Refusal :=
  let c := s.chan ch
  if c.st ≠ .held || !s.ready then .next s
  else
    let s := { s with dram := { s.dram with schedule := s.dram.schedule.filter (· ≠ ch) } }
    let trained (r : Rank) (k : Nat) : Rank := if works then { r with delay := Config.trainedDelay k s.free } else r
    let s := State.tick <| s.setChan ch { c with
      st := .active, retrain := false, rate := if c.rateFit.ult c.rateMax then c.rateMax else c.rateFit
      ranks := c.ranks.mapIdx fun k (r : Rank) => trained { r with owed := 0, drift := 0 } (4 * ch.toNat + k) }
    .next (if works then s.nextRetrain else (s.channelFails ch).nextRetrain)

/-! ### DRAM_CTRL and DRAM_CHCTL (16 R477, 21 R629, R630) -/

/-- Whether a PF's access to the manager's blocks counts now (21 R620, R621). -/
def State.managerAccess (s : State) (i : BitVec 8) : Bool :=
  s.ready && (s.fn i).present && s.isManager i

/-- Ranges [base, base + size) of which two overlap. -/
def overlaps : List (Nat × Nat) → Bool
  | [] => false
  | (b, n) :: r => r.any (fun e => decide (b < e.1 + e.2) && decide (e.1 < b + n)) || overlaps r

/-- The checks of a write of POOL_EN = 1 (R477), with the fields in their ranges (R475). -/
def State.mapChecks (s : State) : Bool :=
  let rs : List (BitVec 64) := (s.dram.map.filter fun e => mapValid e.2).map (·.2)
  rs.all (fun w =>
    let n := (chset w).length
    decide (1 ≤ n) && mapChset w == (chset w).foldl (fun a c => a + 2 ^ c.toNat) 0 && mapGrain w != 3 &&
      mapSize w != 0 && mapSize w % max 1 n == 0 && (chset w).all fun c => (s.chan c).st == .active) &&
  !(overlaps (rs.map fun (w : BitVec 64) => (mapBase w, mapSize w))) &&
  allChans.all fun c =>
    let mine : List (Nat × Nat) := (rs.filter fun w => (chset w).contains c).map fun w =>
      (mapChbase w, mapSize w / max 1 (chset w).length)
    !(overlaps mine) && mine.all fun (e : Nat × Nat) => decide (e.1 + e.2 ≤ (s.chan c).uGib)

/-- POOL_ENABLE (R477): a manager's write of POOL_EN = 1; the value's other bits are reserved. -/
def State.poolOn (s : State) (inst : BitVec 8) (value : BitVec 32) : State :=
  if !s.managerAccess inst || !value.getLsbD 0 || s.dram.poolEn then s
  else if s.mapChecks then { s with dram := { s.dram with poolEn := true, mapErr := false } }
  else { s with dram := { s.dram with mapErr := true } }

/-- POOL_ENABLE. -/
def execPoolEnable (inst : BitVec 8) (value : BitVec 32) (s : State) : Host.Outcome State Fault Refusal :=
  .next (s.poolOn inst value)

/-- POOL_DISABLE (R477): a manager's write of POOL_EN = 0, taken only while no pool page can be held. -/
def State.poolOff (s : State) (inst : BitVec 8) (value : BitVec 32) : State :=
  if !s.managerAccess inst || value.getLsbD 0 then s
  else
    let others := s.insts.any fun e => e.2.st != .absent && e.1 != inst
    let v := s.inst inst
    if others || v.pages ≠ 0 || s.tableUse inst ≠ 0 || s.spillUse inst ≠ 0 || s.sspillUse inst ≠ 0 then s
    else { s with dram := { s.dram with poolEn := false } }

/-- POOL_DISABLE. -/
def execPoolDisable (inst : BitVec 8) (value : BitVec 32) (s : State) : Host.Outcome State Fault Refusal :=
  .next (s.poolOff inst value)

/-- RETRAIN (R486, R487, R630): a manager's write of DRAM_CHCTLn.RETRAIN = 1. -/
def execRetrain (inst : BitVec 8) (ch : BitVec 4) (value : BitVec 32) (s : State) :
    Host.Outcome State Fault Refusal :=
  if s.managerAccess inst && value.getLsbD 0 then .next (s.scheduleRetrain ch) else .next s

end Sys2Proof.Machine
end

