-- ==== Sys2Proof/Machine/Power.lean ====
section
/-! DEFINITION. The save sequence and its commit cut (04 R131-R134), power states, the Pacer and thermal control
(19). -/

namespace Sys2Proof.Machine

/-! ### The save sequence (04 R133, R134) -/

/-- A commit is finished at the cut: it and every earlier commit to its table are in DRAM (R134). `drained` names the
commits whose drain ended in time. -/
def State.finished (s : State) (drained : List Nat) (w : Write) : Bool :=
  s.store.writes.all fun x =>
    !(x.phase == .committed && x.inst == w.inst && x.tid == w.tid && decide (x.no ≤ w.no)) || x.localDurable ||
      drained.contains x.no

/-- One commit is rolled back: the map entry keeps its previous segment (R134). -/
def State.rollBack (s : State) (w : Write) : State :=
  let put (t : AMap (BitVec 8 × BitVec 16) Table) : State := { s with store := { s.store with tables := t } }
  let ts := s.store.tables
  let k := (w.inst, w.tid)
  match w.kind with
  | .create => put (ts.erase k)
  | .drop =>
    match w.undoTable with
    | some t => put (ts.insert k t)
    | none => s
  | .install | .empty =>
    put (ts.update k fun t => { t with
      cseq := t.cseq - 1
      cells := match w.undoCell with
        | some n => AMap.insert t.cells (w.col, w.slot) n
        | none => AMap.erase t.cells (w.col, w.slot) })

/-- Commits rolled back, the latest first, out of the journal too. -/
def State.rollBackAll (s : State) (ws : List Write) : State :=
  let s := forEach (sortBy (fun a b => decide (b.no < a.no)) ws) s State.rollBack
  { s with store := { s.store with
    jpos := s.store.jpos - BitVec.ofNat 64 ws.length
    journal := s.store.journal.filter fun e => !(ws.any fun w => w.jpos == e.1) } }

/-- The commit cut (R134): unfinished commits are rolled back, the latest first. -/
def State.commitCut (s : State) (drained : List Nat) : State :=
  let gone := s.store.writes.filter fun w => w.phase == .committed && !s.finished drained w
  let s := s.rollBackAll gone
  State.gcSegs { s with store := { s.store with writes := [], flushes := [], reads := [] } }

/-- Everything that a restart does not restore leaves the engine: queues, commands, queries, items, streams, waits. -/
def State.dropWork (s : State) : State :=
  State.gcSegs { s with
    rings := { s.rings with sqs := [], cqs := [], cmds := [], batches := [] }
    store := { s.store with writes := [], flushes := [], reads := [] }
    xlat := State.reset.xlat
    queries := []
    disp := { State.reset.disp with gap := s.disp.gap }
    streams := []
    ops := []
    jobs := []
    cores := State.reset.cores
    asa := { s.asa with pods := [], ctags := [], members := [], slots := [], known := [] }
    power := { s.power with queue := [], held := [], waking := [] }
    pair := { s.pair with fetches := [], xchs := [], early := [] } }

/-- The trained delay values of every channel (R133). -/
def Dram.delays (d : Dram) : AMap (BitVec 4) (List (BitVec 16)) := d.chans.map fun e => (e.1, e.2.ranks.map (·.delay))

/-- The CRC-32C of a save record: over its delay values and its journal position (R133; the layout is the engine's own, log 272). -/
def recordCrc (delays : AMap (BitVec 4) (List (BitVec 16))) (jpos : BitVec 64) : BitVec 32 :=
  crc32c ((delays.flatMap fun e => e.2.flatMap fun d => leBytes 2 d.toNat) ++ leBytes 8 jpos.toNat)

/-- Whether a save record is valid (R135, R136). -/
def SaveRec.valid (r : SaveRec) : Bool := r.crc == recordCrc r.delays r.jpos

/-- The save record (R133 step 5): what the retained DRAM and the record restore. -/
def State.saveRecord (s : State) : SaveRec where
  delays := s.dram.delays
  crc := recordCrc s.dram.delays s.store.jpos
  insts := s.insts.filter fun e => e.2.st != .absent
  tables := s.store.tables
  segs := s.store.segs
  journal := s.store.journal
  jpos := s.store.jpos
  dram := s.dram
  epoch := s.pair.epoch

/-- Steps 1 to 5 of the save sequence, then SAVE_DONE high (R133); the engine stops serving (18 R548). -/
def State.saveSequence (s : State) (drained : List Nat) : State :=
  let s := (s.commitCut drained).dropWork
  { s with
    glb := { s.glb with save := some s.saveRecord, saveDone := true, phase := .saved, fetchPaused := false, flrDue := [] }
    fw := { s.fw with act := none, late := [] }
    pair := { s.pair with aliveRun := false } }

/-- POWER_FAILURE (R132, R133): recognised while the engine serves; one save serves a second failure too. -/
def execPowerFailure (drained : List Nat) (s : State) : Host.Outcome State Fault Refusal :=
  if s.ready then .next (s.saveSequence drained) else .next s

/-- RESET_N_FALL (22 R642): at READY a power failure, then reset; otherwise reset at once, an earlier save record
kept. -/
def execResetNFall (drained : List Nat) (s : State) : Host.Outcome State Fault Refusal :=
  let s := if s.ready then s.saveSequence drained else s
  .next { s with
    glb := { s.glb with phase := .starting, thermtrip := false, alert := false }
    pair := { s.pair with aliveRun := false, fenceDriven := false } }

/-- A device fatal error (20 R600): the engine stops serving, reports the error on every port with a link, drives ALERT_N
low, and saves where the always-on sequencer is intact. -/
def State.declareFatal (s : State) (cause : BitVec 64) (aoIntact : Bool) (drained : List Nat) : State :=
  if !s.ready then s
  else
    let s := { s with pair := { s.pair with aliveRun := false } }
    let s := forEach [0, 1, 2, 3] s fun s (p : BitVec 2) => if s.portUp p then s.emit (.internalError p) else s
    let s := (s.raiseDevice 0 0xFF cause 0).alertLow
    let s := if aoIntact then s.saveSequence drained else s
    { s with glb := { s.glb with phase := .fatal, fatalCause := cause } }

/-- DEVICE_FATAL (20 R600). -/
def execDeviceFatal (cause : BitVec 64) (aoIntact : Bool) (drained : List Nat) (s : State) :
    Host.Outcome State Fault Refusal := .next (s.declareFatal cause aoIntact drained)

/-! ### Clusters and clocks -/

def State.cluster (s : State) (c : BitVec 3) : ClusterState := s.power.clusters.get c .rest

/-- The engine's clocks (R563). -/
inductive Clock where
  | ec (c : BitVec 3)
  | unit (c : BitVec 3)
  | central
  | ao
  | hostPhy (port : BitVec 2)
  | peerPhy (port : BitVec 2)
deriving DecidableEq, Repr

/-- A clock's frequency in kHz (R563). -/
def Clock.kHz : Clock → Nat
  | .ec _ => 2000000
  | .unit _ | .central => 1600000
  | .ao => 25000
  | .hostPhy _ | .peerPhy _ => 100000

/-- Whether a clock runs (R562, R563, R565): a cluster's only in SPRINT, the central one until THERMTRIP, the always-on one in every
cluster state and through firmware activation (VDD_AO is not removed), a port's PHY while it is not held in reset or DISABLED. -/
def State.clockRuns (s : State) : Clock → Bool
  | .ec c | .unit c => s.cluster c == .sprint
  | .central => !s.glb.thermtrip
  | .ao => true
  | .hostPhy p => !s.glb.perst.getLsbD p.toNat
  | .peerPhy p => (s.pair.links.get p Link.down).st != .disabled

def State.setCluster (s : State) (c : BitVec 3) (v : ClusterState) : State :=
  { s with power := { s.power with clusters := s.power.clusters.insert c v } }

/-- The cluster of a runner (00 scope: eight ECs, two scan units, one join, aggregate, gather unit and compression
engine each); central runners have none. -/
def clusterOf (r : Runner) : Option (BitVec 3) :=
  match r.kind with
  | .ec => some (BitVec.ofNat 3 (r.num.toNat / 8))
  | .scan => some (BitVec.ofNat 3 (r.num.toNat / 2))
  | .join | .agg | .gather | .comp => some (BitVec.ofNat 3 r.num.toNat)
  | .sort | .pod | .peer => none

/-- Whether a runner of a cluster holds an item. -/
def State.clusterBusy (s : State) (c : BitVec 3) : Bool :=
  s.disp.runners.any fun e => clusterOf e.1 == some c && (e.2.running.isSome || e.2.slot.isSome)

def sprintOf (c : BitVec 3) (l : Leave) : Bool :=
  match l.op with
  | .sprint d => d == c
  | _ => false

/-! ### Leave (19 R568-R572) -/

/-- Tokens an operation asks for (R568). -/
def leaveTokens : LeaveOp → Nat
  | .sprint _ => 160
  | .sortUnit _ _ => 24
  | .spread _ _ => 20
  | .encode _ _ => 4
  | .exchange _ _ => 12

/-- What a leave is held by: a cluster, a unit, an operator or an engine, whichever query asked. -/
def sameHolder : LeaveOp → LeaveOp → Bool
  | .sprint a, .sprint b => a == b
  | .sortUnit a _, .sortUnit b _ => a == b
  | .spread t o, .spread u p => t == u && o == p
  | .encode a _, .encode b _ => a == b
  | .exchange t o, .exchange u p => t == u && o == p
  | _, _ => false

def State.leaveHeld (s : State) (op : LeaveOp) : Bool := s.power.held.any fun l => sameHolder l.op op

/-- The metered part E of the effective budget (R572). -/
def Power.metered (p : Power) : Nat :=
  let e := 4 * p.watts.toNat - 380
  let e := e * (if p.thr then p.thrPct.toNat else 10) / (10 * (if p.tlim then 2 else 1))
  max 160 e

/-- A request joins the queue by PRIO, then arrival (R569). -/
def queueLeave (l : Leave) : List Leave → List Leave
  | [] => [l]
  | x :: r => if l.prio.ult x.prio then l :: x :: r else x :: queueLeave l r

/-- A request that waits already, with a PRIO that has risen, takes its place again: by PRIO, then arrival (R567, R569). -/
def requeueLeave (l : Leave) (q : List Leave) : List Leave :=
  let rest := q.filter (·.no != l.no)
  rest.takeWhile (leaveLt · l) ++ l :: rest.dropWhile (leaveLt · l)

/-- Leave charged to an instance (R570). -/
def Power.charged (p : Power) (i : BitVec 8) : Nat := ((p.held.filter (·.inst == i)).map (·.tokens)).sum

/-- A request is passed over: its instance's share is used up while another instance waits (R570). -/
def State.passedOver (s : State) (l : Leave) : Bool :=
  s.power.queue.any (·.inst != l.inst) &&
  decide ((s.inst l.inst).pacerPct.toNat * s.power.metered < 100 * (s.power.charged l.inst + l.tokens))

/-- The queries that a decision on a request concerns (R571). -/
def State.leaveQueries (s : State) (l : Leave) : List Tag :=
  dedup ((leaveQuery l.op).toList ++ l.items.filterMap fun n => (s.item? n).map (·.query))

/-- Items that waited for a leave return to READY, their wait in the PACER total (07 R229, R238). -/
def State.unparkPacer (s : State) (l : Leave) : State :=
  let s := forEach l.items s fun s n => s.unparkItem n 0
  match leaveQuery l.op with
  | some t => if l.items.isEmpty then s.addTotal t 0 (s.time - l.since) else s
  | none => s

/-- LEAVE_GRANT (R569-R572): the Pacer considers the first request that is not passed over: granted where it fits, or
a cluster's where no cluster holds leave; a grant or refusal compares the deadlines it concerns. -/
def execLeaveGrant (s : State) : Host.Outcome State Fault Refusal :=
  if !s.ready then .next s
  else
    let passed := s.power.queue.takeWhile s.passedOver
    let s1 := forEach (passed.flatMap s.leaveQueries) s State.deadlineCheck
    match s.power.queue.drop passed.length with
    | [] => .next s1
    | l :: _ =>
      let cluster : Bool := match l.op with
        | .sprint _ => !(s.power.held.any fun h => match h.op with
            | .sprint _ => true
            | _ => false)
        | _ => false
      if !(s1.power.queue.any (·.no == l.no)) then .next s1
      else if cluster || decide (s.power.heldTokens + l.tokens ≤ s.power.metered) then
        let s2 := { s1 with power := { s1.power with
          queue := s1.power.queue.filter (·.no != l.no), held := s1.power.held ++ [l] } }
        match l.op with
        | .sprint c => .next (forEach (s.leaveQueries l)
            { s2 with power := { s2.power with waking := s2.power.waking ++ [c] } } State.deadlineCheck)
        | .spread t o =>
          .next (forEach (s.leaveQueries l) (State.unparkPacer
            { s2 with ops := AMap.update s2.ops (t, o) fun c => { c with leave := true } } l) State.deadlineCheck)
        | .exchange t o =>
          .next (forEach (s.leaveQueries l) (State.unparkPacer
            { s2 with ops := AMap.update s2.ops (t, o) fun c => { c with leave := true } } l) State.deadlineCheck)
        | _ => .next (forEach (s.leaveQueries l) (s2.unparkPacer l) State.deadlineCheck)
      else .next (forEach (s.leaveQueries l) s1 State.deadlineCheck)

/-- Leave of a holder is released. -/
def State.releaseLeave (s : State) (op : LeaveOp) : State :=
  { s with power := { s.power with held := s.power.held.filter fun (l : Leave) => !(sameHolder l.op op) } }

/-- Whether a sort unit has an item in service. -/
def State.sortBusy (s : State) (unit : BitVec 2) : Bool :=
  let r := s.runner ⟨.sort, unit.setWidth 6⟩
  r.running.isSome || r.slot.isSome

/-- LEAVE_RELEASE (R568): a job or an operator that held leave has ended; a cluster's goes with SPRINT, a table's with
its query. -/
def execLeaveRelease (op : LeaveOp) (s : State) : Host.Outcome State Fault Refusal :=
  match op with
  | .sprint _ => .next s
  | .sortUnit u _ => if s.sortBusy u then .next s else .next (s.releaseLeave op)
  | .spread t _ =>
    if (s.query? t).any fun q => q.st == .running || q.st == .paused then .next s else .next (s.releaseLeave op)
  | .encode _ _ => .next (s.releaseLeave op)
  | .exchange t o =>
    match s.op? t o with
    | some c => if c.ended then .next (s.releaseLeave op) else .next s
    | none => .next (s.releaseLeave op)

/-- CLUSTER_WAKE_DONE (R566): a waking cluster is in SPRINT, and the items that waited for it return to READY. -/
def execClusterWakeDone (c : BitVec 3) (s : State) : Host.Outcome State Fault Refusal :=
  if !(s.power.waking.contains c) then .next s
  else
    let ls := s.power.held.filter (sprintOf c)
    let s := State.setCluster { s with power := { s.power with waking := s.power.waking.filter (· ≠ c) } } c .sprint
    let s := forEach ls s State.unparkPacer
    .next { s with power := { s.power with
      held := s.power.held.map fun (l : Leave) => if sprintOf c l then { l with items := [] } else l } }

/-- SPRINT_IDLE (R566): no runner of the cluster has held an item for WARM_US: WARMUP, its leave released. -/
def execSprintIdle (c : BitVec 3) (s : State) : Host.Outcome State Fault Refusal :=
  if s.cluster c = .sprint && !s.clusterBusy c then
    .next ((s.releaseLeave (.sprint c)).setCluster c .warmup)
  else .next s

/-- WARMUP_IDLE (R566): no leave request for the cluster for REST_US: REST. -/
def execWarmupIdle (c : BitVec 3) (s : State) : Host.Outcome State Fault Refusal :=
  if s.cluster c = .warmup && !(s.power.queue.any (sprintOf c)) && !(s.power.waking.contains c) then
    .next (s.setCluster c .rest)
  else .next s

/-- SORT_UNIT_IDLE (R568): a sort unit has had no item in service for WARM_US: its leave is released. -/
def execSortUnitIdle (unit : BitVec 2) (s : State) : Host.Outcome State Fault Refusal :=
  if s.sortBusy unit then .next s else .next (s.releaseLeave (.sortUnit unit ⟨0, 0, 0⟩))

/-! ### Heat (R573-R575) -/

/-- SENSOR_EVALUATION (R573, R575): the 32 junction sensors are read; the thermal limit changes, or a reading of 125 °C
trips the engine, which saves first while it serves. -/
def execSensorEvaluation (readings : List (BitVec 8)) (drained : List Nat) (s : State) :
    Host.Outcome State Fault Refusal :=
  if readings.length ≠ 32 then .next s
  else
    let s := { s with power := { s.power with temps := readings } }
    let t := tjmax readings
    if 125 ≤ t then
      let s := if s.ready then s.saveSequence drained else s
      .next { s with
        glb := { s.glb with thermtrip := true, saveDone := true, phase := if s.glb.phase = .fatal then .fatal else .saved }
        power := { s.power with clusters := [], waking := [] }
        pair := { s.pair with aliveRun := false } }
    else
      let lim : Int := s.power.tlimit.toNat
      if !s.power.tlim && decide (lim ≤ t) then
        .next (State.raiseDevice { s with power := { s.power with tlim := true } } 7 0xFF 1 0)
      else if s.power.tlim && decide (t < lim - 5) then
        .next (State.raiseDevice { s with power := { s.power with tlim := false } } 7 0xFF 0 0)
      else .next s

/-- THROTTLE_N_CHANGE (R574): the sampled level changes, and its edge is reported. -/
def execThrottleNChange (low : Bool) (s : State) : Host.Outcome State Fault Refusal :=
  if s.power.thr = low then .next s
  else .next (State.raiseDevice { s with power := { s.power with thr := low } } (if low then 8 else 9) 0xFF 0 0)

end Sys2Proof.Machine
end

