-- ==== Sys2Proof/Machine/Join.lean ====
section
/-! DEFINITION. HASH_BUILD and HASH_PROBE (09 R276-R289). -/

namespace Sys2Proof.Machine

/-! ### The build -/

def OpDesc.buildKeys (o : OpDesc) : List Nat := o.keyRuns (o.p 16 1)
def OpDesc.payload (o : OpDesc) : List Nat := maskRuns (o.p 8 8)

/-- Bytes of a build row in the table (R279). -/
def entryBytes (types : List (BitVec 8)) (payload : List Nat) (key : Bytes) (row : Vals) : Nat :=
  let size (k : Nat) : Nat :=
    let ty := (types.getD k 0).toNat
    if isStr ty then 2 + (((row[k]?).join).map (·.text.length)).getD 0 else tyBytes ty
  16 + roundUp key.length 8 + roundUp (ceilDiv payload.length 8 + (payload.map size).sum) 8

/-- The bucket directory's exponent for a table of n rows (R279). -/
def bucketBits (n : Nat) : Nat := max 10 (if n ≤ 1 then 0 else Nat.log2 (n - 1) + 1)

/-- Bytes of a table of build rows given as (entry bytes, null key); null-key rows are in the side list. -/
def tableBytes (rows : List (Nat × Bool)) : Nat :=
  (rows.map (·.1)).sum + 8 * 2 ^ bucketBits (rows.filter fun r => !r.2).length

/-- The bytes of a build row, kept as its payload is kept. -/
def BuildRow.bytes (types : List (BitVec 8)) (r : BuildRow) : Nat :=
  let size (e : Option Val × Nat) : Nat :=
    let ty := (types.getD e.2 0).toNat
    if isStr ty then 2 + (e.1.map (·.text.length)).getD 0 else tyBytes ty
  16 + roundUp r.key.length 8 + roundUp (ceilDiv r.payload.length 8 + (r.payload.zipIdx.map size).sum) 8

/-- The types of the payload runs. -/
def payloadTypes (types : List (BitVec 8)) (payload : List Nat) : List (BitVec 8) := payload.map fun k => types.getD k 0

/-- LS units that build rows need. -/
def buildUnits (ptypes : List (BitVec 8)) (rows : List BuildRow) : Nat :=
  ceilDiv (tableBytes (rows.map fun r => (r.bytes ptypes, r.nullKey))) 65536

/-- Spill pages of a partitioned build (R286). -/
def buildPages (ptypes : List (BitVec 8)) (rows : List BuildRow) : Nat :=
  Config.spillPages 0x20 rows.length ((rows.map (BuildRow.bytes ptypes)).sum)

/-- The span limit in LS units (R278). -/
def OpDesc.spanUnits (o : OpDesc) : Nat := if bit (o.p 17 1) 0 then 2560 else 320

/-- Whether a reservation is refused: the quota, the span limit, or more than 2^24 buckets (R278, R286, R304). -/
def State.buildRefused (s : State) (q : Query) (o : OpDesc) (c : OpCtx) (ptypes : List (BitVec 8)) (rows : List BuildRow) :
    Bool :=
  let units := buildUnits ptypes rows
  decide (o.spanUnits < units) || decide (24 < bucketBits (rows.filter fun r => !r.nullKey).length) ||
  decide ((s.inst q.tag.inst).lsUnits.toNat < s.lsUse q.tag.inst - c.lsUnits + units)

/-- The build rows of a frame. -/
def buildRowsOf (o : OpDesc) (f : Frame) : List BuildRow :=
  f.rows.map fun (_, row) => {
    key := keyString (bit (o.p 17 1) 1) f.types o.buildKeys row, nullKey := nullKey o.buildKeys row
    payload := o.payload.map fun k => (row[k]?).join, hit := false }

/-- A frame of the build side (R277-R279, R286): its rows join the table when their reservation is granted. A SPREAD table
waits for leave before its second slice. -/
def State.buildFrame (s : State) (q : Query) (o : OpDesc) (op : BitVec 16) (c : OpCtx) (i : Item) (f : Frame) : FrameEnd :=
  if !shapeOk c 0 f.types then .stream
  else if (o.buildKeys ++ o.payload).any fun k => decide (f.runs.length ≤ k) then .params
  else
    let rows := c.build ++ buildRowsOf o f
    let pt := payloadTypes f.types o.payload
    let next (c : OpCtx) : FrameEnd :=
      let c1 : OpCtx := { c with build := rows, buildRows := rows.length, nullBuild := rows.any (·.nullKey) }
      .emit [] c1 { i with progress := i.startRows + f.sel.length } true
    let c := c.setShape 0 f.types
    if c.partitioned then
      if s.spillFits q.tag c (buildPages pt rows) then next { c with spill := buildPages pt rows } else .spill
    else if s.buildRefused q o c pt rows then .wait Needs.none
    else if bit (o.p 17 1) 0 && decide (320 < buildUnits pt rows) && !s.leaveHeld (.spread q.tag op) then .wait Needs.none
    else next { c with lsUnits := buildUnits pt rows }

/-- HANDLE_FRAME_PUSH (R277): after every item of the build has ended, its one handle frame: an opaque handle and the
number of build rows. -/
def execHandleFramePush (t : Tag) (op : BitVec 16) (s : State) : Host.Outcome State Fault Refusal :=
  match (s.query? t).bind fun q => (q.opOf op).map (q, ·), s.op? t op with
  | some (q, im, o), some c =>
    if q.st ≠ .running && q.st ≠ .paused || o.code ≠ opBuild || c.handleSent || !s.inputsDrained q o ||
        !(s.opItems t op).isEmpty then .next s
    else
      let f := rowsFrame [0x09, 0x09] [[some (mkVal 0x09 (Config.tableHandle s.free).toNat), some (mkVal 0x09 c.buildRows)]] 0
      match o.outs[0]? with
      | none => .next s
      | some k =>
        match State.pushWords (q.stream k) 0 (toWords (f.bytes s.free)) s with
        | none => .next (s.grow (q.stream k))
        | some s =>
          let _ := im
          .next (((s.setOp t op { c with handleSent := true }).tick).settleOps t)
  | _, _ => .next s

/-- The frame an item has popped whole and not yet worked on, on a port. -/
def State.heldFrame (s : State) (q : Query) (i : Item) (port : BitVec 3) : Option Bytes :=
  match AMap.find? i.inFrame port with
  | none => none
  | some bs =>
    match q.opOf i.op with
    | none => none
    | some (_, o) =>
      match o.ins[port.toNat]? with
      | none => none
      | some k =>
        match s.streamOf q k with
        | none => none
        | some st => if st.frames.any fun f => f.claim == some i.id && f.popped == f.words then some bs else none

/-- BUILD_PARTITION (R286, R288): a refused reservation makes the whole build partitioned; its entries go to 64 spill
partitions, as far as there are pages now, and the rest with the frame that was refused. Its reservations stay until the query is in
DONE (R278): the partition-pair items use them. -/
def execBuildPartition (t : Tag) (op : BitVec 16) (s : State) : Host.Outcome State Fault Refusal :=
  match (s.query? t).bind fun q => (q.opOf op).map fun e => (q, e.2), s.op? t op with
  | some (q, o), some c =>
    let refused (i : Item) : Bool :=
      match (s.heldFrame q i 0).bind readFrame with
      | some f => s.buildRefused q o c (payloadTypes f.types o.payload) (c.build ++ buildRowsOf o f)
      | none => false
    let pt := payloadTypes (AMap.get c.shapes 0 []) o.payload
    if o.code ≠ opBuild || c.partitioned || !(s.opItems t op).any refused then .next s
    else .next (s.setOp t op { c with
      partitioned := true, spill := min (buildPages pt c.build) (c.spill + s.spillRoom t.inst) })
  | _, _ => .next s

/-! ### The probe (R280-R285) -/

def OpDesc.probeKeys (o : OpDesc) : List Nat := o.keyRuns (o.p 16 1)
def OpDesc.carry (o : OpDesc) : List Nat := maskRuns (o.p 8 8)
def OpDesc.kind (o : OpDesc) : Nat := o.p 17 1
def OpDesc.probeTotal (o : OpDesc) : Bool := bit (o.p 18 1) 0

/-- The build of a probe: its operator index, descriptor and context. -/
def State.buildOf (s : State) (q : Query) (im : Image) (o : OpDesc) : Option (BitVec 16 × OpDesc × OpCtx) :=
  match im.buildOf o with
  | none => none
  | some k =>
    match im.op? k, s.op? q.tag (BitVec.ofNat 16 k) with
    | some b, some c => some (BitVec.ofNat 16 k, b, c)
    | _, _ => none

/-- The run types of the output (R283); a side that has sent no frame gives types the spec does not state. -/
def joinTypes (o b : OpDesc) (c bc : OpCtx) : List (BitVec 8) :=
  let pick (shapes : AMap (BitVec 3) (List (BitVec 8))) (port : BitVec 3) (k : Nat) : BitVec 8 :=
    match AMap.find? shapes port with
    | some l => l.getD k 0
    | none => Config.absentType k
  (if buildOnly o.kind then [] else o.carry.map (pick c.shapes 1)) ++
  (if probeOnly o.kind then [] else b.payload.map (pick bc.shapes 0))

/-- Matches of one probe row beyond which the query ends with QUOTA (R304). -/
def maxMatches : Nat := 4294967295

/-- The bucket of a key in a directory of 2^b buckets (R275). -/
def bucketOf (b : Nat) (key : Bytes) : Nat := (sh64 key 0).toNat % 2 ^ b

/-- A table that probe rows are joined with: build rows with their ordinals; the rows of the blocks before it, and whether it is the last
block (R287). -/
structure JoinTable where
  rows   : List (BuildRow × Nat)
  before : List (BuildRow × Nat)
  last   : Bool
deriving DecidableEq, Repr

/-- The whole build as one table. -/
def OpCtx.table (c : OpCtx) : JoinTable where
  rows := c.build.zipIdx
  before := []
  last := true

/-- The entries that a key meets in the bucket it falls into, in the order of the bucket's chain (R275, R283). -/
def chainWalk (rows : List (BuildRow × Nat)) (key : Bytes) : List (BuildRow × Nat) :=
  let b := bucketBits (rows.filter fun r => !r.1.nullKey).length
  let chain := rows.filter fun r => !r.1.nullKey && bucketOf b r.1.key == bucketOf b key
  sortBy (fun x y => decide (Config.chainKey x.2 < Config.chainKey y.2)) (chain.filter fun r => r.1.key == key)

/-- The output rows of one probe row against a table, and whether it meets a match there (R281, R283). A row that has met one in an
earlier block is matched; with UNIQUE it goes no further. -/
def probeRow (o b : OpDesc) (bc : OpCtx) (tb : JoinTable) (key : Bytes) (isNull : Bool) (row : Vals) : List Vals × Bool :=
  let kind := o.kind
  let unique := bit (b.p 17 1) 2
  let met := !isNull && !(chainWalk tb.before key).isEmpty
  let walk := if isNull || (unique && met) then [] else chainWalk tb.rows key
  let found := if unique then walk.take 1 else walk
  let lone := tb.last && found.isEmpty && !met
  let mine := o.carry.map fun k => (row[k]?).join
  let nulls : Vals := b.payload.map fun _ => none
  let pairs := found.map fun r => mine ++ r.1.payload
  let rows : List Vals :=
    if kind = 0 || kind = 2 then pairs
    else if kind = 1 || kind = 3 then if lone then [mine ++ nulls] else pairs
    else if kind = 4 then if found.isEmpty || met then [] else [mine]
    else if kind = 5 then if lone then [mine] else []
    else if kind = 6 then
      if bc.nullBuild then []
      else if isNull then if bc.build.isEmpty then [mine] else []
      else if lone then [mine] else []
    else []
  (rows, !found.isEmpty)

/-- The output rows of a probe row: under its place in the item, each with its number among the row's matches (R284). -/
def matchRows (ord : Nat) (rows : List Vals) : List SortRow :=
  rows.zipIdx.map fun e => { key := leBytes 4 e.2, ord := ord, vals := e.1 }

/-- The match bits of the build rows of a key are set (R285); with UNIQUE the first of the walk only. -/
def setHits (b : OpDesc) (keys : List Bytes) (build : List BuildRow) : List BuildRow :=
  if bit (b.p 17 1) 2 then
    let first := keys.filterMap fun k =>
      ((sortBy (fun (x y : BuildRow × Nat) => decide (Config.chainKey x.2 < Config.chainKey y.2))
        (build.zipIdx.filter fun r => !r.1.nullKey && r.1.key == k)).head?).map (·.2)
    build.zipIdx.map fun r => if first.contains r.2 then { r.1 with hit := true } else r.1
  else build.map fun r => if !r.nullKey && keys.contains r.key then { r with hit := true } else r

/-- The frames of pending output rows: full frames, and with `final` the last one too. A frame's landing commits the input
rows whose outputs it completes; OPSTATE counts the matches already emitted of the row at PROGRESS (R284). -/
def drainRows (port : Nat) (types : List (BitVec 8)) (seed : Nat) (final : Bool) (done : Nat) :
    Nat → List SortRow → List OutWord × List SortRow
  | 0, l => ([], l)
  | fuel + 1, l =>
    if l.isEmpty then ([], [])
    else
      let (now, rest) := fillFrame types seed [] (l.map (·.vals))
      if rest.isEmpty && !final && now.length < 4096 then ([], l)
      else
        let after := l.drop now.length
        let (progress, opst) := match after with
          | r :: _ => (r.ord, leNat r.key)
          | [] => (done, 0)
        let (more, left) := drainRows port types seed final done fuel after
        (frameOut port ((rowsFrame types now 0).bytes seed) (some progress) (some (BitVec.ofNat 32 opst)) ++ more, left)

/-- A frame on port 0 of a probe: the handle (R277). -/
def handleFrame (c : OpCtx) (i : Item) : FrameEnd := .emit [] { c with handleRead := true } i true

/-- A frame of probe rows (R282-R287): joined with the table, or, with a partitioned build, written to the partitions but for
its null-key rows. -/
def State.probeFrame (s : State) (q : Query) (im : Image) (o : OpDesc) (c : OpCtx) (i : Item) (f : Frame) : FrameEnd × List Bytes :=
  match s.buildOf q im o with
  | none => (.params, [])
  | some (_, b, bc) =>
    let bt := AMap.find? bc.shapes 0
    let c1 := c.setShape 1 f.types
    let types := joinTypes o b c1 bc
    let badKeys := (o.probeKeys.zip b.buildKeys).any fun e =>
      decide (f.runs.length ≤ e.1) || (bt.map fun l => l.getD e.2 0).any fun ty => ty != f.types.getD e.1 0
    if !shapeOk c 1 f.types then (.stream, [])
    else if badKeys || (o.carry.any fun k => decide (f.runs.length ≤ k)) || 64 < types.length then (.params, [])
    else
      let rows := f.rows.map fun (k, row) =>
        (i.startRows + k, keyString o.probeTotal f.types o.probeKeys row, nullKey o.probeKeys row, row)
      let now := if bc.partitioned then rows.filter (·.2.2.1) else rows
      let later := if bc.partitioned then rows.filter fun r => !r.2.2.1 else []
      let join (key : Bytes) (isNull : Bool) (row : Vals) := probeRow o b bc bc.table key isNull row
      let outs := now.flatMap fun (k, key, isNull, row) => matchRows k (join key isNull row).1
      let hits := now.filterMap fun (_, key, isNull, row) => if (join key isNull row).2 then some key else none
      let parts := later.map fun (k, key, _, row) => ({ key := key, ord := k, vals := row } : SortRow)
      let probes := c.probes ++ parts
      let pages := Config.spillPages 0x21 probes.length ((probes.map fun r => r.key.length).sum)
      if now.any fun (_, key, isNull, row) => decide (maxMatches < (join key isNull row).1.length) then
        (.stop stQuota, [])
      else if !parts.isEmpty && !s.spillFits q.tag c pages then (.spill, [])
      else
        let done := i.startRows + f.sel.length
        let all := i.rows ++ outs
        let (words, left) := drainRows 0 types s.free false done all.length all
        let progress := match left with
          | r :: _ => max i.progress r.ord
          | [] => done
        (.emit words { c1 with probes := probes, spill := if parts.isEmpty then c.spill else pages }
          { i with rows := left, progress := if words.isEmpty then progress else i.progress } true, hits)

/-! ### Partition pairs (R287) -/

/-- The final partitions in depth-first order: a partition whose table does not fit is split by the next level's bits, down
to level 3. -/
def finalParts (fits : List (BuildRow × Nat) → Bool) :
    Nat → Nat → List (BuildRow × Nat) → List SortRow → List (List (BuildRow × Nat) × List SortRow)
  | 0, _, b, p => [(b, p)]
  | fuel + 1, level, b, p =>
    (List.range 64).flatMap fun k =>
      let bk := b.filter fun r => hashPart level (sh64 r.1.key 0) == k
      let pk := p.filter fun r => hashPart level (sh64 r.key 0) == k
      if pk.isEmpty then []
      else if fits bk then [(bk, pk)]
      else finalParts fits fuel (level + 1) bk pk

/-- As many rows as fit a table, one at least, and the rest. -/
def fillBlock (fits : List (BuildRow × Nat) → Bool) :
    List (BuildRow × Nat) → List (BuildRow × Nat) → List (BuildRow × Nat) × List (BuildRow × Nat)
  | acc, [] => (acc, [])
  | acc, r :: rest => if acc.isEmpty || fits (acc ++ [r]) then fillBlock fits (acc ++ [r]) rest else (acc, r :: rest)

/-- The blocks of a partition that does not fit: each with the rows of the blocks before it (R287). -/
def cutBlocks (fits : List (BuildRow × Nat) → Bool) :
    Nat → List (BuildRow × Nat) → List (BuildRow × Nat) → List JoinTable
  | 0, _, _ => []
  | fuel + 1, before, rows =>
    let e := fillBlock fits [] rows
    if e.2.isEmpty then [{ rows := e.1, before := before, last := true }]
    else { rows := e.1, before := before, last := false } :: cutBlocks fits fuel (before ++ e.1) e.2

/-- The work of a partition-pair item: the table, at most 65,536 probe rows of one partition with the ordinal of the first, the
partition's number and how many probe rows it has; whether it is joined in blocks, and whether this is its last item. -/
structure PairWork where
  table   : JoinTable
  probes  : List SortRow
  origin  : Nat
  part    : Nat
  all     : Nat
  blocked : Bool
  final   : Bool
deriving DecidableEq, Repr

/-- The items of one final partition: its probe rows once for each block. -/
def pairsOf (fits : List (BuildRow × Nat) → Bool) (part origin : Nat) (build : List (BuildRow × Nat)) (probes : List SortRow) :
    List PairWork :=
  let walk := sortBy (fun x y => decide (Config.chainKey x.2 < Config.chainKey y.2)) build
  let blocks := if fits build then [{ rows := build, before := [], last := true }] else cutBlocks fits walk.length [] walk
  let chunks := ceilDiv probes.length itemRows
  blocks.zipIdx.flatMap fun b => (List.range chunks).map fun k =>
    { table := b.1, probes := (probes.drop (itemRows * k)).take itemRows, origin := origin + itemRows * k, part := part
      all := probes.length, blocked := decide (1 < blocks.length), final := b.1.last && k + 1 == chunks }

/-- The Local Store that a partition's table may take: what the quota has left when the first pair item is cut, and what the build
has reserved (R278, R288). -/
def State.pairRoom (s : State) (q : Query) (c bc : OpCtx) : Nat := c.pairRoom.getD (s.lsRoom q.tag.inst + bc.lsUnits)

/-- The partition-pair items of a probe, in order. -/
def State.pairWork (s : State) (q : Query) (b : OpDesc) (c bc : OpCtx) : List PairWork :=
  let pt := payloadTypes (AMap.get bc.shapes 0 []) b.payload
  let room := s.pairRoom q c bc
  let fits (l : List (BuildRow × Nat)) : Bool :=
    decide (buildUnits pt (l.map (·.1)) ≤ min b.spanUnits room) && decide (bucketBits (l.filter fun r => !r.1.nullKey).length ≤ 24)
  let parts := finalParts fits 3 1 (bc.build.zipIdx.filter fun r => !r.1.nullKey) c.probes
  (parts.zip (starts 0 (parts.map fun e => e.2.length))).zipIdx.flatMap fun e => pairsOf fits e.2 e.1.2 e.1.1.1 e.1.1.2

/-- The Local Store units of a pair's table. -/
def pairUnits (b : OpDesc) (bc : OpCtx) (w : PairWork) : Nat :=
  buildUnits (payloadTypes (AMap.get bc.shapes 0 []) b.payload) (w.table.rows.map (·.1))

/-- The next partition-pair item (R287). The first item fixes the room for a table, and reserves what the largest needs beyond the
build's own reservation; one item at a time uses that, a further one reserves its own. A block is read when the one before it is done. -/
def State.pairItem (s : State) (q : Query) (im : Image) (o : OpDesc) (op : BitVec 16) (c : OpCtx) : State :=
  match s.buildOf q im o with
  | none => s
  | some (_, b, bc) =>
    let work := s.pairWork q b c bc
    let most := (work.map (pairUnits b bc)).foldl max 0
    let live := s.flowItems q.tag op 1
    match work[s.cursor q.tag op 1]? with
    | none => s.setOp q.tag op { c with merging := true }
    | some w =>
      let own := live.any fun i => i.ls == 0
      let units := if own then pairUnits b bc w else 0
      if (w.blocked && !live.isEmpty) || (own && decide (s.lsRoom q.tag.inst < units)) then s
      else
        let id := s.disp.nextItem
        let s := s.setOp q.tag op { c with
          pairRoom := some (s.pairRoom q c bc), merging := decide (work.length ≤ s.cursor q.tag op 1 + 1)
          lsUnits := max c.lsUnits (most - bc.lsUnits) }
        (s.newItem q o op 1 (BitVec.ofNat 64 w.origin) w.probes.length []).modItem id fun i => { i with ls := units }

/-- Pages of the probe match bits of a partition (R287). -/
def bitPages (w : PairWork) : Nat := ceilDiv (ceilDiv w.all 8) 65536

/-- Whether a probe's matches are kept over the blocks of a partition: for the kinds that preserve probe rows, and with UNIQUE. -/
def keepsBits (o b : OpDesc) : Bool := (o.kind == 1 || (3 ≤ o.kind && o.kind ≤ 6)) || bit (b.p 17 1) 2

/-- The spill pages of a probe while a pair item works: match bits are held from a partition's first block to its last. -/
def OpCtx.holdBits (c : OpCtx) (o b : OpDesc) (w : PairWork) : OpCtx :=
  let held := c.bitParts.contains w.part
  if !w.blocked || !keepsBits o b then c
  else if w.final then
    { c with bitParts := c.bitParts.filter (· ≠ w.part), spill := if held then c.spill - bitPages w else c.spill }
  else if held then c
  else { c with bitParts := w.part :: c.bitParts, spill := c.spill + bitPages w }

/-- A partition-pair item that has not joined its rows yet. -/
def State.pairDue (s : State) (q : Query) (im : Image) (o : OpDesc) (c : OpCtx) (i : Item) :
    Option (BitVec 16 × OpDesc × OpCtx × PairWork) :=
  if o.code ≠ opProbe || i.flow ≠ 1 || c.probes.isEmpty || !i.outq.isEmpty || i.count ≤ i.progress then none
  else (s.buildOf q im o).bind fun (bop, b, bc) => ((s.pairWork q b c bc)[i.part]?).map fun w => (bop, b, bc, w)

/-- A partition-pair item joins its rows (R287): the frames it emits, and the build rows it hits. -/
def State.pairJoin (s : State) (q : Query) (im : Image) (o : OpDesc) (c : OpCtx) (i : Item) : State :=
  match s.pairDue q im o c i with
  | none => s
  | some (bop, b, bc, w) =>
    let c1 := c.holdBits o b w
    let made := w.probes.zipIdx.map fun (r, n) => (r.key, n, probeRow o b bc w.table r.key false r.vals)
    if !s.spillFits q.tag c c1.spill then s.takeSpill q.tag i.op
    else if made.any fun e => decide (maxMatches < e.2.2.1.length) then s.stopQuery q.tag stQuota
    else
      let rows := made.flatMap fun e => matchRows e.2.1 e.2.2.1
      let (words, _) := drainRows 0 (joinTypes o b c bc) s.free true w.probes.length rows.length rows
      let keys := made.filterMap fun e => if e.2.2.2 then some e.1 else none
      let s := (s.setOp q.tag bop { bc with build := setHits b keys bc.build }).setOp q.tag i.op c1
      (s.modItem i.id fun i => { i with outq := words, progress := if words.isEmpty then i.count else i.progress }).tick

/-- UNMATCHED_BUILD_PASS (R285): after every probe item has ended, the build rows that the kind calls for. -/
def execUnmatchedBuildPass (t : Tag) (op : BitVec 16) (s : State) : Host.Outcome State Fault Refusal :=
  match (s.query? t).bind fun q => (q.opOf op).map (q, ·), s.op? t op with
  | some (q, im, o), some c =>
    match s.buildOf q im o with
    | none => .next s
    | some (_, b, bc) =>
      if q.st ≠ .running && q.st ≠ .paused || o.code ≠ opProbe || !kindPass o.kind || c.passDone || !s.inputsDrained q o ||
          !(s.opItems t op).isEmpty || !(c.probes.isEmpty || c.merging) || !s.itemRoom then .next s
      else
        let keep (r : BuildRow) : Bool := if o.kind = 7 then r.hit else !r.hit
        let lead : Vals := if buildOnly o.kind then [] else o.carry.map fun _ => none
        let rows := (bc.build.filter keep).map fun r => lead ++ r.payload
        let s := s.setOp t op { c with passDone := true }
        if rows.isEmpty then .next (s.settleOps t)
        else
          let port := if o.outs.length = 2 then 1 else 0
          .next ((s.newItem q o op 1 0 rows.length (emitRows port (joinTypes o b c bc) s.free rows)).tick)
  | _, _ => .next s

end Sys2Proof.Machine
end

