-- ==== Sys2Proof/Machine/SortOps.lean ====
section
/-! DEFINITION. SORT, MERGE, TOPK, LIMIT, UNION and HURDLE (10 R306-R316, R330, R331). -/

namespace Sys2Proof.Machine

/-- The ordinal, in its stream, of the frame an item holds on a port. -/
def State.frameNo (s : State) (q : Query) (o : OpDesc) (i : Item) (port : Nat) : Nat :=
  match (o.ins[port]?).bind (s.streamOf q) with
  | some st => ((st.frames.find? fun f => f.claim == some i.id).map (·.no)).getD 0
  | none => 0

/-- The selected rows of a frame with their normalised keys and their places in the input (R307-R309). -/
def sortRows (o : OpDesc) (no : Nat) (f : Frame) : List SortRow :=
  f.rows.map fun (k, row) => {
    key := sortKey o.orderTotal f.types o.orderKeys row, ord := 4096 * no + k, vals := row }

/-- Whether a key names no run of a frame. -/
def OpDesc.keyMissing (o : OpDesc) (f : Frame) : Bool := o.orderKeys.any fun k => decide (f.runs.length ≤ k.1)

/-- Spill pages of rows. -/
def sortPages (code : Nat) (rows : List SortRow) : Nat :=
  Config.spillPages (BitVec.ofNat 8 code) rows.length ((rows.map fun r => r.key.length).sum)

/-! ### SORT and TOPK (R309-R311, R314) -/

/-- Local Store units of the 40-byte entries of a run of `n` rows (R310). -/
def entryUnits (n : Nat) : Nat := ceilDiv (40 * n) 65536

/-- The rows of a run of a SORT item, and the units it reserves for their entries: the largest power of two from 1,024 to 65,536 that
the room allows, or 1,024 rows whose entries lie in a spill page (R310). -/
def runShape (room : Nat) : Nat × Nat :=
  match [65536, 32768, 16384, 8192, 4096, 2048, 1024].find? fun n => entryUnits n ≤ room with
  | some n => (n, entryUnits n)
  | none => (1024, 0)

/-- The rows of runs and of items of an operator other than one, and how many of those items sort in spill pages. -/
def State.rowsBeside (s : State) (q : Query) (op : BitVec 16) (c : OpCtx) (n : Nat) : List SortRow × Nat :=
  let others := (s.opItems q.tag op).filter fun i => i.id ≠ n && i.flow == 0
  (c.runs.flatten ++ others.flatMap (·.rows), (others.filter fun i => i.runRows ≠ 0 && i.ls == 0).length)

/-- A frame of a run item of SORT (R310): its selected rows' payload goes to spill, their entries to Local Store or to a spill page. -/
def State.sortFrame (s : State) (q : Query) (o : OpDesc) (c : OpCtx) (i : Item) (f : Frame) : FrameEnd :=
  if !shapeOk c 0 f.types then .stream
  else if o.keyMissing f then .params
  else
    let (n, units) := if i.runRows = 0 then runShape (s.lsRoom q.tag.inst) else (i.runRows, i.ls)
    let rows := i.rows ++ sortRows o (s.frameNo q o i 0) f
    let others := s.rowsBeside q i.op c i.id
    let pages := sortPages opSort (others.1 ++ rows) + others.2 + (if units = 0 then 1 else 0)
    if !s.spillFits q.tag c pages then .spill
    else .emit [] { c.setShape 0 f.types with spill := pages }
      { i with rows := rows, runRows := n, ls := units, progress := i.startRows + f.sel.length } true

/-- Local Store units of the rows that TOPK keeps (R314). -/
def topUnits (rows : List SortRow) : Nat :=
  if rows.isEmpty then 0 else Config.lsUnits (BitVec.ofNat 8 opTopk) rows.length ((rows.map fun r => r.key.length).sum)

/-- A frame of a partial item of TOPK (R314): the item keeps the first K of its rows. What the operator keeps takes Local Store, and
where the quota refuses it spill pages. -/
def State.topkFrame (s : State) (q : Query) (o : OpDesc) (c : OpCtx) (i : Item) (f : Frame) : FrameEnd :=
  if !shapeOk c 0 f.types then .stream
  else if o.keyMissing f then .params
  else
    let rows := (sortBy sortLt (i.rows ++ sortRows o (s.frameNo q o i 0) f)).take (o.p 20 4)
    let all := (s.rowsBeside q i.op c i.id).1 ++ rows
    let keep (c : OpCtx) : FrameEnd :=
      .emit [] (c.setShape 0 f.types) { i with rows := rows, progress := i.startRows + f.sel.length } true
    if topUnits all ≤ s.lsRoom q.tag.inst + c.lsUnits then keep { c with lsUnits := topUnits all, spill := 0 }
    else if s.spillFits q.tag c (sortPages opTopk all) then keep { c with lsUnits := 0, spill := sortPages opTopk all }
    else .spill

/-- Rows cut into runs of a length, each sorted. -/
def sortedRuns (n : Nat) : Nat → List SortRow → List (List SortRow)
  | 0, _ => []
  | _, [] => []
  | fuel + 1, rows => sortBy sortLt (rows.take n) :: sortedRuns n fuel (rows.drop n)

/-- A run item ends: its sorted runs join the runs (R310); a partial item of TOPK leaves one (R314). -/
def OpCtx.addRun (c : OpCtx) (i : Item) : OpCtx :=
  { c with runs := c.runs ++ sortedRuns (if i.runRows = 0 then max 1 i.rows.length else i.runRows) i.rows.length i.rows }

/-- Whether the run flow has ended: the input is drained and no item of it is left. -/
def State.runsEnded (s : State) (q : Query) (o : OpDesc) (op : BitVec 16) : Bool :=
  s.inputsDrained q o && (s.flowItems q.tag op 0).isEmpty

/-- MERGE_FLOW_START (R311, R314): the merge flow starts when the run flow has ended; with no run there is nothing to
emit. -/
def execMergeFlowStart (t : Tag) (op : BitVec 16) (s : State) : Host.Outcome State Fault Refusal :=
  match (s.query? t).bind fun q => (q.opOf op).map fun e => (q, e.2), s.op? t op with
  | some (q, o), some c =>
    if (o.code ≠ opSort && o.code ≠ opTopk) || (q.st ≠ .running && q.st ≠ .paused) || c.merging || !s.runsEnded q o op then
      .next s
    else .next ((s.setOp t op { c with merging := true, passDone := c.runs.isEmpty }).settleOps t)
  | _, _ => .next s

/-- The next item of the merge flow: 64 consecutive runs into one while more than 64 remain, then the output; TOPK has one
item, which keeps the first K. -/
def State.mergeItem (s : State) (q : Query) (o : OpDesc) (op : BitVec 16) (c : OpCtx) : State :=
  if !c.merging || c.passDone || !(s.flowItems q.tag op 1).isEmpty then s
  else
    let n := s.cursor q.tag op 1
    if o.code = opSort && 64 < c.runs.length then
      s.newItem q o op 1 (BitVec.ofNat 64 n) ((c.runs.take 64).map List.length).sum []
    else
      let all := sortBy sortLt c.runs.flatten
      let rows := if o.code = opTopk then all.take (o.p 20 4) else all
      let s := s.setOp q.tag op { c with runs := [], passDone := true }
      (s.newItem q o op 1 0 rows.length (emitRows 0 (AMap.get c.shapes 0 []) s.free (rows.map (·.vals)))).tick

/-- A merge item of SORT that merges runs into one: its element is an output row (R311). -/
def OpDesc.mergesRuns (o : OpDesc) (c : OpCtx) (i : Item) : Bool :=
  o.code == opSort && i.flow == 1 && !c.passDone && i.outq.isEmpty && decide (i.progress < i.count)

/-- An intermediate merge item ends: its 64 runs are one. -/
def OpCtx.mergeRuns (c : OpCtx) : OpCtx :=
  { c with runs := sortBy sortLt (c.runs.take 64).flatten :: c.runs.drop 64 }

/-! ### MERGE (R313) -/

/-- The port whose first row comes next: the lowest key, on a tie the lowest port; none where a port that has not ended
holds no row. -/
def mergeNext (nIn : Nat) (drained : Nat → Bool) (ports : AMap (BitVec 3) (List SortRow)) : Option (BitVec 3 × SortRow) :=
  let heads := (List.range nIn).map fun p => (BitVec.ofNat 3 p, (AMap.get ports (BitVec.ofNat 3 p) []).head?)
  if heads.any fun h => h.2.isNone && !drained h.1.toNat then none
  else
    (heads.filterMap fun h => h.2.map (h.1, ·)).foldl (fun b h => match b with
      | none => some h
      | some x => if bytesLt h.2.key x.2.key then some h else some x) none

/-- Rows leave the ports in order as long as every port is known. -/
def mergeDrain (nIn : Nat) (drained : Nat → Bool) :
    Nat → AMap (BitVec 3) (List SortRow) → List SortRow → AMap (BitVec 3) (List SortRow) × List SortRow
  | 0, ports, out => (ports, out)
  | fuel + 1, ports, out =>
    match mergeNext nIn drained ports with
    | none => (ports, out)
    | some (p, r) => mergeDrain nIn drained fuel (AMap.insert ports p ((AMap.get ports p []).drop 1)) (out ++ [r])

/-- Rows held in the ports of a MERGE. -/
def OpCtx.portRows (c : OpCtx) : Nat := (c.ports.map fun e => e.2.length).sum

/-- Keys that never fall. -/
def keysRise : Bytes → List SortRow → Bool
  | _, [] => true
  | k, r :: rs => !bytesLt r.key k && keysRise r.key rs

/-- Whether an input port of an operator has ended and is popped whole. -/
def State.portDrained (s : State) (q : Query) (o : OpDesc) (p : Nat) : Bool :=
  match (o.ins[p]?).bind (s.streamOf q) with
  | some st => st.drained
  | none => true

/-- The frames of merged rows: full ones, and with `final` the last one too; PROGRESS of the item counts its rows, which carry ORD 1,
once they are out (07 R218). -/
def mergeOut (types : List (BitVec 8)) (seed : Nat) (final : Bool) : Nat → Nat → List SortRow → List OutWord × List SortRow
  | 0, _, l => ([], l)
  | fuel + 1, done, l =>
    if l.isEmpty then ([], [])
    else
      let (now, rest) := fillFrame types seed [] (l.map (·.vals))
      if rest.isEmpty && !final && now.length < 4096 then ([], l)
      else
        let n := done + ((l.take now.length).map (·.ord)).sum
        let (more, left) := mergeOut types seed final fuel n (l.drop now.length)
        (frameOut 0 ((rowsFrame types now 0).bytes seed) (some n) none ++ more, left)

/-- A frame on a port of MERGE: its rows join the port's, and what is known to come next is emitted in full frames. Rows that are not
selected count at once, the others once they are out. -/
def State.mergeFrame (s : State) (q : Query) (o : OpDesc) (c : OpCtx) (i : Item) (port : BitVec 3) (f : Frame) : FrameEnd :=
  let all := dedup (c.shapes.map (·.2) ++ [f.types])
  let rows := (sortRows o (s.frameNo q o i port.toNat) f).map fun r => { r with ord := 1 }
  if all.length ≠ 1 then .stream
  else if o.keyMissing f then .params
  else if !keysRise (AMap.get c.lastKey port []) rows then .stream
  else
    let ports := AMap.insert c.ports port (AMap.get c.ports port [] ++ rows)
    let n := c.portRows + rows.length
    let (ports, out) := mergeDrain o.ins.length (fun p => s.portDrained q o p) n ports []
    let held := c.outRows ++ out
    let done := i.progress + (f.sel.length - rows.length)
    let (words, left) := mergeOut f.types s.free false held.length done held
    .emit words { (c.setShape port f.types) with
      ports := ports, outRows := left
      lastKey := match rows.getLast? with
        | some r => AMap.insert c.lastKey port r.key
        | none => c.lastKey }
      { i with progress := done } true

/-- An item of MERGE ends: the rows of it that are still held are the operator's. -/
def OpCtx.ownRows (c : OpCtx) : OpCtx :=
  let own (l : List SortRow) : List SortRow := l.map fun r => { r with ord := 0 }
  { c with ports := c.ports.map fun e => (e.1, own e.2), outRows := own c.outRows }

/-- Once every input has ended, one last item emits the rows that are still held. -/
def State.mergeTail (s : State) (q : Query) (o : OpDesc) (op : BitVec 16) (c : OpCtx) : State :=
  if !s.inputsDrained q o || !(s.opItems q.tag op).isEmpty || (c.portRows = 0 && c.outRows.isEmpty) then s
  else
    let (_, out) := mergeDrain o.ins.length (fun _ => true) c.portRows c.ports []
    let rows := (c.outRows ++ out).map (·.vals)
    let types := (c.shapes.head?.map (·.2)).getD []
    let s := s.setOp q.tag op { c with ports := [], outRows := [] }
    (s.newItem q o op 0 0 rows.length (emitRows 0 types s.free rows)).tick

/-! ### LIMIT and UNION (R315, R316, R330) -/

/-- A frame of LIMIT: only the rows numbered SKIP to SKIP + COUNT - 1 stay selected. -/
def State.limitFrame (s : State) (q : Query) (im : Image) (o : OpDesc) (c : OpCtx) (i : Item) (f : Frame) : FrameEnd :=
  let lo := limitSkip im q.params o
  let hi := lo + limitCount im q.params o
  let keep := f.sel.zipIdx.map fun e =>
    let k := c.taken + selBefore f.sel e.2
    decide (lo ≤ k) && decide (k < hi)
  reselected s.free true f keep { c with taken := c.taken + (f.sel.filter id).length } i

/-- LIMIT has counted COUNT rows past SKIP. -/
def limitDone (im : Image) (params : Bytes) (o : OpDesc) (c : OpCtx) : Bool :=
  decide (limitSkip im params o + limitCount im params o ≤ c.taken)

/-- A frame of UNION: passed on unchanged, after the frames that were claimed before it; one shape over all ports, that of the frame
claimed first (R330). -/
def unionFrame (c : OpCtx) (i : Item) (bs : Bytes) (f : Frame) : FrameEnd :=
  if c.order.head? ≠ some i.id then .wait Needs.none
  else if !shapeOk c 0 f.types then .params
  else .emit (frameOut 0 bs (some (i.startRows + f.sel.length)) none) (c.setShape 0 f.types) i true

/-- Whether an unframed output of UNION takes words of an item (06 R189). -/
def State.unionHolds (s : State) (q : Query) (o : OpDesc) (i : Item) : Bool :=
  o.outs.all fun k => (s.streamOf q k).all fun st => st.framed || st.holder.all (· == i.id)

/-- Whether an item of UNION takes a frame from a port now: with ATOMIC 1 only once every lower port has ended; for an unframed output
only while no other item has claimed a frame or holds it, so that frames leave in the order in which they are claimed (R330). -/
def State.unionTakes (s : State) (q : Query) (o : OpDesc) (c : OpCtx) (i : Item) (port : Nat) : Bool :=
  (!o.atomic || (List.range port).all fun p => s.portDrained q o p) &&
  (c.order.all (· == i.id) || o.outs.all fun k => (s.streamOf q k).all (·.framed)) && s.unionHolds q o i

/-- An item of UNION claims a frame. -/
def State.unionClaim (s : State) (q : Query) (i : Item) : State :=
  match s.op? q.tag i.op with
  | some c => s.setOp q.tag i.op { c with order := c.order ++ [i.id] }
  | none => s

/-- The header word of an item's frame has left. -/
def State.unionLeft (s : State) (q : Query) (i : Item) : State :=
  match s.op? q.tag i.op with
  | some c => s.setOp q.tag i.op { c with order := c.order.filter (· ≠ i.id) }
  | none => s

/-! ### HURDLE (R331) -/

/-- Whether every item of a stream's producer has ended: a stream that waits behind a hurdle is not ended yet. -/
def State.producerEnded (s : State) (q : Query) (k : BitVec 16) : Bool :=
  (s.streamOf q k).any fun st => st.st == .ended

/-- The fused streams of a hurdle, and whether another hurdle still holds one. -/
def hurdleStreams (o : OpDesc) : List (BitVec 16) := o.ins.take o.outs.length

/-- HURDLE_RELEASE (R331): every input's producer has ended; from now on each fused stream behaves as any stream. A stream
behind several hurdles waits for all of them. -/
def execHurdleRelease (t : Tag) (op : BitVec 16) (s : State) : Host.Outcome State Fault Refusal :=
  match (s.query? t).bind fun q => (q.opOf op).map (q, ·), s.op? t op with
  | some (q, im, o), some c =>
    if o.code ≠ opHurdle || (q.st ≠ .running && q.st ≠ .paused) || c.merging ||
        !(o.ins.all fun k => s.producerEnded q k) then .next s
    else
      let s := s.setOp t op { c with merging := true }
      let held (k : BitVec 16) : Bool := im.ops.zipIdx.any fun e =>
        e.1.code == opHurdle && ((hurdleStreams e.1).any fun j => im.root j.toNat == im.root k.toNat) &&
        !((s.op? t (BitVec.ofNat 16 e.2)).any (·.merging))
      let s := forEach (hurdleStreams o) s fun s k =>
        match s.streamOf q k with
        | some st => if held k then s else s.setStream (q.stream k) { st with gated := false }
        | none => s
      .next (s.settleOps t)
  | _, _ => .next s

end Sys2Proof.Machine
end

