-- ==== Sys2Proof/Machine/Gather.lean ====
section
/-! DEFINITION. GATHER (10 R317-R322). -/

namespace Sys2Proof.Machine

/-- The rows of a frame from `a` to below `b` (R319, R322): selection, CONTIG and FSEQ kept, ROWID_BASE moved on. -/
def Frame.rowsFrom (f : Frame) (a b : Nat) : Frame :=
  let cut {α : Type} (l : List α) (a b : Nat) : List α := (l.drop a).take (b - a)
  { sel := cut f.sel a b
    contig := f.contig
    rowid := if f.contig then f.rowid + BitVec.ofNat 64 a else 0
    fseq := f.fseq
    runs := f.runs.map fun r =>
      if r.packed then { r with vals := cut r.vals (selBefore f.sel a) (selBefore f.sel b) }
      else { r with vals := cut r.vals a b } }

/-- A frame in parts that keep the limit of FRAME_BYTES (06 R192, R195), halved as often as that takes; each with its rows. -/
def Frame.parts (seed : Nat) : Nat → Frame → List Frame
  | 0, f => [f]
  | fuel + 1, f =>
    let n := f.sel.length
    if n ≤ 1 || (f.bytes seed).length ≤ 16777216 then [f]
    else (f.rowsFrom 0 (n / 2)).parts seed fuel ++ (f.rowsFrom (n / 2) n).parts seed fuel

/-- Frames put out one after another: each with the progress of its rows. -/
def framesOut (seed : Nat) : Nat → List Frame → List OutWord
  | _, [] => []
  | done, f :: fs =>
    frameOut 0 (f.bytes seed) (some (done + f.sel.length)) none ++ framesOut seed (done + f.sel.length) fs

/-- A gathered column: its type and a value for each row, or what its fetch comes to. -/
inductive Gathered where
  | value (v : Option Val)
  | invalid
  | lost
  | wait
  | corrupt (col : BitVec 12) (slot : BitVec 20)
deriving DecidableEq, Repr

/-- A value of a POOL column by row ID (R319, R320; 16 R494, R495). -/
def State.poolValue (s : State) (tb : Table) (col : BitVec 12) (rid : BitVec 64) : Gathered :=
  let slot := rowIdSlot rid
  let row := rowIdRow rid
  match s.slotRows tb slot with
  | none => .invalid
  | some n =>
    if n ≤ row then .invalid
    else
      let v := s.colView tb col slot n
      let page := (v.pageAt row).toList
      match s.readPages v (page ++ if v.isDict row then v.dpages else []) with
      | .good => .value (((v.vals row 1)[0]?).join)
      | .lost => .lost
      | .wait => .wait
      | .invalid => .corrupt col slot

/-- The columns of a POOL GATHER. -/
def gatherCols (im : Image) (params : Bytes) (o : OpDesc) (size : Nat) : List Bytes :=
  entries size (o.p 2 1) (im.ref (some params) (o.p 4 4) (size * o.p 2 1)).bytes

/-- The frame with gathered runs after its own: `vals` lists the values of each entry at every row, none where a row is
not selected (R319). -/
def Frame.withRuns (f : Frame) (packed : Bool) (cols : List (BitVec 8 × Vals)) : Frame :=
  { f with runs := f.runs ++ cols.map fun c => {
      ty := c.1, valid := true, packed := packed
      vals := if packed then (c.2.zip f.sel).filterMap fun e => if e.2 then some e.1 else none else c.2 } }

/-- A frame of a POOL GATHER. -/
def State.poolFrame (s : State) (q : Query) (im : Image) (o : OpDesc) (c : OpCtx) (i : Item) (f : Frame) (r : Run) : FrameEnd :=
  match AMap.find? q.snap (BitVec.ofNat 16 (o.p 8 2)) with
  | none => .params
  | some tb =>
    let cols := (gatherCols im q.params o 8).map fun e => BitVec.ofNat 12 (fld e 0 2)
    if cols.any fun k => decide (tb.cols.length ≤ k.toNat) then .params
    else
      let ids := f.sel.zipIdx.map fun e => if e.1 then r.at f.sel e.2 else none
      let got := cols.map fun col => ids.map fun v => match v with
        | none => Gathered.value none
        | some v => s.poolValue tb col (BitVec.ofNat 64 v.bits)
      let all := got.flatten
      if all.contains .invalid then .params
      else
        match all.findSome? fun (g : Gathered) => match g with
          | .corrupt col slot => some (col, slot)
          | _ => none with
        | some (col, slot) => .corrupt (BitVec.ofNat 16 (o.p 8 2)) col slot
        | none =>
          if all.contains .lost then .stop stDataLost
          else if all.contains .wait then .wait Needs.none
          else
            let runs := (cols.zip got).map fun (col, l) =>
              (((tb.cols[col.toNat]?).map (·.ty)).getD 0, l.map fun g => match g with
                | .value v => v
                | _ => none)
            .emit (framesOut s.free i.startRows ((f.withRuns r.packed runs).parts s.free 12)) c
              { i with origin := if i.startRows = 0 then firstId ids i.origin else i.origin } true
where
  /-- ORIGIN of the item: the row ID of its first row that has one (07 R217). -/
  firstId (ids : List (Option Val)) (old : BitVec 64) : BitVec 64 :=
    match ids.findSome? id with
    | some v => BitVec.ofNat 64 v.bits
    | none => old

/-! ### HOST (R318, R321, R322) -/

/-- What fetching the columns of one row comes to, with the reads that are left. -/
inductive HostEnd where
  | values (l : Vals)
  | fault (page : BitVec 64)
  | lost
  | short
deriving DecidableEq, Repr

/-- The columns of row `k`, entry by entry: the byte of the validity bitmap where there is one, then the value of a row that
is not null. -/
def hostRow (k : Nat) : List Bytes → List HostRead → HostEnd × List HostRead
  | [], rs => (.values [], rs)
  | e :: es, rs =>
    let ty := fld e 24 1
    let w := tyBytes ty
    let go (v : Option Val) (rs : List HostRead) : HostEnd × List HostRead :=
      match hostRow k es rs with
      | (.values l, rs) => (.values (v :: l), rs)
      | r => r
    let value (rs : List HostRead) : HostEnd × List HostRead :=
      match rs with
      | .data bs :: rs => if bs.length = w then go (some (mkVal ty (leNat bs))) rs else (.short, rs)
      | .fault p :: rs => (.fault p, rs)
      | .lost :: rs => (.lost, rs)
      | [] => (.short, [])
    if fld e 8 8 = 0 then value rs
    else
      match rs with
      | .data [b] :: rs => if bit b.toNat (k % 8) then value rs else go none rs
      | .data _ :: rs => (.short, rs)
      | .fault p :: rs => (.fault p, rs)
      | .lost :: rs => (.lost, rs)
      | [] => (.short, [])

/-- The reads that fetched the columns of row `k`: their addresses and lengths, in order; a null value is not read. -/
def hostReads (k : Nat) (es : List (Bytes × Option Val)) : List (BitVec 64 × Nat) :=
  (es.map fun (e, v) =>
    let w := tyBytes (fld e 24 1)
    (if fld e 8 8 = 0 then [] else [(BitVec.ofNat 64 (fld e 8 8 + k / 8), 1)]) ++
      (if v.isNone then [] else [(BitVec.ofNat 64 (fld e 0 8 + k * w), w)])).flatten

/-- The rows fetched in order: their values, and what stopped the fetching. -/
def hostRows (es : List Bytes) : List (Option Nat) → List HostRead → List Vals × Option HostEnd
  | [], _ => ([], none)
  | none :: ks, rs =>
    let r := hostRows es ks rs
    ((es.map fun _ => none) :: r.1, r.2)
  | some k :: ks, rs =>
    match hostRow k es rs with
    | (.values l, rs) =>
      let r := hostRows es ks rs
      (l :: r.1, r.2)
    | (e, _) => ([], some e)

/-- A frame of a HOST GATHER, from the element at PROGRESS: what was fetched before a fault leaves as a frame of its own, after which
the item parks for the page (R322). -/
def State.hostFrame (s : State) (q : Query) (im : Image) (o : OpDesc) (c : OpCtx) (i : Item) (f : Frame) (r : Run)
    (host : List HostRead) : FrameEnd :=
  let es := gatherCols im q.params o 32
  let done := i.progress - i.startRows
  let idx := (f.sel.zipIdx.map fun e => if e.1 then (r.at f.sel e.2).map Val.bits else none).drop done
  if idx.any fun k => k.any fun k => es.any fun e => decide (fld e 16 8 ≤ k) then .params
  else
    let host := host.map (s.readOf q.tag.inst)
    let (rows, stop) := hostRows es idx host
    let upTo := done + rows.length
    let g := f.rowsFrom done upTo
    let cols := es.zipIdx.map fun e => (BitVec.ofNat 8 (fld e.1 24 1), (rows.zip g.sel).map fun x =>
      if x.2 then (x.1[e.2]?).join else none)
    let out := framesOut s.free (i.startRows + done) ((g.withRuns r.packed cols).parts s.free 12)
    match stop with
    | none => .emit out c i true
    | some e =>
      match e with
      | .fault p => if rows.isEmpty then .fault p else .emit out c { i with pageDue := some p } false
      | .lost => .lost
      | _ => if rows.isEmpty then .wait Needs.none else .emit out c i false

/-- The reads of the rows that a HOST GATHER has fetched have gone through (15 R449, R452). -/
def State.gatherSeen (s : State) (q : Query) (im : Image) (o : OpDesc) (i : Item) (f : Frame) (host : List HostRead) : State :=
  match f.runs[o.p 1 1]? with
  | none => s
  | some r =>
    let es := gatherCols im q.params o 32
    let idx := (f.sel.zipIdx.map fun e => if e.1 then (r.at f.sel e.2).map Val.bits else none).drop (i.progress - i.startRows)
    let rows := (hostRows es idx (host.map (s.readOf q.tag.inst))).1
    forEach ((idx.zip rows).map fun (k, v) => (k.map fun k => hostReads k (es.zip v)).getD []).flatten s fun s e =>
      s.accessed q.tag.inst q.pasid e.1 e.2 false

/-- A frame of GATHER. -/
def State.gatherFrame (s : State) (q : Query) (im : Image) (o : OpDesc) (c : OpCtx) (i : Item) (f : Frame)
    (host : List HostRead) : FrameEnd :=
  match f.runs[o.p 1 1]? with
  | none => .params
  | some r =>
    if 64 < f.runs.length + o.p 2 1 then .params
    else if o.p 0 1 = 0 then if r.ty = 0x20 then s.poolFrame q im o c i f r else .params
    else if r.ty = 0x09 then s.hostFrame q im o c i f r host else .params

end Sys2Proof.Machine
end

