-- ==== Sys2Proof/Machine/Exchange.lean ====
section
/-! DEFINITION. EXCHANGE (10 R323-R329; 18 R537, R540): what its items send, credits, and the messages of other
participants. -/

namespace Sys2Proof.Machine

/-! ### Registration (R324) -/

def OpDesc.xchBroadcast (o : OpDesc) : Bool := o.p 9 1 == 1

/-- The participants in the order of NODES, and the exchange identifier. -/
def xchNodes (im : Image) (params : Bytes) (o : OpDesc) : List (BitVec 16) :=
  (entries 2 (o.p 16 2) (im.ref (some params) (o.p 12 4) (2 * o.p 16 2)).bytes).map fun b => BitVec.ofNat 16 (leNat b)
def xchId (im : Image) (params : Bytes) (o : OpDesc) : BitVec 32 :=
  BitVec.ofNat 32 (leNat (im.ref (some params) (o.p 20 4) 4).bytes)

/-- What registering an EXCHANGE comes to: the status that ends the query, or none. An engine in TOPOLOGY_CONFLICT has no
node ID. -/
def State.xchCheck (s : State) (im : Image) (params : Bytes) (o : OpDesc) : Option (BitVec 15) :=
  let nodes := xchNodes im params o
  if s.pair.xchs.any fun x => x.xid == xchId im params o then some stFieldInvalid
  else
    match s.disc.nodeId with
    | some n => if (nodes.filter (· == n.setWidth 16)).length = 1 then none else some stFieldInvalid
    | none =>
      if !s.disc.conflict then some stFieldInvalid
      else if nodes.length = 1 then none else some stTopologyConflict

/-- The XID is registered, and every other participant is granted 32 blocks (R327). -/
def State.xchRegister (s : State) (t : Tag) (im : Image) (params : Bytes) (o : OpDesc) (op : BitVec 16) : State :=
  let xid := xchId im params o
  let nodes := if s.disc.nodeId.isNone then [s.srcNode] else xchNodes im params o
  let x : Xch := {
    xid := xid, query := t, op := op, nodes := nodes, regs := [], ends := [], endSent := false, inbox := []
    credits := nodes.map fun n => (n, AMap.get s.pair.early (xid, n) 0) }
  let s := { s with pair := { s.pair with
    xchs := s.pair.xchs ++ [x], early := s.pair.early.filter fun e => e.1.1 != xid } }
  forEach nodes s fun s n =>
    if n = s.srcNode then s
    else (s.sendNode n 0x22 xid (zeros 16)).sendNode n 0x21 xid (leBytes 4 32 ++ zeros 12)

def State.xch? (s : State) (xid : BitVec 32) : Option Xch := s.pair.xchs.find? (·.xid == xid)
def State.setXch (s : State) (x : Xch) : State :=
  { s with pair := { s.pair with xchs := s.pair.xchs.map fun y => if y.xid = x.xid then x else y } }

/-! ### Sending (R325-R327) -/

/-- One piece of a frame as a fragment (18 R537). -/
def pieceBytes (off total : Nat) (bs : Bytes) : Bytes :=
  leBytes 4 off ++ leBytes 4 total ++ leBytes 2 bs.length ++ leBytes 2 (Bool.asNat (off + bs.length == total)) ++ zeros 4 ++
    padTo bs (roundUp bs.length 16)

/-- One round over the send queue: from each node's first frame one piece leaves, if the credit for it is held. -/
def State.xchRound (s : State) (x : Xch) : List (BitVec 16) → List XchFrame → State × Xch × List XchFrame
  | _, [] => (s, x, [])
  | seen, f :: fs =>
    let piece := (f.bytes.drop f.sent).take 32768
    let need := ceilDiv piece.length 1024
    let have_ := AMap.get x.credits f.node 0
    if seen.contains f.node || have_ < need then
      let r := s.xchRound x (f.node :: seen) fs
      (r.1, r.2.1, f :: r.2.2)
    else
      let s := s.sendNode f.node 0x20 x.xid (pieceBytes f.sent f.bytes.length piece)
      let x := { x with credits := AMap.insert x.credits f.node (have_ - need) }
      let r := s.xchRound x (f.node :: seen) fs
      if f.sent + piece.length = f.bytes.length then r
      else (r.1, r.2.1, { f with sent := f.sent + piece.length } :: r.2.2)

def State.xchRounds (s : State) (x : Xch) : Nat → List XchFrame → State × Xch × List XchFrame
  | 0, l => (s, x, l)
  | fuel + 1, l =>
    let r := s.xchRound x [] l
    if r.2.2 = l then r else r.1.xchRounds r.2.1 fuel r.2.2

/-- The pieces for which credit is held leave. -/
def State.xchPump (s : State) (xid : BitVec 32) : State :=
  match s.xch? xid with
  | none => s
  | some x =>
    match s.op? x.query x.op with
    | none => s
    | some c =>
      let fuel := (c.sendq.map fun f => f.bytes.length / 32768 + 1).sum
      let r := s.xchRounds x fuel c.sendq
      (r.1.setXch r.2.1).setOp r.2.1.query r.2.1.op { c with sendq := r.2.2 }

/-- The nodes a row goes to (R325). -/
def xchTargets (o : OpDesc) (nodes : List (BitVec 16)) (types : List (BitVec 8)) (row : Vals) : List (BitVec 16) :=
  if o.xchBroadcast then nodes
  else
    let h := sh64 (keyString (bit (o.p 10 1) 0) types (o.keyRuns (o.p 8 1)) row) 0
    (nodes[hashTarget h * nodes.length / 4096]?).toList

/-- A closed frame toward a node: the own output's words, or a frame of the send queue. -/
def State.xchClosed (s : State) (self node : BitVec 16) (types : List (BitVec 8)) (rows : List Vals) :
    List OutWord × List XchFrame :=
  let bs := (rowsFrame types rows ((s.srcNode.setWidth 32) &&& 0xFFF)).bytes s.free
  if node = self then (frameOut 0 bs none none, []) else ([], [{ node := node, sent := 0, bytes := bs }])

/-- The bytes that open frames take in staging. -/
def State.stagedBytes (s : State) (types : List (BitVec 8)) (rows : List Vals) : Nat := ((rowsFrame types rows 0).bytes s.free).length

/-- Where staging cannot grow, the largest open frame closes early (R326). -/
def State.xchStage (s : State) (self : BitVec 16) (types : List (BitVec 8))
    (acc : AMap (BitVec 16) (List Vals) × List OutWord × List XchFrame) :
    AMap (BitVec 16) (List Vals) × List OutWord × List XchFrame :=
  let size (e : BitVec 16 × List Vals) : Nat := if e.2.isEmpty then 0 else s.stagedBytes types e.2
  if !Config.stagingShort s.free ((acc.1.map size).sum) then acc
  else
    match acc.1.foldl (fun (m : Option (BitVec 16 × List Vals)) e => match m with
      | none => some e
      | some x => if size x < size e then some e else some x) none with
    | none => acc
    | some e =>
      let (out, q) := if e.2.isEmpty then ([], []) else s.xchClosed self e.1 types e.2
      (AMap.insert acc.1 e.1 [], acc.2.1 ++ out, acc.2.2 ++ q)

/-- One row joins a node's open frame, which closes first where it has no room, and at once with its 4,096th row (R326). -/
def State.xchRow (s : State) (self : BitVec 16) (types : List (BitVec 8)) (row : Vals)
    (acc : AMap (BitVec 16) (List Vals) × List OutWord × List XchFrame) (node : BitVec 16) :
    AMap (BitVec 16) (List Vals) × List OutWord × List XchFrame :=
  let rows := AMap.get acc.1 node []
  let fits : Bool := rows.isEmpty || rowFits types s.free rows row
  let (out, q) := if fits then ([], []) else s.xchClosed self node types rows
  let now := if fits then rows ++ [row] else [row]
  let (out1, q1) := if now.length = 4096 then s.xchClosed self node types now else ([], [])
  s.xchStage self types
    (AMap.insert acc.1 node (if now.length = 4096 then [] else now), acc.2.1 ++ out ++ out1, acc.2.2 ++ q ++ q1)

/-- Every open frame of an item closes. -/
def State.xchCloseAll (s : State) (self : BitVec 16) (types : List (BitVec 8)) (opens : AMap (BitVec 16) (List Vals)) :
    List OutWord × List XchFrame :=
  let l := (opens.filter fun e => !e.2.isEmpty).map fun e => s.xchClosed self e.1 types e.2
  (l.flatMap (·.1), l.flatMap (·.2))

/-- A frame of an EXCHANGE item: each selected row to its nodes. Frames of other runs than the last close what is open. -/
def State.xchFrame (s : State) (q : Query) (o : OpDesc) (op : BitVec 16) (c : OpCtx) (i : Item) (f : Frame) : FrameEnd :=
  match s.xchOf q.tag op with
  | none => .params
  | some x =>
    if (o.keyRuns (o.p 8 1)).any fun k => decide (f.runs.length ≤ k) then .params
    else
      let self := s.srcNode
      let (out0, q0) := if shapeOk c 0 f.types then ([], []) else s.xchCloseAll self (AMap.get c.shapes 0 []) i.opens
      let opens := if shapeOk c 0 f.types then i.opens else []
      let pairs := f.rows.flatMap fun (_, row) => (xchTargets o x.nodes f.types row).map (·, row)
      let (opens, out, sent) := pairs.foldl (fun acc e => s.xchRow self f.types e.2 acc e.1) (opens, out0, q0)
      .emit out { c.setShape 0 f.types with sendq := c.sendq ++ sent }
        { i with opens := opens, progress := i.startRows + f.sel.length } true

/-- The open frames of an item close: at a stop, or with the end of its range (R326). -/
def State.xchFlush (s : State) (n : Nat) : State :=
  match s.item? n with
  | none => s
  | some i =>
    match s.op? i.query i.op with
    | none => s
    | some c =>
      if i.opens.isEmpty then s
      else
        let (out, sent) := s.xchCloseAll s.srcNode (AMap.get c.shapes 0 []) i.opens
        ((s.setOp i.query i.op { c with sendq := c.sendq ++ sent }).modItem n fun i =>
          { i with opens := [], outq := i.outq ++ out }).tick

/-- The send queue of an EXCHANGE is full (R327). -/
def State.sendqFull (s : State) (c : OpCtx) : Bool :=
  !c.sendq.isEmpty && Config.sendqFull s.free ((c.sendq.map fun f => f.bytes.length - f.sent).sum)

/-! ### Receiving (R327, R328) -/

/-- The owner under which a sender's frames stand in the output stream. -/
def xchOwner (n : BitVec 16) : Nat := 2 ^ 40 + n.toNat

/-- Blocks that are given back when `a` of a frame's `total` bytes were committed before and `b` are now. -/
def blocksBack (total a b : Nat) : Nat := (if b = total then ceilDiv total 1024 else b / 1024) - a / 1024

/-- Received words of the first frame of a sender are committed while the output stream takes them. -/
def State.xchCommit (s : State) (r : StreamRef) (owner : Nat) : Nat → XchIn → State × XchIn
  | 0, x => (s, x)
  | fuel + 1, x =>
    if x.got.length < x.committed + 64 then (s, x)
    else
      let e := s.offerWord r owner (bytesWord (slice x.got x.committed 64))
      if e.2 = .landed then e.1.xchCommit r owner fuel { x with committed := x.committed + 64 } else (e.1, x)

/-- A sender's frames in their order: each is committed before the next, and credit goes back for what was. -/
def State.xchInbox (s : State) (xid : BitVec 32) (r : StreamRef) (n : BitVec 16) : List XchIn → State × List XchIn
  | [] => (s, [])
  | x :: xs =>
    let e := s.xchCommit r (xchOwner n) (x.total / 64) x
    let back := blocksBack x.total x.committed e.2.committed
    let s := if back = 0 || e.2.committed = x.committed then e.1 else e.1.sendNode n 0x21 xid (leBytes 4 back ++ zeros 12)
    if e.2.committed = e.2.total then s.xchInbox xid r n xs else (s, e.2 :: xs)

/-- The output stream of an EXCHANGE. -/
def State.xchStream (s : State) (x : Xch) : Option StreamRef :=
  (s.query? x.query).bind fun q => (q.opOf x.op).bind fun e => (e.2.outs[0]?).map q.stream

/-- What waits from other participants goes to the output stream as far as it takes it. -/
def State.xchDrain (s : State) (xid : BitVec 32) : State :=
  match s.xch? xid with
  | none => s
  | some x =>
    match s.xchStream x with
    | none => s
    | some r =>
      forEach x.inbox s fun s e =>
        let b := s.xchInbox xid r e.1 e.2
        match b.1.xch? xid with
        | some x => b.1.setXch { x with inbox := AMap.insert x.inbox e.1 b.2 }
        | none => b.1

/-- After anything that moved a query's words: its exchanges send, receive and end as far as they can, then its
operators. -/
def State.settle (s : State) (t : Tag) : State :=
  let xids := (s.pair.xchs.filter (·.query == t)).map (·.xid)
  (forEach xids s fun s x => (s.xchPump x).xchDrain x).settleOps t

/-- The exchange a message of a participant belongs to. -/
def State.xchFor (s : State) (m : RelayMsg) : Option Xch :=
  (s.xch? m.tag).bind fun x => if x.nodes.contains m.src && m.src ≠ s.srcNode then some x else none

/-- Whether a piece continues what has come of a participant's last frame, or begins a new one. -/
def pieceOk (l : List XchIn) (p : Bytes) : Bool :=
  let off := fld p 0 4
  let total := fld p 4 4
  let n := fld p 8 2
  let open_ := (l.getLast?).filter fun x => x.got.length < x.total
  decide (16 ≤ p.length) && decide (fld p 10 2 ≤ 1) && fld p 12 4 == 0 && decide (1 ≤ n) && decide (n ≤ 32768) &&
  p.length == 16 + roundUp n 16 && allZero (p.drop (16 + n)) && n % 16 == 0 && decide (off + n ≤ total) &&
  (bit (fld p 10 2) 0 == (off + n == total)) &&
  match open_ with
  | some x => off == x.got.length && total == x.total
  | none => off == 0 && decide (64 ≤ n) && headerOk (slice p 16 64) && hdrBytes (slice p 16 64) == total

/-- A message for an exchange whose query is no longer RUNNING or PAUSED is of no effect. -/
def State.xchLive (s : State) (x : Xch) : Bool := (s.query? x.query).any fun q => q.st == .running || q.st == .paused

/-- XCH_DATA (R327, R328): a piece of a frame is committed to the output stream of the receiver. -/
def execXchData (m : RelayMsg) (s : State) : Host.Outcome State Fault Refusal :=
  .next (s.receive m 0x20 fun s =>
    match s.xchFor m with
    | none => s
    | some x =>
      let l := AMap.get x.inbox m.src []
      if !s.xchLive x then s
      else if !pieceOk l m.payload then s.protocolError m.port
      else
        let bs := slice m.payload 16 (fld m.payload 8 2)
        let more := match (l.getLast?).filter fun x => x.got.length < x.total with
          | some y => l.dropLast ++ [{ y with got := y.got ++ bs }]
          | none => l ++ [{ total := fld m.payload 4 4, got := bs, committed := 0 }]
        (s.setXch { x with inbox := AMap.insert x.inbox m.src more }).settle x.query)

/-- XCH_CREDIT (R327): credit blocks granted or returned; those of an XID not registered here yet are kept for it. -/
def execXchCredit (m : RelayMsg) (s : State) : Host.Outcome State Fault Refusal :=
  .next (s.receiveLen m 0x21 16 (fun p => allZero (p.drop 4)) fun s =>
    let n := fld m.payload 0 4
    match s.xchFor m with
    | some x => (s.setXch { x with credits := AMap.insert x.credits m.src (AMap.get x.credits m.src 0 + n) }).settle x.query
    | none =>
      if (s.xch? m.tag).isSome then s
      else { s with pair := { s.pair with
        early := AMap.insert s.pair.early (m.tag, m.src) (AMap.get s.pair.early (m.tag, m.src) 0 + n) } })

/-- The payload of an XCH_CTRL. -/
def ctrlOk (code : Byte) (p : Bytes) : Bool := p.headD 0xFF == code && allZero (p.drop 1)

/-- XCH_CTRL REGISTER (R327): a participant has registered the XID. -/
def execXchRegister (m : RelayMsg) (s : State) : Host.Outcome State Fault Refusal :=
  .next (s.receiveLen m 0x22 16 (ctrlOk 0) fun s =>
    match s.xchFor m with
    | some x => s.setXch { x with regs := if x.regs.contains m.src then x.regs else m.src :: x.regs }
    | none => s)

/-- XCH_CTRL END (R328): a participant sends no more; with the last one the output stream ends. -/
def execXchEnd (m : RelayMsg) (s : State) : Host.Outcome State Fault Refusal :=
  .next (s.receiveLen m 0x22 16 (ctrlOk 1) fun s =>
    match s.xchFor m with
    | some x => (s.setXch { x with ends := if x.ends.contains m.src then x.ends else m.src :: x.ends }).settle x.query
    | none => s)

/-- XCH_CTRL STOP (R329): the query enters STOPPING with DATA_LOST; credit kept for an XID not registered here goes. -/
def execXchStop (m : RelayMsg) (s : State) : Host.Outcome State Fault Refusal :=
  .next (s.receiveLen m 0x22 16 (ctrlOk 2) fun s =>
    match s.xchFor m with
    | some x => s.stopQuery x.query stDataLost
    | none => { s with pair := { s.pair with early := s.pair.early.filter fun e => e.1 != (m.tag, m.src) } })

end Sys2Proof.Machine
end

