-- ==== Sys2Proof/Machine/Output.lean ====
section
/-! DEFINITION. MATERIALIZE (10 R332-R338), COMPRESS (12 R385-R392), the writing of output chains (05 R172, R173) and the
jobs of the compression engines (12 R375-R384). -/

namespace Sys2Proof.Machine

/-! ### Writing a chain (R173) -/

/-- What a write of the next bytes of a chain comes to: bytes written, or a wait, or a fault after so many bytes. -/
inductive ChainEnd where
  | wrote (n : Nat)
  | waits
  | fault (n : Nat) (page : BitVec 64)
deriving DecidableEq, Repr

def Query.chain? (q : Query) (n : Nat) : Option Chain := q.chains[n]?
def State.modChain (s : State) (t : Tag) (n : Nat) (f : Chain → Chain) : State :=
  s.modQuery t fun q => { q with chains := q.chains.modify n f }

/-- The next bytes of a chain's stream: as many as the buffer takes; at its end the LINK read falls due. -/
def State.chainWrite (s : State) (q : Query) (n : Nat) (bs : Bytes) (acc : HostAcc) : State × ChainEnd :=
  match q.chain? n with
  | none => (s, .waits)
  | some c =>
    if c.atEnd || c.linkWait || c.linkDue || q.st ≠ .running && q.st ≠ .paused then (s, .waits)
    else if c.len ≤ c.filled then (s.modChain q.tag n fun c => { c with linkDue := true }, .waits)
    else
      let addr := c.buf + BitVec.ofNat 64 c.filled
      let now := bs.take (c.len - c.filled)
      match s.accOf q.tag.inst acc with
      | .ok =>
        ((s.dataWrite q.tag.inst q.pasid addr now).modChain q.tag n
          fun c => { c with filled := c.filled + now.length }, .wrote now.length)
      | .fault p =>
        let below := now.take (p.toNat - addr.toNat)
        let s := if below.isEmpty then s else s.sendData q.tag.inst q.pasid addr below
        (s.modChain q.tag n fun c => { c with filled := c.filled + below.length }, .fault below.length p)

/-- The item of a runner, with its query and its operator. -/
def State.service (s : State) (r : Runner) : Option (Item × Query × Image × OpDesc × OpCtx) :=
  match (s.runner r).running.bind s.item? with
  | none => none
  | some i =>
    match s.query? i.query with
    | none => none
    | some q =>
      match q.opOf i.op, s.op? i.query i.op with
      | some (im, o), some c => if i.st == .running then some (i, q, im, o, c) else none
      | _, _ => none

/-- A write of an item's staged bytes goes on; when they are all written the unit is complete: its chain counts it and the
item's progress is `done`. OPSTATE of MATERIALIZE holds the bytes of the block that are written (15 R457), and the progress of
COMPRESS those of its unit (12 R392). A fault parks the
item; nothing is written behind a CSW that waits (15 R456). -/
def State.writeStaged (s : State) (r : Runner) (i : Item) (q : Query) (o : OpDesc) (unit done : Nat) (acc : HostAcc) :
    State :=
  let n := o.chain.toNat
  if s.waitsFor (.csw q.tag) then s else
  let w := s.chainWrite q n i.block acc
  match w.2 with
  | .waits => w.1
  | .fault k p =>
    let rest := i.block.drop k
    let s := w.1.modItem i.id fun i => { i with
      block := rest
      opstate := if o.code = opMaterialize then BitVec.ofNat 32 (i.unitLen - rest.length) else i.opstate
      progress := if o.code = opMaterialize then i.progress else i.unitLen - rest.length }
    let s := s.parkItem i.id (.page p true) 2
    let _ := r
    (s.hostFault q.tag.inst q.pasid p true (.item i.id)).deadlineCheck q.tag
  | .wrote k =>
    let rest := i.block.drop k
    if rest.isEmpty then
      (w.1.modItem i.id fun i => { i with block := [], unitLen := 0, progress := done, opstate := 0 }).modChain q.tag n
        fun c => { c with bytes := c.bytes + unit }
    else w.1.modItem i.id fun i => { i with
      block := rest
      opstate := if o.code = opMaterialize then BitVec.ofNat 32 (i.unitLen - rest.length) else i.opstate
      progress := if o.code = opMaterialize then i.progress else i.unitLen - rest.length }

/-! ### MATERIALIZE -/

/-- The scales of the columns (R332). -/
def matScales (im : Image) (params : Bytes) (o : OpDesc) : List Nat :=
  (im.ref (some params) (o.p 0 4) 64).bytes.map (·.toNat)

def scalesOk (types : List (BitVec 8)) (scales : List Nat) : Bool :=
  types.zipIdx.all fun e =>
    let k := scales.getD e.2 0
    if e.1 = 0x0C then decide (k ≤ 18) else if e.1 = 0x0D then decide (k ≤ 38) else k == 0

/-- Whether an item of an operator is in the middle of a unit. -/
def State.midUnit (s : State) (t : Tag) (op : BitVec 16) : Bool := (s.opItems t op).any fun i => !i.block.isEmpty

/-- The frame in hand of an item is finished. -/
def State.doneFrame (s : State) (q : Query) (o : OpDesc) (i : Item) (port : BitVec 3) (rows : Nat) : State :=
  let s := match o.ins[port.toNat]? with
    | some k => match s.streamOf q k with
      | some st => s.setStream (q.stream k) (st.finishFrame i.id)
      | none => s
    | none => s
  s.modItem i.id fun i => { i with
    inFrame := AMap.erase i.inFrame port, claims := AMap.erase i.claims port, startRows := i.startRows + rows }

/-- RESULT_BLOCK_WRITE (R332-R337): the frame in hand becomes a result block, entering its chain's byte stream where no
other block is under way, and is written as buffers allow; its rows are committed when it is whole. -/
def execResultBlockWrite (r : Runner) (acc : HostAcc) (s : State) : Host.Outcome State Fault Refusal :=
  match s.service r with
  | none => .next s
  | some (i, q, im, o, _) =>
    if o.code ≠ opMaterialize then .next s
    else
      match (s.heldFrame q i 0).bind readFrame with
      | none => .next s
      | some f =>
        let done := i.startRows + f.sel.length
        let finish (s : State) : State :=
          match s.item? i.id with
          | some j => if j.st == .running && j.block.isEmpty && j.progress == done then
              (s.doneFrame q o j 0 f.sel.length).settle q.tag else s
          | none => s
        if !i.block.isEmpty then
          .next (finish (s.writeStaged r i q o i.unitLen done acc))
        else if !scalesOk f.types (matScales im q.params o) then .next (s.badParams q.tag i.op)
        else if !f.sel.contains true then .next (finish (s.modItem i.id fun i => { i with progress := done }))
        else if s.midUnit q.tag i.op then .next s
        else
          match q.chain? o.chain.toNat with
          | none => .next s
          | some c =>
            let b := resultBlock f.types (matScales im q.params o) (f.rows.map (·.2)) c.bseq i.op
            let s := s.modChain q.tag o.chain.toNat fun c => { c with bseq := c.bseq + 1 }
            let s := s.modItem i.id fun i => { i with block := b, unitLen := b.length }
            match s.query? q.tag with
            | some q => .next (finish (s.writeStaged r { i with block := b, unitLen := b.length } q o b.length done acc))
            | none => .next s

/-! ### COMPRESS -/

def OpDesc.unitBytes (o : OpDesc) : Nat := 1024 * o.p 2 2
def OpDesc.compLevel (o : OpDesc) : Nat := if o.p 1 1 = 0 then 3 else o.p 1 1

/-- A unit's largest possible length, the COUNT of its item (R392). -/
def OpDesc.unitMost (o : OpDesc) : Nat := if o.outs.isEmpty then roundUp (32 + o.unitBytes) 64 else 32 + o.unitBytes

/-- A frame of COMPRESS: its result block joins the content (R338, R387). -/
def compressFrame (o : OpDesc) (op : BitVec 16) (c : OpCtx) (i : Item) (f : Frame) : FrameEnd :=
  let _ := o
  if !f.sel.contains true then .emit [] c i true
  else .emit [] { c with
    content := c.content ++ resultBlock f.types [] (f.rows.map (·.2)) c.cbseq op, cbseq := c.cbseq + 1 } i true

/-- Whether the content for the next unit is there: a whole unit's, or the last (R387). -/
def State.unitReady (s : State) (q : Query) (o : OpDesc) (c : OpCtx) : Bool :=
  decide (o.unitBytes ≤ c.content.length) || (!c.content.isEmpty && s.inputsDrained q o)

/-- A unit of content: header and payload (R388, R389). -/
def unitOf (im : Image) (params : Bytes) (o : OpDesc) (useq : BitVec 32) (content : Bytes) : Bytes :=
  let dict := if o.p 8 4 = 0 then none else some (im.ref (some params) (o.p 8 4) (o.p 12 4)).bytes
  let fmt := BitVec.ofNat 8 (o.p 0 1)
  let enc := { format := o.p 0 1, level := o.compLevel, cksum := bit (o.p 4 1) 0, unitKib := o.p 2 2, dict := dict, dictId := o.p 16 4,
               input := content : EncodeReq }.bytes
  let stored := decide (content.length ≤ enc.length)
  let payload := if stored then content else enc
  leBytes 4 0x55435843 ++ [1, if stored then 0 else fmt] ++ zeros 2 ++ leBytes 4 content.length ++
    leBytes 4 payload.length ++ leBytes 4 useq.toNat ++ leBytes 4 (crc32c content).toNat ++ leBytes 4 (o.p 16 4) ++ zeros 4 ++
    payload

/-- UNIT_WRITE (R387-R392, R380): the item's unit is built once its content is there, and written to its chain as buffers
allow, or pushed to its stream as one frame of one row. -/
def execUnitWrite (r : Runner) (acc : HostAcc) (s : State) : Host.Outcome State Fault Refusal :=
  match s.service r with
  | none => .next s
  | some (i, q, im, o, c) =>
    if o.code ≠ opCompress then .next s
    else if !i.block.isEmpty then .next ((s.writeStaged r i q o i.unitLen i.unitLen acc).settle q.tag)
    else if !i.outq.isEmpty || i.progress ≠ 0 || !s.unitReady q o c ||
        (7 ≤ o.compLevel && !s.leaveHeld (.encode (r.num.setWidth 3) (some q.tag))) then .next s
    else
      let u := unitOf im q.params o c.useq (c.content.take o.unitBytes)
      let s := s.setOp q.tag i.op { c with content := c.content.drop o.unitBytes, useq := c.useq + 1 }
      if o.outs.isEmpty then
        let b := padTo u (roundUp u.length 64)
        let s := s.modItem i.id fun i => { i with block := b, unitLen := b.length }
        .next ((s.writeStaged r { i with block := b, unitLen := b.length } q o b.length b.length acc).settle q.tag)
      else
        .next ((s.modItem i.id fun i => { i with
          outq := frameOut 0 ((rowsFrame [0x11] [[some (.str u)]] c.useq).bytes s.free) (some u.length) none }).tick)

/-! ### Jobs (R375-R384) -/

/-- The client job that an engine serves next (R382): of those that wait there, the highest PRIO, the earliest within one. -/
def State.nextJob (s : State) (engine : BitVec 3) : Option JobWait :=
  (s.disp.jobq.filter fun w => w.engine == engine).foldl (fun m w =>
    match m with
    | none => some w
    | some x => if w.prio.ult x.prio then some w else m) none

/-- A client job has ended: it no longer waits, and a scan item has its page. -/
def State.jobServed (s : State) (w : JobWait) : State :=
  let s := { s with disp := { s.disp with jobq := s.disp.jobq.erase w } }
  match w.owner with
  | .page n k off => s.modItem n fun i => { i with pagesIn := (k, off) :: i.pagesIn }
  | .cmd _ => s

/-- A decode job's result, with the report of one that ended undecodable or at OUTPUT_LIMIT. -/
def State.decodeEnds (s : State) (engine : BitVec 3) (job : CompJob) : State :=
  let d := jobDecoded job
  let s := { s with jobs := AMap.insert s.jobs engine {
    job := job, limit := d.ending == .limit, broken := d.ending == .undecodable, output := d.output } }
  if d.ending = .complete then s else s.jobError job d

/-- DECODE_JOB (R375-R377, R382, R384): the job ends complete, short, undecodable or at OUTPUT_LIMIT; the last two are reported
with the job's descriptor. Where client jobs wait at the engine, it is the one that is served next. -/
def execDecodeJob (engine : BitVec 3) (job : CompJob) (s : State) : Host.Outcome State Fault Refusal :=
  match s.nextJob engine with
  | some w => if w.decode then .next ((s.decodeEnds engine w.job).jobServed w) else .next s
  | none =>
    if job.maxOut = 0 || (job.format ≠ 1 && job.format ≠ 2) then .next s
    else .next (s.decodeEnds engine job)

/-- What an encode job is given (R379). -/
def jobRequest (j : CompJob) : EncodeReq where
  format := j.format.toNat
  level := j.level.toNat
  cksum := j.cksum
  unitKib := j.unitKib.toNat
  dict := j.dict
  dictId := j.dictId.toNat
  input := j.input

/-- Whether a job that encodes may run: at level 7 or above only with its leave (R380). -/
def State.mayEncode (s : State) (engine : BitVec 3) (j : CompJob) : Bool :=
  j.level.ult 7 || s.leaveHeld (.encode engine none)

/-- An encode job's result. -/
def State.encodeEnds (s : State) (engine : BitVec 3) (job : CompJob) : State :=
  { s with jobs := AMap.insert s.jobs engine { job := job, limit := false, broken := false, output := (jobRequest job).bytes } }

/-- ENCODE_JOB (R378-R380, R382): the job ends with its output; at level 7 or above it runs only with its leave. Where client jobs
wait at the engine, it is the one that is served next. -/
def execEncodeJob (engine : BitVec 3) (job : CompJob) (s : State) : Host.Outcome State Fault Refusal :=
  match s.nextJob engine with
  | some w => if !w.decode && s.mayEncode engine w.job then .next ((s.encodeEnds engine w.job).jobServed w) else .next s
  | none =>
    let most : BitVec 8 := if job.format = 1 then 9 else 12
    if (job.format ≠ 1 && job.format ≠ 2) || job.level = 0 || most.ult job.level || !s.mayEncode engine job then .next s
    else .next (s.encodeEnds engine job)

end Sys2Proof.Machine
end

