-- ==== Sys2Proof/Machine/Queries.lean ====
section
/-! DEFINITION. The life of a query (05 R161-R181): submission, validation, contexts, the start and the end, and its output
chains. -/

namespace Sys2Proof.Machine

/-! ### The body of QUERY_SUBMIT (R161, R162) -/

def Cmd.imageLen (c : Cmd) : Nat := c.f 16 4
def Cmd.paramAddr (c : Cmd) : BitVec 64 := BitVec.ofNat 64 (c.f 32 8)
def Cmd.rchain (c : Cmd) : BitVec 64 := BitVec.ofNat 64 (c.f 40 8)
def Cmd.xchain (c : Cmd) : BitVec 64 := BitVec.ofNat 64 (c.f 48 8)
def Cmd.cswAddr (c : Cmd) : BitVec 64 := BitVec.ofNat 64 (c.f 56 8)

/-- The faults of the body that need nothing but the body and the handle (R162). -/
def bodyErr (c : Cmd) (handle : Option Bytes) : Option ImgErr :=
  firstErr [
    (!c.byHandle && !imgLenOk c.imageLen, (rHeader, 0xFFFF)),
    (c.rchain = 0 || c.rchain.toNat % 32 ≠ 0, (rChain, 0)),
    (c.xchain.toNat % 8 ≠ 0, (rSubmit, 0xFFFF)),
    (bits (c.f 20 4) 30 20 ≠ 0 || bits (c.f 24 4) 31 5 ≠ 0 || c.paramAddr.toNat % 8 ≠ 0 ||
      (c.byHandle && (c.imageLen ≠ 0 || c.imageField.toNat / 2 ^ 32 ≠ 0)), (rSubmit, 0xFFFF)),
    (c.byHandle && handle.isNone, (rHandle, 0xFFFF))]

/-- A query fails its validation (R155, R156). -/
def State.failQuery (s : State) (t : Tag) (e : ImgErr) : State :=
  s.stopQueryAt t (reasonStatus e.1) (BitVec.ofNat 16 e.1) (BitVec.ofNat 16 e.2)

def mkQuery (t : Tag) (c : Cmd) (raw : Option Bytes) : Query where
  tag := t
  no := c.no
  st := .validating
  status := 0
  raw := raw
  image := none
  params := []
  prio := BitVec.ofNat 4 (c.f 24 1)
  deadline := BitVec.ofNat 32 (c.f 28 4)
  fetched := c.time
  cswAddr := c.cswAddr
  pasid := c.pasid
  chains := []
  pauses := 0
  index := 0xFFFF
  reason := 0
  qid := none
  snap := []
  totals := List.replicate 7 0
  overflows := []
  finished := 0
  staged := 0
  pods := []
  ctags := []
  noCsw := false
  cswHeld := []
  closes := []

/-- QUERY_SUBMIT (R161, R162, R168): the query is VALIDATING, its CSW is written, a handle is resolved; that of a lost image ends it with
DATA_LOST (16 R494). A PV that the function may not set
is reported in RESULT alone, since the CSW lies in that address space (15 R447). -/
def execQuerySubmit (t : Tag) (csw : HostAcc) (s : State) : Host.Outcome State Fault Refusal :=
  s.opcode t 0x52 fun c s =>
    if (s.query? t).isSome then s
    else if c.cswAddr = 0 || c.cswAddr.toNat % 32 ≠ 0 then s.finish t stFieldInvalid 0
    else if s.pvBad c 20 then s.finish t stFieldInvalid (reasonResult (rSubmit, 0xFFFF))
    else
      let handle := AMap.find? (s.inst t.inst).images (c.imageField.setWidth 32)
      let s := ({ s with queries := s.queries ++ [mkQuery t c (if c.byHandle then handle else none)] } : State).writeCsw t csw
      match bodyErr c handle with
      | some e => s.failQuery t e
      | none => if s.namesLost c then s.stopQuery t stDataLost else s

/-! ### Validation (R155, R162-R164; 15 R462) -/

/-- Bytes of the staging reserve in use. -/
def State.stagingUse (s : State) : Nat := (s.queries.map (·.staged)).sum

/-- A query in VALIDATING that waits for no page request. -/
def State.validating? (s : State) (t : Tag) : Option (Query × Cmd) :=
  match s.query? t, s.cmd? t with
  | some q, some c => if q.st == .validating && q.pods.isEmpty && q.qid.isNone && !s.waitsFor (.query t) then some (q, c) else none
  | _, _ => none

/-- A read that a query in VALIDATING makes (15 R456): a fault makes it wait. -/
def State.queryRead (s : State) (q : Query) (addr : BitVec 64) (len : Nat) (r : HostRead) (k : Bytes → State → State) : State :=
  match s.readOf q.tag.inst r with
  | .data bs => if bs.length = len then k bs (s.accessed q.tag.inst q.pasid addr len false) else s
  | .fault p => s.hostFault q.tag.inst q.pasid p false (.query q.tag)
  | .lost => s.unresolved (.query q.tag)

/-- STAGING_COPY (15 R462): an inline image is copied once the reserve has room for it, in fetch order; the room is
its own from then on, while a read of it faults as well. -/
def execStagingCopy (t : Tag) (image : HostRead) (s : State) : Host.Outcome State Fault Refusal :=
  match s.validating? t with
  | none => .next s
  | some (q, c) =>
    let earlier : Bool := s.queries.any fun p =>
      p.st == .validating && p.raw.isNone && p.staged == 0 && decide (p.no < q.no) && (s.cmd? p.tag).any fun d => !d.byHandle
    if c.byHandle || q.raw.isSome || (q.staged = 0 && (earlier || 2 ^ 28 < s.stagingUse + c.imageLen)) then .next s
    else
      let s := s.modQuery t fun q => { q with staged := c.imageLen }
      .next (s.queryRead q c.imageField c.imageLen image fun bs s => s.modQuery t fun q => { q with raw := some bs })

/-- A chain's descriptor as read, none where it breaks R172. -/
def readDesc (addr : BitVec 64) (bs : Bytes) : Option Chain :=
  let link := fld bs 8 8
  let end_ := bit link 0
  let next := link / 32 * 32
  let len := fld bs 16 4
  if fld bs 0 8 % 64 ≠ 0 || bits link 4 1 ≠ 0 || (!end_ && next = 0) || len % 64 ≠ 0 || len < 4096 || 0xFFFFFFC0 < len ||
      fld bs 20 4 ≠ 0 || fld bs 24 8 ≠ 0 || bs.length ≠ 32 then none
  else some {
    desc := addr, buf := BitVec.ofNat 64 (fld bs 0 8), len := len, filled := 0
    atEnd := false, linkWait := false, linkDue := false, bytes := 0, bseq := 0 }

/-- The first descriptors of the chains, in order, each read in turn. -/
def State.readHeads (s : State) (q : Query) (n : Nat) : List (BitVec 64) → List HostRead → List Chain →
    (List Chain → State → State) → State
  | [], _, acc, k => k acc s
  | _ :: _, [], _, _ => s
  | a :: as, r :: rs, acc, k =>
    s.queryRead q a 32 r fun bs s =>
      match readDesc a bs with
      | some c => s.readHeads q (n + 1) as rs (acc ++ [c]) k
      | none => s.failQuery q.tag (rChain, n)

/-! ### Contexts (R164; 07 R221, R240; 11 R364) -/

/-- Flow numbers in use, and those of an instance. -/
def State.flowsUsed (s : State) : Nat := s.disp.flows.length
def State.flowsOf (s : State) (i : BitVec 8) : Nat := (s.disp.flows.filter fun e => e.1.1.inst == i).length

/-- Whether this engine is the head of a cascade. -/
def State.casHead (s : State) : Bool := s.asa.casEn && s.asa.casPos == 0

/-- Pods that are free, and CTAGs that are. -/
def State.freePods (s : State) : List (BitVec 4) :=
  ((List.range 16).map (BitVec.ofNat 4)).filter fun p => (s.pod p).st == .free
def State.freeCtags (s : State) : List (BitVec 4) :=
  ((List.range 16).map (BitVec.ofNat 4)).filter fun c => !(AMap.has s.asa.ctags c)

/-- Whether the contexts of a query are free: queries, streams, flows, pods, and CTAGs on a head. -/
def State.contextsFree (s : State) (q : Query) (im : Image) : Bool :=
  let live := s.queries.filterMap fun p => if p.qid.isSome && p.st != .done then p.image else none
  decide (live.length < 4096) &&
  decide ((live.map (·.streams.length)).sum + im.streams.length ≤ 16384) &&
  decide ((live.map Image.flows).sum + im.flows ≤ 65536) &&
  decide (((s.queries.filterMap fun p =>
    if p.qid.isSome && p.st != .done && p.tag.inst == q.tag.inst then p.image else none).map Image.flows).sum + im.flows ≤
      (s.inst q.tag.inst).maxFlows.toNat) &&
  decide (im.asas.length ≤ s.freePods.length) &&
  (!s.casHead || decide (im.cascades.length ≤ s.freeCtags.length))

/-- Whether an operator's flow is atomic (07 R221, 10 R311, R313, R314). -/
def flowAtomic (o : OpDesc) (flow : Nat) : Bool :=
  o.atomic || o.code == opMerge || ((o.code == opSort || o.code == opTopk) && flow == 1)

/-- The flows of a query, each with the lowest flow number that is free (07 R221). -/
def State.addFlows (s : State) (t : Tag) (im : Image) : State :=
  let want := im.ops.zipIdx.flatMap fun (o, k) => (List.range o.flows).map fun f => (k, f, flowAtomic o f)
  forEach want s fun s (k, f, a) =>
    let used := s.disp.flows.map fun e => e.2.number.toNat
    match lowestFree used 65536 0 with
    | some n => { s with disp := { s.disp with
        flows := AMap.insert s.disp.flows (t, BitVec.ofNat 16 k, BitVec.ofNat 8 f) (Flow.fresh (BitVec.ofNat 16 n) a) } }
    | none => s

/-! ### The start (R168, R57; 06 R214; 10 R331) -/

/-- The hurdles on the way from a stream back to its producer, by operator. -/
def Image.hurdlesOf (im : Image) (k : Nat) : List Nat :=
  (im.ops.zipIdx.filter fun e => e.1.code == opHurdle &&
    (hurdleStreams e.1).any fun j => im.root j.toNat == k).map (·.2)

/-- The middle of a stream takes the largest SPILL_KIB of the streams fused into it. -/
def Image.spillOf (im : Image) (k : Nat) : Nat :=
  (im.streams.zipIdx.filter fun e => im.root e.2 == k).foldl (fun m e => max m e.1.spillKib.toNat) 0

/-- Whether only a HURDLE's gate reads a stream. -/
def Image.gateOnly (im : Image) (k : Nat) : Bool := (im.reader (im.ops.length + 1) k).isNone

/-- The slices of the Local Store, from one on, that have room for a further stream's head and tail: 2,048 in each (06 R202). -/
def State.sliceFor (s : State) (first : BitVec 3) : BitVec 3 :=
  (((List.range 8).map fun k => first + BitVec.ofNat 3 k).find? fun c =>
    decide ((s.streams.filter fun e => e.2.home == c).length < 2048)).getD first

/-- The streams of a query: one for each that is not fused into another, each in a slice with room that the engine chooses (06 R201,
R202). -/
def State.addStreams (s : State) (t : Tag) (im : Image) : State :=
  forEach im.streams.zipIdx s fun s (d, k) =>
    if im.root k ≠ k then s
    else (s.setStream ⟨t, BitVec.ofNat 16 k⟩
      (Stream.fresh d (im.spillOf k) (s.sliceFor ((Config.freeWord s.free).setWidth 3)) (!(im.hurdlesOf k).isEmpty) (im.gateOnly k))).tick

/-- The tables of an instance as they are now. -/
def State.tablesOf (s : State) (i : BitVec 8) : Snapshot :=
  s.store.tables.filterMap fun e => if e.1.1 = i then some (e.1.2, e.2) else none

/-- What the checks on entering RUNNING of an ASA image with CASCADE 1 come to (11 R363): status, reason and index. -/
def State.cascadeCheck (s : State) (q : Query) (im : Image) (k : Nat) (casId : BitVec 32) : Option (BitVec 15 × Nat × Nat) :=
  let names (o : OpDesc) : Bool :=
    (o.code == opAsaFilter && o.p 1 1 == k) ||
    (o.code == opFilter && (predList im q.params (o.p 0 4) (o.p 4 1)).any fun p => (p.op == 10 || p.op == 11) && p.asa == k) ||
    (o.code == opScan && (scanCols im q.params o).any fun c =>
      (predList im q.params c.preds c.npred).any fun p => (p.op == 10 || p.op == 11) && p.asa == k)
  if !s.asa.casEn then some (stFieldInvalid, rAsa, k)
  else if s.disc.conflict && 1 < s.asa.casDepth.toNat then some (stTopologyConflict, 0, 0xFFFF)
  else if s.asa.pods.any fun e => e.2.st == .serving && e.2.casId == some casId && e.2.owner != some (q.tag, BitVec.ofNat 8 k) then
    some (stFieldInvalid, rAsa, k)
  else if s.asa.casPos ≠ 0 then (im.ops.findIdx? names).map fun o => (stFieldInvalid, rParams, o)
  else none

/-- The checks of operators on entering RUNNING (08 R243, 10 R324). -/
def State.opStartCheck (s : State) (q : Query) (im : Image) (o : OpDesc) (k : Nat) : Option (BitVec 15 × Nat × Nat) :=
  if o.code = opScan && !scanChecks q im o then some (stFieldInvalid, rParams, k)
  else if o.code = opExchange then
    (s.xchCheck im q.params o).map fun st => if st = stFieldInvalid then (st, rParams, k) else (st, 0, 0xFFFF)
  else none

/-- The head asks the members for their pods (11 R364). -/
def State.casRegister (s : State) (q : Query) : State :=
  forEach q.ctags s fun s e =>
    match AMap.find? s.asa.ctags e.2 with
    | some g => s.sendLink Config.cascadeDown 0x29 g.casId ([0, e.2.setWidth 8, s.asa.casPos.setWidth 8] ++ zeros 13)
    | none => s

/-- Every operator starts; each check that fails ends the query. -/
def State.startOps (s : State) (t : Tag) (im : Image) : State :=
  forEach im.ops.zipIdx s fun s (o, k) =>
    match s.query? t with
    | none => s
    | some q =>
      if q.st ≠ .running then s
      else
        match s.opStartCheck q im o k with
        | some (st, r, i) => s.stopQueryAt t st (BitVec.ofNat 16 r) (BitVec.ofNat 16 i)
        | none => if o.code = opExchange then s.xchRegister t im q.params o (BitVec.ofNat 16 k) else s

/-- A query enters RUNNING (R168; 07 R221): its streams, flows and operators, each with the home slice of a table (09 R278), the CSW, and
the checks that are made then. -/
def State.enterRunning (s : State) (t : Tag) (csw : HostAcc) : State :=
  match s.query? t with
  | none => s
  | some q =>
    match q.image with
    | none => s
    | some im =>
      let s := s.modQuery t fun q => { q with st := .running }
      let s := (s.addStreams t im).addFlows t im
      let s := forEach (List.range im.ops.length) s fun s k => (s.setOp t (BitVec.ofNat 16 k) { OpCtx.fresh with
        home := (Config.freeWord s.free).setWidth 3 }).tick
      let s := s.writeCsw t csw
      let s := forEach im.cascades s fun s (k, id) =>
        match s.query? t with
        | some q =>
          if q.st ≠ .running then s
          else
            match s.cascadeCheck q im k id with
            | some (st, r, i) => s.stopQueryAt t st (BitVec.ofNat 16 r) (BitVec.ofNat 16 i)
            | none => s
        | none => s
      let s := s.startOps t im
      if (s.query? t).any fun q => q.st == .running then (s.casRegister q).settle t else s

/-- A pod takes an ASA image (11 R346). -/
def loadingPod (t : Tag) (k : Nat) (a : AsaDesc) : Pod where
  st := .loading
  owner := some (t, BitVec.ofNat 8 k)
  width := a.width
  entries := a.entries
  slots := []
  casId := if a.cascade then some a.casId else none
  reload := []
  scanPos := 0

/-- A query is accepted (R164, R168; 02 R57): the snapshot, a QID, pods that begin to load, CTAGs on a head; without an ASA image
it runs at once. The QID is the lowest that is free (07 R217 gives no order; DESIGN CHOICE, log 269). -/
def State.admitQuery (s : State) (t : Tag) (csw : HostAcc) : State :=
  match s.query? t with
  | none => s
  | some q =>
    match q.image with
    | none => s
    | some im =>
      let used := s.queries.filterMap fun p => if p.st == .done then none else p.qid.map (·.toNat)
      let pods := (List.range im.asas.length).zip s.freePods
      let tags := if s.casHead then im.cascades.zip s.freeCtags else []
      let s := s.modQuery t fun q => { q with
        snap := s.tablesOf t.inst
        qid := (lowestFree used 4096 0).map (BitVec.ofNat 12)
        pods := pods.map fun e => (BitVec.ofNat 8 e.1, e.2), ctags := tags.map fun e => (BitVec.ofNat 8 e.1.1, e.2) }
      let s := forEach pods s fun s e =>
        match im.asas[e.1]? with
        | some a => s.setPod e.2 (loadingPod t e.1 a)
        | none => s
      let s := { s with asa := { s.asa with ctags := s.asa.ctags ++ tags.map fun e =>
        (e.2, { casId := e.1.2, query := some t, ready := [], closed := false }) } }
      if pods.isEmpty then s.enterRunning t csw else s

/-- The end of a validation (R162, R164, R168): the checks that need the parameter block and the chains, then the maxima,
then the contexts. -/
def State.validated (s : State) (t : Tag) (im : Image) (csw : HostAcc) : State :=
  match s.query? t with
  | none => s
  | some q =>
    match (paramsErr im (some q.params)).orElse fun _ =>
        if (s.inst t.inst).maxFlows.toNat < im.flows then some (rLimit, 0xFFFF) else none with
    | some e => s.failQuery t e
    | none =>
      if s.contextsFree q im && !(s.inst t.inst).unsynced then s.admitQuery t csw
      else (s.modQuery t fun q => { q with st := .waiting }).writeCsw t csw

/-- QUERY_VALIDATED (R155, R162-R164, R168): the image's checks, then the parameter block, the chain heads and their
descriptors are read; the query completes with a failure, waits in WAITING, or goes on to run. -/
def execQueryValidated (t : Tag) (params xchain : HostRead) (heads : List HostRead) (csw : HostAcc) (s : State) :
    Host.Outcome State Fault Refusal :=
  match s.validating? t with
  | none => .next s
  | some (q, c) =>
    match q.raw with
    | none => .next s
    | some bs =>
      let im := readImage bs
      match imageErr bs (if c.byHandle then bs.length else c.imageLen) none with
      | some e => .next (s.failQuery t e)
      | none =>
        if (c.paramAddr = 0) ≠ (im.paramSize = 0) || (c.xchain = 0) ≠ (im.nChains = 1) then .next (s.failQuery t (rSubmit, 0xFFFF))
        else
          let withParams (k : Bytes → State → State) (s : State) : State :=
            if im.paramSize = 0 then k [] s else s.queryRead q c.paramAddr im.paramSize params k
          let withXchain (k : Bytes → State → State) (s : State) : State :=
            if im.nChains = 1 then k [] s else s.queryRead q c.xchain (8 * (im.nChains - 1)) xchain k
          .next (withParams (fun ps s =>
            match paramsErr im (some ps) with
            | some e => s.failQuery t e
            | none => withXchain (fun xs s =>
                let addrs := c.rchain :: (entries 8 (im.nChains - 1) xs).map fun b => BitVec.ofNat 64 (leNat b)
                match addrs.findIdx? fun (a : BitVec 64) => a == 0 || a.toNat % 32 != 0 with
                | some k => s.failQuery t (rChain, k)
                | none => s.readHeads q 0 addrs heads [] fun chains s =>
                    State.validated (s.modQuery t fun q => { q with image := some im, params := ps, chains := chains }) t im csw)
              s) s)

/-- QUERY_ADMIT (R164): the first WAITING query by PRIO, then by fetch, takes contexts that have become free. -/
def execQueryAdmit (t : Tag) (csw : HostAcc) (s : State) : Host.Outcome State Fault Refusal :=
  match s.query? t with
  | none => .next s
  | some q =>
    let before (p : Query) : Bool := p.st == .waiting && p.qid.isNone && !(s.inst p.tag.inst).unsynced &&
      (p.prio.ult q.prio || (p.prio == q.prio && decide (p.no < q.no)))
    match q.image with
    | none => .next s
    | some im =>
      if q.st ≠ .waiting || q.qid.isSome || (s.inst t.inst).unsynced || s.queries.any before ||
          !s.contextsFree q im then .next s
      else .next (s.admitQuery t csw)

/-! ### The end (R168, R179) -/

/-- A query reaches DONE, the CSW's translation given. -/
def State.queryDoneAcc (s : State) (t : Tag) (status : BitVec 15) (csw : HostAcc) : State :=
  ((s.queryClose t status).writeCsw t csw).completeQuery t

/-- QUERY_FINISH (R168, R179; 11 R368): every output operator has ended; the finish is compared with the deadline. -/
def execQueryFinish (t : Tag) (csw : HostAcc) (s : State) : Host.Outcome State Fault Refusal :=
  match s.query? t with
  | none => .next s
  | some q =>
    if s.outputsOver q then .next (s.queryDoneAcc t (if s.deadlinePassed q then stDeadlineMissed else stOk) csw)
    else .next s

/-- QUERY_STOPPED (R168): every runner has released a STOPPING query's items. -/
def execQueryStopped (t : Tag) (csw : HostAcc) (s : State) : Host.Outcome State Fault Refusal :=
  match s.query? t with
  | none => .next s
  | some q => if q.st = .stopping && !s.anyRunning t then .next (s.queryDoneAcc t q.status csw) else .next s

/-! ### LINK reads (R173-R177) -/

/-- What a LINK read with the descriptor it leads to comes to. -/
inductive LinkEnd where
  | endsHere
  | enters (c : Chain)
  | bad
  | broken
  | fault (page : BitVec 64)
  | lost
  | short
deriving DecidableEq, Repr

/-- LINK of a chain's current descriptor read again, and where END is 0 the descriptor at NEXT read whole. -/
def State.readLink (s : State) (i : BitVec 8) (c : Chain) (lr : LinkRead) : LinkEnd :=
  match s.readOf i lr.link with
  | .fault p => .fault p
  | .lost => .lost
  | .data l =>
    if l.length ≠ 8 then .short
    else if bits (leNat l) 4 1 ≠ 0 then .bad
    else if bit (leNat l) 0 then .endsHere
    else
      let next := leNat l / 32 * 32
      if next = 0 then .bad
      else
        match s.readOf i lr.desc with
        | .fault p => .fault p
        | .lost => .lost
        | .data d =>
          if d.length ≠ 32 then .short
          else
            match readDesc (BitVec.ofNat 64 next) d with
            | some n => .enters { n with bytes := c.bytes, bseq := c.bseq }
            | none => .broken

/-- The reads of a LINK that gave data have gone through (15 R449, R452). -/
def State.linkSeen (s : State) (q : Query) (c : Chain) (lr : LinkRead) : State :=
  match s.readOf q.tag.inst lr.link with
  | .data l =>
    let s := s.accessed q.tag.inst q.pasid (c.desc + 8) 8 false
    match s.readOf q.tag.inst lr.desc with
    | .data _ =>
      if leNat l % 32 = 0 && leNat l / 32 ≠ 0 then s.accessed q.tag.inst q.pasid (BitVec.ofNat 64 (leNat l)) 32 false
      else s
    | _ => s
  | _ => s

/-- The item that is in the middle of a unit of a chain. -/
def State.chainWriter (s : State) (q : Query) (chain : BitVec 4) : Option Item :=
  s.disp.items.find? fun i => i.query == q.tag && !i.block.isEmpty &&
    ((q.opOf i.op).any fun e => e.2.chain == chain.setWidth 8)

/-- CHAIN_END, with the mask of chains at END (20 R584); it follows its CSW (05 R173), so a held CSW holds it too. -/
def State.chainEndEvent (s : State) (t : Tag) : State :=
  match s.query? t with
  | some q =>
    if s.waitsFor (.csw t) then
      s.modQuery t fun q => { q with
        cswHeld := q.cswHeld.modify (q.cswHeld.length - 1) fun h => (h.1, some (BitVec.ofNat 64 q.pausedMask)) }
    else s.cswEvent t (BitVec.ofNat 64 q.pausedMask)
  | none => s

/-- A chain is at END (R173): a RUNNING query pauses; the CSW, then the event. -/
def State.chainAtEnd (s : State) (t : Tag) (n : Nat) (csw : HostAcc) : State :=
  let s := s.modChain t n fun c => { c with atEnd := true, linkDue := false, linkWait := false }
  let s := s.modQuery t fun q => if q.st = .running then { q with st := .paused, pauses := q.pauses + 1 } else q
  (s.writeCsw t csw).chainEndEvent t

/-- The state after chains have left END (R175): RUNNING where none is left there. The CSW is written in either case. -/
def State.leftEnd (s : State) (t : Tag) (csw : HostAcc) : State :=
  match s.query? t with
  | some q =>
    if q.st = .paused then
      (s.modQuery t fun q => if !q.chains.any (·.atEnd) then { q with st := .running } else q).writeCsw t csw
    else s
  | none => s

/-- A descriptor met with END 0 breaks R172: its chain has left END, and the query stops with BAD_CHAIN (R177). -/
def State.brokenChain (s : State) (t : Tag) (n : Nat) : State :=
  s.stopQueryAt t stFieldInvalid (BitVec.ofNat 16 rChain) (BitVec.ofNat 16 n)

/-- LINK_READ (R173, R175, R177): the LINK read that is due on a chain. -/
def execLinkRead (t : Tag) (lr : LinkRead) (csw : HostAcc) (s : State) : Host.Outcome State Fault Refusal :=
  match s.query? t with
  | none => .next s
  | some q =>
    let n := lr.chain.toNat
    match q.chain? n with
    | none => .next s
    | some c =>
      if !c.linkDue || (q.st ≠ .running && q.st ≠ .paused) then .next s
      else
        let e := s.readLink t.inst c lr
        if e = .short then .next s else
        let s := s.linkSeen q c lr
        match e with
        | .short => .next s
        | .bad => .next (s.brokenChain t n)
        | .broken =>
          if c.atEnd then
            .next (((s.modChain t n fun c => { c with atEnd := false, linkDue := false, linkWait := false }).leftEnd t csw).brokenChain t n)
          else .next (s.brokenChain t n)
        | .lost => .next (s.stopQuery t stPageFault)
        | .endsHere =>
          if c.atEnd then .next (s.modChain t n fun c => { c with linkDue := false })
          else .next (s.chainAtEnd t n csw)
        | .enters d =>
          let s := s.modChain t n fun _ => d
          .next (if c.atEnd then s.leftEnd t csw else s)
        | .fault p =>
          if c.atEnd then
            .next ((s.modChain t n fun c => { c with linkDue := false, linkWait := true }).hostFault t.inst q.pasid p false
              (.chainLink t lr.chain))
          else
            match s.chainWriter q lr.chain with
            | some i =>
              if i.st = .running then
                .next (((s.parkItem i.id (.page p false) 2).hostFault t.inst q.pasid p false (.item i.id)).deadlineCheck t)
              else .next s
            | none => .next s

/-- One chain at END for CHAIN_RESUME (R175): whether it has left END, and the event by which its read stops the query. -/
def State.resumeChain (s : State) (t : Tag) (n : Nat) (lr : LinkRead) :
    State × Bool × Option (BitVec 15 × BitVec 16 × BitVec 16) :=
  let badChain := some (stFieldInvalid, BitVec.ofNat 16 rChain, BitVec.ofNat 16 n)
  let unread := some (stPageFault, (0 : BitVec 16), (0xFFFF : BitVec 16))
  match (s.query? t).bind fun q => (q.chain? n).map (q, ·) with
  | none => (s, false, none)
  | some (q, c) =>
    let e := s.readLink t.inst c lr
    let s := s.linkSeen q c lr
    match e with
    | .endsHere | .short => (s, false, none)
    | .bad => (s, false, badChain)
    | .broken => (s.modChain t n fun c => { c with atEnd := false, linkDue := false, linkWait := false }, true, badChain)
    | .lost => (s, false, unread)
    | .enters d => (s.modChain t n fun _ => d, true, none)
    | .fault p =>
      let k : PageKey := { inst := t.inst, pasid := q.pasid, page := pageOf p, write := false }
      if s.faultFails k then (s, false, unread)
      else ((s.modChain t n fun c => { c with linkWait := true }).hostFault t.inst q.pasid p false (.chainLink t lr.chain), false, none)

/-- CHAIN_RESUME (R175, R176): the chains in their order; of the events that stop the query the first in precedence does (R169). A body
with reserved bytes that are not zero is FIELD_INVALID (00 R8; DEDUCED, log 261). -/
def execChainResume (t : Tag) (links : List LinkRead) (csw : HostAcc) (s : State) : Host.Outcome State Fault Refusal :=
  s.opcode t 0x53 fun c s =>
    let target : Tag := { inst := t.inst, sqid := BitVec.ofNat 12 (c.f 16 2), cid := BitVec.ofNat 16 (c.f 18 2) }
    if !c.clean [(16, 4)] || 4096 ≤ c.f 16 2 || (s.sq t.inst target.sqid).isNone then s.finish t stFieldInvalid 0
    else
      match s.query? target with
      | none => s.finish t stOk (if (s.cmd? target).any (·.opcode == 0x52) then 1 else 0)
      | some q =>
        if q.st ≠ .paused then s.finish t stOk 1
        else
          let held := positions (fun (c : Chain) => c.atEnd) q.chains
          let due := held.filterMap fun n => (links.find? fun l => l.chain.toNat == n).map (n, ·)
          if due.length ≠ held.length then s
          else
            let r := due.foldl (fun (acc : State × List Nat × List (BitVec 15 × BitVec 16 × BitVec 16)) e =>
              let r := acc.1.resumeChain target e.1 e.2
              (r.1, if r.2.1 then acc.2.1 ++ [e.1] else acc.2.1, acc.2.2 ++ r.2.2.toList)) (s, [], [])
            let s := r.1
            let out := r.2.1
            let rest := held.filter fun n => !out.contains n
            let mask (l : List Nat) : Nat := (l.map fun n => 2 ^ n).sum
            let s := if out.isEmpty then s else s.leftEnd target csw
            let s := match firstStop r.2.2 with
              | some (st, reason, index) => s.stopQueryAt target st reason index
              | none => s
            s.finish t stOk (BitVec.ofNat 64 (2 + 2 ^ 16 * mask out + 2 ^ 32 * mask rest))

end Sys2Proof.Machine
end

