-- ==== Sys2Proof/Machine/Dispatcher.lean ====
section
/-! DEFINITION. The Dispatcher (07): generating, choosing, starting, stopping and ending work items, the start and the saving
of COMPUTE items on ECs (13 R415-R419, 14 R431), and deadlines. -/

namespace Sys2Proof

/-- LAST_STOP of a cause (07 R217). -/
def ParkCause.lastStop : ParkCause → BitVec 8
  | .pacer => 5
  | .page _ _ => 2
  | .spill => 3
  | .stream => 4
  | .memhold => 7
end Sys2Proof

namespace Sys2Proof.Machine

/-! ### Generating items (R219-R221; 13 R417) -/

/-- Frames on the inputs of an operator that no item has claimed. -/
def State.unclaimedIn (s : State) (q : Query) (o : OpDesc) : Nat :=
  (o.ins.map fun k => ((s.streamOf q k).map Stream.unclaimed).getD 0).sum

/-- Items of an operator that will claim a frame when they start. -/
def State.hungryItems (s : State) (q : Query) (op : BitVec 16) (flow : BitVec 8) : Nat :=
  ((s.flowItems q.tag op flow).filter fun i => (i.st == .ready || i.st == .slotted) && i.claims.isEmpty && i.startRows == 0).length

/-- Whether a flow of an operator is fed by its input frames. -/
def OpDesc.fedFlow (o : OpDesc) (flow : BitVec 8) : Bool :=
  if o.code = opScan || o.code = opHurdle || o.code = opCompute then false
  else if o.code = opAggHash || o.code = opAggScalar || o.code = opSketch then decide (flow.toNat < o.pflows)
  else flow == 0

/-- The frames that a COMPUTE item claims: whole frames until they hold ITEM_ELEMS rows or more; none while the stream may
still bring what is missing. They are the item's from its generation on, since its descriptor has their rows as COUNT (R217, R417). -/
def frameClaim (st : Stream) (elems : Nat) : Option (List FramePos × Nat) :=
  let rec go : List FramePos → Nat → List FramePos × Nat
    | [], n => ([], n)
    | f :: fs, n =>
      if elems ≤ n then ([], n)
      else
        let rows := ((AMap.find? st.words f.start).map fun e => hdrRows (wordBytes e.bits)).getD 0
        let r := go fs (n + rows)
        (f :: r.1, r.2)
  let r := go (st.frames.filter (·.claim.isNone)) 0
  if r.1.isEmpty || (decide (r.2 < elems) && st.st != .ended) then none else some r

/-- The next item of a COMPUTE (R417). -/
def State.computeItem (s : State) (q : Query) (im : Image) (o : OpDesc) (op : BitVec 16) : State :=
  let n := s.cursor q.tag op 0
  let e := o.itemElems
  if o.p 6 1 = 0xFF then
    let total := computeTotal im q.params o
    if n * e < total then s.newItem q o op 0 (BitVec.ofNat 64 (n * e)) (min e (total - n * e)) [] else s
  else
    match s.elemStream q o with
    | none => s
    | some (r, st) =>
      if st.gated then s
      else if st.framed then
        match frameClaim st e with
        | none => s
        | some (fs, rows) =>
          let id := s.disp.nextItem
          let origin := (fs.head?.map (·.origin)).getD 0
          let s := s.setStream r { st with
            frames := st.frames.map fun f => if fs.any (·.no == f.no) then { f with claim := some id } else f
            reads := AMap.insert st.reads id { PortIn.none with left := some (64 * (fs.map (·.words)).sum) } }
          s.newItem q o op 0 (BitVec.ofNat 64 origin) rows []
      else
        let p := AMap.get st.reads 0 PortIn.none
        if !(s.opItems q.tag op).isEmpty || (p.off = p.cur.length && st.words.isEmpty) then s
        else
          let s := s.setStream r { st with reads := AMap.insert st.reads 0 { p with left := some (e * st.elem) } }
          s.newItem q o op 0 (BitVec.ofNat 64 (n * e)) e []

/-- ITEM_GENERATE (R219, R220): a flow of an operator generates its next item, if it has one now. -/
def execItemGenerate (t : Tag) (op : BitVec 16) (flow : BitVec 8) (s : State) : Host.Outcome State Fault Refusal :=
  match (s.query? t).bind fun q => (q.opOf op).map (q, ·), s.op? t op with
  | some (q, im, o), some c =>
    if (q.st ≠ .running && q.st ≠ .paused) || c.ended || !s.itemRoom || !(AMap.has s.disp.flows (t, op, flow)) then .next s
    else if o.code = opScan then
      match (s.scanRanges q im o)[s.cursor t op 0]? with
      | some (slot, lo, n) => .next (s.newItem q o op flow (rowId slot lo) n [])
      | none => .next s
    else if o.code = opCompute then .next (s.computeItem q im o op)
    else if o.code = opMerge && s.inputsDrained q o then .next (s.mergeTail q o op c)
    else if o.code = opCompress then
      if !(s.opItems t op).isEmpty || (s.unclaimedIn q o = 0 && !s.unitReady q o c) then .next s
      else .next (s.newItem q o op flow (BitVec.ofNat 64 (s.cursor t op 0)) o.unitMost [])
    else if o.code = opLimit && limitDone im q.params o c then .next s
    else if o.fedFlow flow then
      if s.unclaimedIn q o ≤ s.hungryItems q op flow then .next s
      else .next (s.newItem q o op flow 0 itemRows [])
    else if o.code = opSort || o.code = opTopk then .next (s.mergeItem q o op c)
    else if o.code = opProbe then
      if c.probes.isEmpty || c.merging || !s.inputsDrained q o || !(s.flowItems t op 0).isEmpty then .next s
      else .next (s.pairItem q im o op c)
    else .next (s.aggMergeItem q o op flow)
  | _, _ => .next s

/-! ### Choosing (R222-R229) -/

def runnerCount : RunnerKind → Nat
  | .ec => 64
  | .scan | .pod => 16
  | .join | .agg | .gather | .comp => 8
  | .sort | .peer => 4

/-- Whether a runner exists and is in service (14 R437). -/
def State.inService (s : State) (r : Runner) : Bool := decide (r.num.toNat < runnerCount r.kind) && !(s.runner r).out

/-- Whether a runner can run an item: its query runs, its kind, its pod, its cluster in SPRINT, and the leave it needs (R219, R227,
R229; 19 R565-R568; 12 R380). -/
def State.usable (s : State) (r : Runner) (i : Item) : Bool :=
  match s.query? i.query with
  | none => false
  | some q =>
    match q.opOf i.op with
    | none => false
    | some (_, o) =>
      (q.st == .running || q.st == .paused) && s.inService r && opRunner o.code == some r.kind &&
      (o.code != opAsaFilter || AMap.find? q.pods (BitVec.ofNat 8 (o.p 1 1)) == some (r.num.setWidth 4)) &&
      ((clusterOf r).all fun c => s.clockRuns (if r.kind = .ec then .ec c else .unit c)) &&
      (r.kind != .sort || s.leaveHeld (.sortUnit (r.num.setWidth 2) i.query)) &&
      (o.code != opCompress || o.compLevel < 7 || s.leaveHeld (.encode (r.num.setWidth 3) (some i.query))) &&
      (o.code != opExchange || s.leaveHeld (.exchange i.query i.op))

/-- The READY items in the order in which they are considered: by level, then returned items, then generated ones (R223,
R225). -/
def State.readyOrder (s : State) : List Item :=
  let l := (s.disp.returned ++ s.disp.generated).filterMap s.item?
  (List.range 16).flatMap fun k => l.filter fun i => i.prio.toNat == k

/-- The item that a runner's slot takes next. -/
def State.nextFor (s : State) (r : Runner) : Option Item := s.readyOrder.find? fun i => s.eligible i && s.usable r i

/-- An item is written into a runner's slot. -/
def State.slotItem (s : State) (r : Runner) (i : Item) : State :=
  let s := if i.lastStop = 1 || i.lastStop = 6 then s.addTotal i.query 5 (s.time - i.since) else s
  let s := s.modItem i.id fun i => { i with st := .slotted, since := s.time }
  let s := { s with disp := { s.disp with
    returned := s.disp.returned.filter (· ≠ i.id)
    generated := s.disp.generated.filter (· ≠ i.id)
    grants := AMap.insert s.disp.grants (i.query.inst, i.prio) (s.grants i.query.inst i.prio + 1)
    clock := s.disp.clock + 1 } }
  (s.setRunner r { s.runner r with slot := some i.id, slottedAt := s.disp.clock }).refill

/-- SLOT_FILL (R223-R227): an empty slot takes the next item for its runner. -/
def execSlotFill (r : Runner) (item : Nat) (s : State) : Host.Outcome State Fault Refusal :=
  let s1 := s.refill
  if (s1.runner r).slot.isSome then .next s
  else
    match s1.nextFor r with
    | some i => if i.id = item then .next (s1.slotItem r i) else .next s
    | none => .next s

/-- A stopped item returns to READY, last of the returned items of its level (R225). -/
def State.returnItem (s : State) (n : Nat) (lastStop : BitVec 8) : State :=
  let s := s.modItem n fun i => { i with st := .ready, lastStop := lastStop, since := s.time }
  { s with disp := { s.disp with returned := s.disp.returned ++ [n] } }

/-- The item in a slot is recalled. -/
def State.recallSlot (s : State) (r : Runner) : State :=
  match (s.runner r).slot with
  | none => s
  | some n => (s.setRunner r { s.runner r with slot := none }).returnItem n 6

/-- The runners that are in service. -/
def State.runners (s : State) : List Runner :=
  ([.ec, .scan, .join, .agg, .gather, .comp, .sort, .pod, .peer] : List RunnerKind).flatMap fun k =>
    ((List.range (runnerCount k)).map fun n => (⟨k, BitVec.ofNat 6 n⟩ : Runner)).filter s.inService

/-- The slotted item of a runner. -/
def State.slotted? (s : State) (r : Runner) : Option Item := (s.runner r).slot.bind s.item?
/-- The running item of a runner. -/
def State.running? (s : State) (r : Runner) : Option Item := (s.runner r).running.bind s.item?

/-- RECALL (R228): no slot an item of a higher level can use is empty: the lowest-level occupant, of those the one slotted
last, is recalled. -/
def execRecall (r : Runner) (forItem : Nat) (s : State) : Host.Outcome State Fault Refusal :=
  match s.slotted? r, s.item? forItem with
  | some o, some i =>
    let mine := s.runners.filter fun x => s.usable x i
    let worse (x : Runner) : Bool :=
      match s.slotted? x with
      | some p => o.prio.ult p.prio || (p.prio == o.prio && decide ((s.runner r).slottedAt < (s.runner x).slottedAt))
      | none => true
    if s.eligible i && s.usable r i && i.prio.ult o.prio && !(mine.any worse) then .next (s.recallSlot r) else .next s
  | _, _ => .next s

/-! ### Asking for leave (R229; 19 R567-R569) -/

/-- The cluster that the Dispatcher asks for: one in WARMUP before one in REST, the lowest-numbered among equals, of those that a
test leaves (19 R567). -/
def State.sprintChoice (s : State) (leave : BitVec 3 → Bool) : Option (BitVec 3) :=
  let l := ((List.range 8).map (BitVec.ofNat 3)).filter fun c => s.cluster c != .sprint && !(s.power.waking.contains c) && leave c
  match l.find? fun c => s.cluster c == .warmup with
  | some c => some c
  | none => l.head?

/-- Whether a request waits for a holder. -/
def State.leaveAsked (s : State) (op : LeaveOp) : Bool := s.power.queue.any fun l => sameHolder l.op op

/-- Whether a cluster may be asked for, or already is on its way to SPRINT. -/
def State.sprintDue (s : State) (c : BitVec 3) : Bool :=
  s.power.waking.contains c || s.sprintChoice (fun _ => true) == some c ||
  s.sprintChoice (fun d => !s.leaveAsked (.sprint d)) == some c

/-- Whether a READY item waits for a leave: for its unit's, its job's or its operator's, or, being eligible, for a cluster since no
cluster in SPRINT has an empty slot of its runner kind (19 R567, R568). -/
def State.waitsLeave (s : State) (op : LeaveOp) (i : Item) : Bool :=
  i.st == .ready && ((s.query? i.query).bind fun q => q.opOf i.op).any fun (_, o) =>
    match op with
    | .sprint _ => s.eligible i && (opRunner o.code).any fun k =>
        (clusterOf ⟨k, 0⟩).isSome && !(s.runners.any fun r => r.kind == k && (clusterOf r).any (fun c => s.cluster c == .sprint) &&
          (s.runner r).slot.isNone)
    | .sortUnit _ t => i.query == t && opRunner o.code == some .sort
    | .encode _ t => t == some i.query && o.code == opCompress && decide (7 ≤ o.compLevel)
    | .exchange t k => i.query == t && i.op == k
    | .spread _ _ => false

/-- The PRIO that a request carries: its query's, the highest of the items that wait for a cluster, or 8 for a load-path job (19 R567,
R569; 05 R178). -/
def State.leavePrio (s : State) (op : LeaveOp) (mine : List Item) : BitVec 4 :=
  match leaveQuery op, op with
  | some t, _ => ((s.query? t).map (·.prio)).getD 0
  | none, .sprint _ => mine.foldl (fun p i => if i.prio.ult p then i.prio else p) 15
  | none, _ => 8

/-- The instance that a request is charged to: its query's, that of the item a cluster's request serves first, or the one the load-path
job names (19 R570). -/
def leaveInst (op : LeaveOp) (inst : BitVec 8) (mine : List Item) : BitVec 8 :=
  match leaveQuery op, op with
  | some t, _ => t.inst
  | none, .sprint _ => (mine.head?.map (·.query.inst)).getD inst
  | none, _ => inst

/-- Whether a request is made by the items that wait for it; a spread table's build asks while it runs, and a load-path job is no
item. -/
def leaveByItems : LeaveOp → Bool
  | .spread _ _ => false
  | .encode _ t => t.isSome
  | _ => true

/-- Items wait for a leave: PARKED with LAST_STOP PACER (R229). -/
def State.parkPacer (s : State) (mine : List Item) : State :=
  State.refill (forEach mine s fun s i =>
    let s := { s with disp := { s.disp with
      returned := s.disp.returned.filter (· ≠ i.id), generated := s.disp.generated.filter (· ≠ i.id) } }
    (s.parkItem i.id .pacer 5).deadlineCheck i.query)

/-- LEAVE_REQUEST (19 R567-R569; R229): an operation asks for leave, and the items that wait for it are PARKED with LAST_STOP PACER;
further items join a request that waits, and a cluster that is waking. The request carries the PRIO and the instance that the rules
give: with others none is made. -/
def execLeaveRequest (op : LeaveOp) (inst : BitVec 8) (prio : BitVec 4) (items : List Nat) (s : State) :
    Host.Outcome State Fault Refusal :=
  let mine := (items.filterMap s.item?).filter (s.waitsLeave op)
  let ids := mine.map (·.id)
  let dead : Bool := match leaveQuery op with
    | some t => !((s.query? t).any fun q => q.st == .running || q.st == .paused)
    | none => false
  let due : Bool := match op with
    | .sprint c => s.sprintDue c
    | _ => !s.leaveHeld op
  if !s.ready || dead || !due || (leaveByItems op && mine.isEmpty) || prio ≠ s.leavePrio op mine || inst ≠ leaveInst op inst mine then .next s
  else if s.leaveHeld op then
    .next (State.parkPacer { s with power := { s.power with
      held := s.power.held.map fun (l : Leave) => if sameHolder l.op op then { l with items := l.items ++ ids } else l } } mine)
  else
    match s.power.queue.find? fun l => sameHolder l.op op with
    | some l =>
      let l : Leave := { l with items := l.items ++ ids, prio := if prio.ult l.prio then prio else l.prio }
      .next (State.parkPacer { s with power := { s.power with queue := requeueLeave l s.power.queue } } mine)
    | none =>
      let l : Leave := { op := op, tokens := leaveTokens op, inst := inst, prio := prio, no := s.power.nextReq,
                         since := s.time, items := ids }
      .next (State.parkPacer { s with power := { s.power with
        queue := queueLeave l s.power.queue, nextReq := s.power.nextReq + 1 } } mine)

/-! ### Starting (R219; 13 R408, R419; 14 R431) -/

/-- The runtime's U shadow stack of an EC: free, within what U never reaches (14 R423, R428). -/
def uStackBase : Nat := 229376 + 8 * (Config.uStackBase.toNat % 2048)
def uStackLimit : Nat := uStackBase + 8 + 8 * (Config.uStackLimit.toNat % 2047)

/-- The first 32 bytes of a descriptor as KITEM shows them. -/
def itemWord (i : Item) : BitVec 256 := BitVec.ofNat 256 (leNat i.desc)

/-- The memory with the listed bytes of another over it where a test holds, and nothing else there. -/
def Memory.splice (m old : Memory) (p : Nat → Bool) : Memory :=
  (old.filter fun e => p e.1).foldl (fun m e => m.write e.1 e.2) (m.filter fun e => !(p e.1))

/-- Whether an address is in a kernel's scratch or in the U shadow stack. -/
def uBytes (scratchKib a : Nat) : Bool :=
  decide (a < 1024 * scratchKib) || (decide (uStackBase ≤ a) && decide (a < uStackLimit))

/-- A COMPUTE item starts its kernel (13 R419, 14 R431). -/
def Core.startKernel (c : Core) (i : Item) (d : KernelDesc) (args : Bytes) : Core :=
  let c := c.setMode 0
  let m := c.scratch.splice [] (uBytes d.scratchKib.toNat)
  { c with
    x := [(31, kretAddr), (30, BitVec.ofNat 64 (1024 * d.scratchKib.toNat)), (3, BitVec.ofNat 64 args.length)]
    v := [], p := [], pc := pcOf (0x100000000 + d.entry.setWidth 64), vl := 0, sew := 0, vprog := 0, fflags := 0
    lcount0 := 0, lstart0 := 0, lend0 := 0, lcount1 := 0, lstart1 := 0, lend1 := 0
    itemOrigin := i.origin, itemCount := BitVec.ofNat 64 i.count, gm := false, waiting := false
    ssp := BitVec.ofNat 64 (uStackBase + 8), ssbase := BitVec.ofNat 64 uStackBase, sslimit := BitVec.ofNat 64 uStackLimit
    scratch := (m.writeBytes 0 args).writeBytes uStackBase (leBytes 8 kretAddr.toNat)
    code := d.code, scratchKib := d.scratchKib.toNat, item := some i.id, kitem := itemWord i }

/-- A stopped COMPUTE item goes on where it was (13 R418, 07 R233). -/
def Core.resumeKernel (c saved : Core) (i : Item) : Core :=
  let c := c.setMode 0
  { c with
    x := saved.x, v := saved.v, p := saved.p, pc := pcOf saved.pc, vl := saved.vl, sew := saved.sew, vprog := saved.vprog
    fflags := saved.fflags, lcount0 := saved.lcount0, lstart0 := saved.lstart0, lend0 := saved.lend0
    lcount1 := saved.lcount1, lstart1 := saved.lstart1, lend1 := saved.lend1
    itemOrigin := saved.itemOrigin, itemCount := saved.itemCount, gm := false, waiting := false
    ssp := saved.ssp, ssbase := saved.ssbase, sslimit := saved.sslimit
    scratch := c.scratch.splice saved.scratch (uBytes saved.scratchKib)
    code := saved.code, scratchKib := saved.scratchKib, item := some i.id, kitem := itemWord i }

/-- An item starts on an EC: the runtime gets its descriptor, and a COMPUTE's kernel starts or goes on. -/
def State.startOnEc (s : State) (r : Runner) (i : Item) : State :=
  let k := ecOf r
  let c := s.core k
  match (s.query? i.query).bind fun q => (q.opOf i.op).map (q, ·) with
  | none => s
  | some (q, im, o) =>
    if o.code ≠ opCompute then s.setCore k { c with kitem := itemWord i }
    else
      match AMap.find? s.cores.saved i.id with
      | some old =>
        let s := s.setCore k (c.resumeKernel old i)
        { s with cores := { s.cores with saved := AMap.erase s.cores.saved i.id } }
      | none =>
        match im.kernels[o.kernel.toNat]? with
        | some d => s.setCore k (c.startKernel i d (im.ref (some q.params) (o.p 0 4) (o.p 4 2)).bytes)
        | none => s

/-- ITEM_TAKE (R219, R226): a runner takes the item in its slot. An EC does so in K mode, where its runtime runs. -/
def execItemTake (r : Runner) (s : State) : Host.Outcome State Fault Refusal :=
  let v := s.runner r
  let c := s.core (ecOf r)
  match s.slotted? r with
  | none => .next s
  | some i =>
    if v.running.isSome || !s.inService r || (r.kind == .ec && (c.mode != 1 || c.halted)) then .next s
    else
      let s := (s.modItem i.id fun i => { i with st := .running, since := s.time, spill := 0 }).setRunner r { v with
        running := some i.id, slot := none, startedAt := s.disp.clock, stopDue := false }
      let s := { s with disp := { s.disp with clock := s.disp.clock + 1 } }
      let s := match s.item? i.id with
        | some j => if r.kind = RunnerKind.ec then s.startOnEc r j else s
        | none => s
      .next (s.deadlineCheck i.query)

/-! ### Stopping (R218, R219, R233-R235; 06 R187-R189, R200) -/

/-- Whether the state and scratch of the kernel on an EC find room in the spill quota (R233). -/
def State.saveFits (s : State) (r : Runner) (i : Item) : Bool :=
  decide (s.spillUse i.query.inst + (s.core (ecOf r)).savePages ≤ (s.inst i.query.inst).spillPages.toNat)

/-- Whether an EC's kernel can be stopped now: it is in U mode, and its save finds room. -/
def State.canSave (s : State) (r : Runner) (i : Item) : Bool := (s.core (ecOf r)).mode == 0 && s.saveFits r i

/-- Spill pages that a stop of an item of a fixed-function unit takes: for the per-run cursors of a merge (10 R311), and for coder state
and staged content (12 R392). -/
def stopPages (o : OpDesc) (i : Item) (c : OpCtx) : Nat :=
  if o.code = opSort && i.flow = 1 then 1
  else if o.code = opCompress && !(i.block.isEmpty && c.content.isEmpty) then
    Config.spillPages (BitVec.ofNat 8 opCompress) 0 (i.block.length + c.content.length)
  else 0

/-- Whether the pages that a stop takes are there. -/
def State.stopFits (s : State) (o : OpDesc) (i : Item) : Bool :=
  (s.op? i.query i.op).all fun c => decide (stopPages o i c ≤ s.spillRoom i.query.inst)

def State.isCompute (s : State) (i : Item) : Bool :=
  ((s.query? i.query).bind fun q => q.opOf i.op).any fun e => e.2.code == opCompute

/-- The open words of an item are committed where it is preempted, and an unframed stream that it holds is released (06 R187-R189,
13 R413), with no check of the capacity (DESIGN CHOICE, log 263). A word that a framed stream gets so has VB below 64 and breaks its frame (06 R196): at once where it is the header. -/
def State.releaseOutputs (s : State) (q : Query) (o : OpDesc) (n : Nat) (commit : Bool) : State :=
  forEach o.outs s fun s k =>
    match s.streamOf q k with
    | some st =>
      if st.framed then
        if commit && st.badHeader n then s.badStream (q.stream k)
        else if commit then s.setStream (q.stream k) (st.closeWord n)
        else s
      else if st.holder = some n then
        s.setStream (q.stream k) { (if commit then st.closeWord 0 else st) with holder := none }
      else s
    | none => s

/-- The words that an EC has popped for its ports and not used up go back to the front (06 R200). -/
def State.returnWords (s : State) (q : Query) (o : OpDesc) (n : Nat) : State :=
  forEach o.ins.zipIdx s fun s (k, port) =>
    match s.streamOf q k with
    | some st => s.setStream (q.stream k) (st.unread n (if st.framed && port == o.p 6 1 then n else 0))
    | none => s

/-- An EC leaves its kernel item: the core is in its trap mode, with the cause given. -/
def State.leaveEc (s : State) (r : Runner) (a : AsyncSrc) (eval : BitVec 64) : State :=
  let k := ecOf r
  let c := s.core k
  let d := if c.mode = 0 then c.trap k (BitVec.ofNat 8 (0x20 + a.bit)) true eval c.pc else c
  s.setCore k { d with item := none, waiting := false }

/-- A stopped item holds the pages of its save; OPSTATE of a merge item of SORT is the index of the page with its cursors (10 R311). -/
def State.saveStop (s : State) (o : OpDesc) (i : Item) (c : OpCtx) : State :=
  let n := min (stopPages o i c) (s.spillRoom i.query.inst)
  if n = 0 then s
  else
    let s := s.modItem i.id fun i => { i with spill := n, opstate := if o.code = opSort then Config.cursorPage s.free else i.opstate }
    if o.code = opSort then s.tick else s

/-- A running item leaves its runner at an element boundary with its progress saved: open frames of an EXCHANGE close, words
popped and not finished go back, a SCAN's group that has not begun to leave is built again when it goes on (08 R263), and an EC's
state and scratch are saved, as are merge cursors and coder state. -/
def State.leaveRunner (s : State) (r : Runner) (i : Item) (preempted : Bool) : State :=
  match (s.query? i.query).bind fun q => (q.opOf i.op).map (q, ·.2) with
  | none => s
  | some (q, o) =>
    let s := (s.endStall i.id 0).xchFlush i.id
    let s := if o.code = opScan then
        (s.modItem i.id fun i => { i with outq := [], pagesIn := [] }).dropJobs fun w => match w with
          | .page n _ _ => n == i.id
          | .cmd _ => false
      else s
    let s := forEach i.inFrame s fun s e =>
      match (o.ins[e.1.toNat]?).bind fun k => (s.streamOf q k).map (q.stream k, ·) with
      | some (x, st) => s.setStream x (st.giveBack i.id e.2)
      | none => s
    let s := match i.inFrame.head? with
      | some e => s.modItem i.id fun i => { i with inFrame := [], subpos := 0, subport := e.1 }
      | none => s
    let s := if o.code = opCompute then
        let s := s.returnWords q o i.id
        let off := match s.elemStream q o with
          | some (_, st) => (AMap.get st.reads (if st.framed then i.id else 0) PortIn.none).skip
          | none => 0
        let s := s.modItem i.id fun i => { i with subpos := BitVec.ofNat 6 off, subport := BitVec.ofNat 3 (o.p 6 1) }
        let s := { s with cores := { s.cores with saved := AMap.insert s.cores.saved i.id (s.core (ecOf r)) } }
        s.leaveEc r .preempt (i.flowNo.setWidth 64)
      else s
    let s := if preempted then s.releaseOutputs q o i.id true else s
    let s := match s.op? q.tag i.op with
      | some c => s.saveStop o i c
      | none => s
    s.setRunner r { s.runner r with running := none, stopDue := false }

/-- Whether a frame that an item writes to one of its outputs is out only in part. -/
def State.midFrame (s : State) (q : Query) (o : OpDesc) (i : Item) : Bool :=
  o.outs.any fun k => (s.streamOf q k).any fun st => (st.openFrame i.id).isSome

/-- Whether a running item stands at an element boundary: a kernel in U mode whose save finds room (R233), a unit none of whose
frames is out in part and that has no block under way, and a SCAN at the end of a group of frames (08 R263). What a stop saves must find
room; a unit of COMPRESS may stop at any byte (12 R392). -/
def State.atBoundary (s : State) (r : Runner) (i : Item) : Bool :=
  match (s.query? i.query).bind fun q => (q.opOf i.op).map (q, ·.2) with
  | none => true
  | some (q, o) =>
    if o.code = opCompute then s.canSave r i
    else !s.midFrame q o i && (i.block.isEmpty || o.code == opCompress) && s.stopFits o i && (o.code != opScan || i.outq.isEmpty || (i.outq.head?.any fun w => w.port == 0))

/-- The target of a preemption for an item: of the runners that it can use, that run a PREEMPTIBLE item PREEMPT_GAP levels
lower (a COMPUTE item only where its save finds room), the one with the lowest level, of those the one that started last
(R231-R233). -/
def State.preemptTarget (s : State) (i : Item) : Option Runner :=
  let ok (x : Runner) : Bool :=
    match s.running? x with
    | some p => s.usable x i && p.preempt && decide (i.prio.toNat + s.disp.gap.toNat ≤ p.prio.toNat) &&
        (!s.isCompute p || s.saveFits x p)
    | none => false
  let level (x : Runner) : Nat := ((s.running? x).map (·.prio.toNat)).getD 0
  (s.runners.filter ok).foldl (fun b x => match b with
    | none => some x
    | some y => if level y < level x || (level y = level x && (s.runner y).startedAt < (s.runner x).startedAt) then some x
        else some y) none

/-! ### Parking (R229, R234, R235) -/

/-- A running item of a query in STOPPING ends at an element boundary (R219). -/
def State.endStopping (s : State) (r : Runner) (i : Item) (q : Query) : State :=
  let s := if r.kind = .ec then s.leaveEc r .stop ((q.qid.getD 0).setWidth 64) else s
  (s.endStall i.id 0).removeItems fun j => j.id == i.id

/-- Whether a word would be refused by a stream, which cannot take a further page of its middle for it. -/
def State.streamFull (s : State) (r : StreamRef) (st : Stream) (owner : Nat) (w : BitVec 512) : Bool :=
  (!st.framed && st.holder.any (· != owner)) ||
  (!(st.fits (st.allocate owner w 64).1) && decide ((s.growMiddle r st).pages = st.pages))

/-- Whether a running item waits on a stream: a word of it was refused, its next pop finds nothing, or what an EXCHANGE has
closed fills its send queue (10 R327), a frame of UNION waits for those claimed before it (10 R330); a kernel waits since a push or a
pop of it waited. An item with bytes staged for a chain waits on its runner (12 R390). -/
def State.streamWait (s : State) (q : Query) (o : OpDesc) (i : Item) (c : OpCtx) : Bool :=
  if o.code = opCompute then i.stall.isSome
  else
    match i.outq with
    | w :: _ =>
      match (o.outs[w.port.toNat]?).bind fun k => (s.streamOf q k).map (q.stream k, ·) with
      | some (x, st) => s.streamFull x st i.id w.word
      | none => false
    | [] => (q.image.any fun im => s.readyWait q im o) || (o.code == opExchange && s.sendqFull c) ||
        (o.code == opUnion && !i.inFrame.isEmpty && c.order.head? != some i.id) ||
        i.block.isEmpty && o.ins.any fun k => ((s.streamOf q k).map fun st => st.popView i.id).any fun e => e == .empty

/-- Whether an operator's spill pages or the middles of its streams lie on a channel that is held for retraining (16 R487). -/
def State.pagesHeld (s : State) (q : Query) (o : OpDesc) (c : OpCtx) : Bool :=
  (s.dram.chans.any fun e => e.2.st == .held && Config.holdsOn q.no e.1.toNat) &&
  (c.spill != 0 || (o.ins ++ o.outs).any fun k => (s.streamOf q k).any fun st => st.pages != 0)

/-- Whether a POOL GATHER waits for lines of the frame it holds; `all`: whether any line that its columns could need waits. -/
def State.gatherWaits (s : State) (q : Query) (im : Image) (o : OpDesc) (i : Item) (c : OpCtx) (all : Bool) : Bool :=
  if all then
    (AMap.find? q.snap (BitVec.ofNat 16 (o.p 8 2))).any fun tb =>
      let cols := (gatherCols im q.params o 8).map fun e => BitVec.ofNat 12 (fld e 0 2)
      tb.cells.any fun e => cols.contains e.1.1 && (s.seg? e.2).any fun g =>
        (List.range (ceilDiv g.bytes.length 64)).any (s.lineWaits e.2 g)
  else
    match ((s.heldFrame q i 0).bind readFrame).bind fun f => (f.runs[o.p 1 1]?).map (f, ·) with
    | some (f, r) =>
      match s.poolFrame q im o c i f r with
      | .wait _ => true
      | _ => false
    | none => false

/-- Whether an item waits for pool memory (R234; 16 R474, R487, R494): for lines of the pages that a SCAN or a POOL GATHER reads,
or for spill pages or stream words on a channel that is held. -/
def State.memWait (s : State) (q : Query) (o : OpDesc) (i : Item) (c : OpCtx) (all : Bool) : Bool :=
  match q.image with
  | none => false
  | some im =>
    if o.code = opScan then s.scanWaits q im o i
    else (o.code == opGather && o.p 0 1 == 0 && s.gatherWaits q im o i c all) || s.pagesHeld q o c

/-- What an operator does with a whole frame; with it the keys a probe hits. -/
def State.frameEnd (s : State) (q : Query) (im : Image) (o : OpDesc) (c : OpCtx) (i : Item) (port : BitVec 3) (bs : Bytes)
    (f : Frame) (host : List HostRead) : FrameEnd × List Bytes :=
  let one (e : FrameEnd) : FrameEnd × List Bytes := (e, [])
  if o.code = opFilter then one (s.filterFrame q im o c i f)
  else if o.code = opAsaFilter then one (s.asaFilterFrame q im o c i f)
  else if o.code = opBuild then one (s.buildFrame q o i.op c i f)
  else if o.code = opProbe then if port = 0 then one (handleFrame c i) else s.probeFrame q im o c i f
  else if o.code = opAggHash || o.code = opAggScalar || o.code = opSketch then one (s.aggFrame q im o c i f)
  else if o.code = opSort then one (s.sortFrame q o c i f)
  else if o.code = opTopk then one (s.topkFrame q o c i f)
  else if o.code = opMerge then one (s.mergeFrame q o c i port f)
  else if o.code = opLimit then one (s.limitFrame q im o c i f)
  else if o.code = opUnion then one (unionFrame c i bs f)
  else if o.code = opGather then one (s.gatherFrame q im o c i f host)
  else if o.code = opExchange then one (s.xchFrame q o i.op c i f)
  else if o.code = opCompress then one (compressFrame o i.op c i f)
  else one (.wait Needs.none)

/-- Whether a running item waits for a spill page (15 R460, R463): with the frame that it holds (10 R310, R314; 09 R286, R287), with the
next record of a partition that spills (09 R297), or for the match bits of a blocked partition (09 R287). -/
def State.spillWait (s : State) (q : Query) (im : Image) (o : OpDesc) (i : Item) (c : OpCtx) : Bool :=
  (i.inFrame.any fun e => match (s.heldFrame q i e.1) with
    | some bs => (readFrame bs).any fun f => match (s.frameEnd q im o c i e.1 bs f []).1 with
      | .spill => true
      | _ => false
    | none => false) ||
  ((o.mergePart c i).any fun part => (AMap.get c.records part []).head?.any fun r => (s.mergeRecord q im o c part r).isNone) ||
  (s.pairDue q im o c i).any fun e => !s.spillFits q.tag c (c.holdBits o e.2.1 e.2.2.2).spill

/-- Whether a host access of an operator can meet a fault: it writes an output chain, or fetches from host memory. -/
def OpDesc.usesHost (o : OpDesc) (write : Bool) : Bool :=
  o.chain != 0xFF || (!write && o.code == opGather && o.p 0 1 == 1)

/-- Whether a running item is in the situation a cause names. -/
def State.causeHolds (s : State) (q : Query) (o : OpDesc) (i : Item) (c : OpCtx) : ParkCause → Bool
  | .pacer => o.code == opBuild && bit (o.p 17 1) 0 && !s.leaveHeld (.spread q.tag i.op) &&
      (s.power.queue.any fun l => sameHolder l.op (.spread q.tag i.op))
  | .page _ w => o.usesHost w && (s.fn q.tag.inst).ats
  | .spill => q.image.any fun im => s.spillWait q im o i c
  | .stream => s.streamWait q o i c
  | .memhold => s.memWait q o i c false

/-- A running item parks at an element boundary on a cause that holds; a page fault becomes a page request (15 R455). The wait on
the runner counts, for `counts` of the time base at least where STALL_YIELD has passed. An item of a query in STOPPING ends instead
(R219). -/
def State.parkRunning (s : State) (r : Runner) (cause : ParkCause) (counts : BitVec 64) : State :=
  match s.service r with
  | none => s
  | some (i, q, _, o, c) =>
    if !s.causeHolds q o i c cause || !s.atBoundary r i then s
    else if q.st = .stopping then s.endStopping r i q
    else
      let s := if cause = .stream && i.stall.isSome then s.endStall i.id counts
        else if counts = 0 then s else s.addTotal q.tag cause.total counts
      let s := (s.leaveRunner r i false).parkItem i.id cause cause.lastStop
      let s := match cause with
        | .page p w => s.hostFault q.tag.inst q.pasid p w (.item i.id)
        | _ => s
      (s.deadlineCheck q.tag).settle q.tag

/-- ITEM_PARK (R234): a running item stops at an element boundary and parks. -/
def execItemPark (r : Runner) (cause : ParkCause) (s : State) : Host.Outcome State Fault Refusal :=
  .next (s.parkRunning r cause 0)

/-- STALL_YIELD (R234, R238): a stream wait or a retraining hold has lasted 2 µs on the runner: the item parks; the wait on
the runner counts as well. -/
def execStallYield (r : Runner) (cause : ParkCause) (s : State) : Host.Outcome State Fault Refusal :=
  match cause with
  | .stream | .memhold => .next (s.parkRunning r cause 50)
  | _ => .next s

/-- Whether the cause of a park is resolved. -/
def State.causeOver (s : State) (q : Query) (o : OpDesc) (i : Item) (c : OpCtx) : Option ParkCause → Bool
  | some .pacer =>
    if o.code = opBuild then s.leaveHeld (.spread q.tag i.op)
    else !(s.power.queue.any fun l => l.items.contains i.id) && !(s.power.held.any fun l => l.items.contains i.id)
  | some (.page _ _) => !((s.xlat.reqs ++ s.xlat.waiting).any fun r => r.waiters.contains (.item i.id))
  | some .spill => decide (s.spillUse q.tag.inst < (s.inst q.tag.inst).spillPages.toNat)
  | some .stream =>
    if o.code = opCompute then
      (o.ins.any fun k => ((s.streamOf q k).map fun st => st.popView i.id).any fun e => e != .empty) ||
      (o.outs.any fun k => (s.streamOf q k).any fun st => !s.streamFull (q.stream k) st i.id 0)
    else !s.streamWait q o i c
  | some .memhold => !s.memWait q o i c true
  | none => true

/-- ITEM_UNPARK (R234, R236): the cause of a park is resolved. -/
def execItemUnpark (item : Nat) (s : State) : Host.Outcome State Fault Refusal :=
  match s.item? item with
  | none => .next s
  | some i =>
    match (s.query? i.query).bind fun q => (q.opOf i.op).map (q, ·.2), s.op? i.query i.op with
    | some (q, o), some c =>
      if i.st == .parked && s.causeOver q o i c i.cause then .next (s.unparkItem item ((i.cause.map ParkCause.total).getD 0))
      else .next s
    | _, _ => .next s

/-! ### Ending (R219; 13 R419; 14 R431) -/

/-- Whether nothing more can be popped from a port by an item. -/
def State.portOver (s : State) (q : Query) (n : Nat) (k : BitVec 16) : Bool :=
  ((s.streamOf q k).map fun st => st.popView n).any fun e => e == .ended || e == .aborted

/-- Whether the range of a running item of a fixed-function unit is complete and all it made is out. -/
def State.rangeDone (s : State) (q : Query) (im : Image) (o : OpDesc) (i : Item) (c : OpCtx) : Bool :=
  if !i.outq.isEmpty || !i.opens.isEmpty || !i.inFrame.isEmpty || !i.block.isEmpty then false
  else if o.code = opScan then decide (i.count ≤ i.progress)
  else if o.code = opCompress then i.progress != 0 || (s.inputsDrained q o && c.content.isEmpty)
  else if !(o.fedFlow i.flow) then decide (i.count ≤ i.progress)
  else if o.code = opProbe && !i.rows.isEmpty then false
  else decide (itemRows < i.startRows + 4096) || (o.ins.all fun k => s.portOver q i.id k) ||
    (o.code == opLimit && limitDone im q.params o c)

/-- What the end of an item's range adds to its operator (10 R310, R311, R313). -/
def OpCtx.itemEnded (c : OpCtx) (o : OpDesc) (i : Item) : OpCtx :=
  if o.code = opSort || o.code = opTopk then
    if i.flow = 0 then c.addRun i else if c.passDone then c else c.mergeRuns
  else if o.code = opMerge then c.ownRows
  else c

/-- An item is ENDED: it leaves the Dispatcher and its runner; the deadline is compared (R219, R237). -/
def State.dropItem (s : State) (i : Item) : State :=
  ((s.removeItems fun j => j.id == i.id).deadlineCheck i.query).settle i.query

/-- Bytes discarded from the front of an unframed port's range: none while they have not all come (R419). -/
def discardBytes : Nat → Stream → PortIn → Option (Stream × PortIn)
  | 0, _, _ => none
  | fuel + 1, st, p =>
    match p.left with
    | none => some (st, p)
    | some n =>
      let have_ := p.cur.length - p.off
      if n ≤ have_ then some (st, { p with off := p.off + n, left := none })
      else
        match AMap.find? st.words st.rp with
        | some w =>
          discardBytes fuel { st with words := st.words.erase st.rp, inMiddle := st.inMiddle.filter (· ≠ st.rp), rp := st.rp + 1, rp2 := st.rp2 + 1 }
            { p.load w.bits w.vb with left := some (n - have_) }
        | none => if st.st = .ended then some (st, PortIn.none) else none

/-- What is left of a COMPUTE item's range is discarded; none while it has not all come. -/
def State.discardRange (s : State) (q : Query) (o : OpDesc) (i : Item) : Option State :=
  match s.elemStream q o with
  | none => some s
  | some (r, st) =>
    if st.framed then
      let mine (f : FramePos) : Bool := f.claim == some i.id
      if st.frames.any fun f => mine f && decide (f.filled < f.words) then none
      else
        let gone := (st.frames.filter mine).flatMap fun f => (List.range f.words).map fun k => f.start + BitVec.ofNat 32 k
        some (s.setStream r ({ st with
          words := st.words.filter fun e => !gone.contains e.1
          inMiddle := st.inMiddle.filter fun p => !gone.contains p
          frames := st.frames.filter fun f => !mine f
          reads := AMap.erase st.reads i.id } : Stream).settleRp)
    else
      match discardBytes (st.words.length + 2) st (AMap.get st.reads 0 PortIn.none) with
      | some (st, p) => some (s.setStream r { st with reads := AMap.insert st.reads 0 p })
      | none => none

/-- An output of a COMPUTE item whose last frame is not whole (13 R414, 06 R196). -/
def State.brokenOutput (s : State) (q : Query) (o : OpDesc) (n : Nat) : Option StreamRef :=
  (o.outs.find? fun k => (s.streamOf q k).any fun st =>
    st.framed && (!(AMap.get st.opens n []).isEmpty || (st.openFrame n).isSome)).map q.stream

/-- The other framed inputs of a COMPUTE are read on by its next item. -/
def State.handOver (s : State) (q : Query) (o : OpDesc) (n : Nat) : State :=
  forEach o.ins s fun s k =>
    match s.streamOf q k with
    | some st => s.setStream (q.stream k) { st with
        frames := st.frames.map fun f => if f.claim = some n then { f with claim := none } else f }
    | none => s

/-- The end of a COMPUTE item: its kernel has returned (KRET), or has raised a fault that the runtime does not resolve, which
ends the query with REASON 0x8000 and the cause code (05 R153). -/
def State.computeEnd (s : State) (r : Runner) (i : Item) (q : Query) (o : OpDesc) : State :=
  let c := s.core (ecOf r)
  let code := c.cause.toNat % 256
  if c.mode ≠ 1 || c.item ≠ some i.id then s
  else if code = 0x0A then
    match s.brokenOutput q o i.id with
    | some x => s.badStream x
    | none =>
      match s.discardRange q o i with
      | none => s
      | some s =>
        (((s.handOver q o i.id).releaseOutputs q o i.id false).setCore (ecOf r) { c with item := none }).dropItem i
  else if c.klinkStatus.toNat % 4 = 0 && ((1 ≤ code && code ≤ 8) || code = 0x0B) then
    s.stopQueryAt q.tag stFieldInvalid (BitVec.ofNat 16 (0x8000 + code)) i.op
  else s

/-- The range of the item that a runner runs is complete: it is ENDED; none where it goes on. -/
def State.endRange (s : State) (r : Runner) : Option State :=
  match s.service r with
  | none => none
  | some (i, q, im, o, c) =>
    if o.code = opCompute then
      let c := s.core (ecOf r)
      if c.mode = 1 && c.item == some i.id && c.cause.toNat % 256 = 0x0A then some (s.computeEnd r i q o) else none
    else if s.rangeDone q im o i c then
      let s := ((s.setOp q.tag i.op (c.itemEnded o i)).releaseOutputs q o i.id false).dropItem i
      some (if o.code = opAggHash || o.code = opAggScalar || o.code = opSketch then s.aggSettle q o i.op else s)
    else none

/-- ITEM_END (R219): a running item completes its range and frees its runner. An item of a query in STOPPING ends at its next
element boundary, which this is; so does the kernel of an item that went with its query. -/
def execItemEnd (r : Runner) (s : State) : Host.Outcome State Fault Refusal :=
  match s.running? r with
  | none =>
    let c := s.core (ecOf r)
    if r.kind = .ec && s.inService r && c.item.any fun n => (s.item? n).isNone then
      .next (s.leaveEc r .stop (BitVec.ofNat 64 (bits c.kitem.toNat 27 16)))
    else .next s
  | some i =>
    match s.query? i.query with
    | none => .next s
    | some q =>
      if q.st = .stopping then .next (s.endStopping r i q)
      else
        match s.service r with
        | none => .next s
        | some (i, q, _, o, _) =>
          if o.code = opCompute then .next (s.computeEnd r i q o) else .next ((s.endRange r).getD s)

/-! ### Preemption (R231-R233) -/

/-- A running item that has been told to stop: it ends where its range is complete (the end wins), and at an element boundary it ends
with a query in STOPPING or returns to its level. -/
def State.stopDueItem (s : State) (r : Runner) (p : Item) : State :=
  match s.query? p.query with
  | none => s
  | some q =>
    if q.st = .stopping then if s.atBoundary r p then s.endStopping r p q else s
    else
      match s.endRange r with
      | some t => t
      | none => if s.atBoundary r p then ((s.leaveRunner r p true).returnItem p.id 1).settle p.query else s

/-- PREEMPTION (R231-R233): no slot is empty and no runner idle: the preempting item, the first of the level's order that can use
it, comes into the target's slot, whose occupant is recalled. The running item stops at its next element boundary, which may be
now, or a later PREEMPTION of the runner for the item in its slot. -/
def execPreemption (r : Runner) (forItem : Nat) (s : State) : Host.Outcome State Fault Refusal :=
  match s.running? r, s.item? forItem with
  | some p, some i =>
    let mine := s.runners.filter fun x => s.usable x i
    let free (x : Runner) : Bool := (s.runner x).slot.isNone || (s.runner x).running.isNone
    if (s.runner r).stopDue && (s.runner r).slot == some forItem then .next (s.stopDueItem r p)
    else if !s.eligible i || mine.any free || s.preemptTarget i ≠ some r || (s.nextFor r).map (·.id) ≠ some forItem then .next s
    else
      let s := (s.recallSlot r).slotItem r i
      .next ((s.setRunner r { s.runner r with stopDue := true }).stopDueItem r p)
  | _, _ => .next s

/-! ### Deadlines and blocked quotas (R237; 15 R464, R465) -/

/-- DEADLINE_SWEEP (R237): the check every 10 µs after fetch. -/
def execDeadlineSweep (t : Tag) (s : State) : Host.Outcome State Fault Refusal := .next (s.deadlineCheck t)

/-- Whether a query holds SPILL pages. -/
def State.holdsSpill (s : State) (t : Tag) : Bool :=
  (s.ops.any fun e => e.1.1 == t && e.2.spill != 0) || (s.disp.items.any fun i => i.query == t && i.spill != 0) ||
  s.cores.saved.any fun e => (s.item? e.1).any fun i => i.query == t

/-- SPILL_BLOCK (15 R464, R465): the instance's SPILL quota has been blocked for 1 ms: of its queries with an item parked on
SPILL the one fetched last stops with QUOTA. -/
def execSpillBlock (inst : BitVec 8) (s : State) : Host.Outcome State Fault Refusal :=
  let onSpill (t : Tag) : Bool := s.disp.items.any fun i => i.query == t && i.st == .parked && i.lastStop == 3
  let free := s.disp.items.any fun i => i.query.inst == inst && s.holdsSpill i.query &&
    !(i.st == .parked && (i.lastStop == 3 || i.lastStop == 4))
  let victims := s.queries.filter fun q => q.tag.inst == inst && onSpill q.tag
  match victims.foldl (fun (b : Option Query) q => match b with
    | none => some q
    | some p => if p.no < q.no then some q else some p) none with
  | none => .next s
  | some q => if free then .next s else .next (s.stopQuery q.tag stQuota)

/-! ### Words of fixed-function units (06 R198-R206) -/

/-- The stream behind a word that an item offers. -/
def State.outRef (q : Query) (o : OpDesc) (port : BitVec 3) : Option StreamRef := (o.outs[port.toNat]?).map q.stream

/-- The frame of what an item has committed is out: it parks for the page that the next element needs (10 R322). -/
def State.parkDue (s : State) (q : Query) (i : Item) : State :=
  match i.pageDue with
  | none => s
  | some p =>
    let s := (s.modItem i.id fun i => { i with pageDue := none }).parkItem i.id (.page p false) 2
    (s.hostFault q.tag.inst q.pasid p false (.item i.id)).deadlineCheck q.tag

/-- WORD_COMMIT (06 R198, R204, R213): a unit offers the next word of its item, or makes what comes next: a group of a SCAN,
an element of a merge, a pair of partitions, the last frame of a join, the open frames of an EXCHANGE. An EC commits by its stream instructions; a flaw of WP there shows on its
first output (DESIGN CHOICE, log 264). -/
def execWordCommit (r : Runner) (flaw : StreamFlaw) (s : State) : Host.Outcome State Fault Refusal :=
  match s.service r with
  | none => .next s
  | some (i, q, im, o, c) =>
    match i.outq with
    | w :: rest =>
      match State.outRef q o w.port with
      | none => .next s
      | some x =>
        if flaw = .pointer then .next (s.pointerMismatch x)
        else
          let r := s.commitWord x i.id w.word 64
          if r.2 = .landed then
            let s := (r.1.modItem i.id fun i => { i with
              outq := rest, progress := w.progress.getD i.progress, opstate := w.opstate.getD i.opstate }).endStall i.id 0
            let s := if o.code = opUnion then s.unionLeft q i else s
            .next ((if rest.isEmpty then s.parkDue q i else s).settle q.tag)
          else .next (r.1.stallItem i.id)
    | [] =>
      if o.code = opCompute then
        match o.outs.head? with
        | some k => if flaw = .pointer then .next (s.pointerMismatch (q.stream k)) else .next s
        | none => .next s
      else if (o.mergePart c i).isSome then
        .next (((o.mergePart c i).elim s (s.mergeStep q im o c i)).settle q.tag)
      else if (s.pairDue q im o c i).isSome then .next (s.pairJoin q im o c i)
      else if o.mergesRuns c i then .next (s.modItem i.id fun i => { i with progress := i.progress + 1 })
      else if o.code = opScan then if i.progress < i.count then .next (s.scanFill q im o i) else .next s
      else if o.code = opProbe && !i.rows.isEmpty && i.inFrame.isEmpty &&
          (decide (itemRows < i.startRows + 4096) || (o.ins.all fun k => s.portOver q i.id k)) then
        match s.buildOf q im o with
        | some (_, b, bc) =>
          let (words, left) := drainRows 0 (joinTypes o b c bc) s.free true i.startRows i.rows.length i.rows
          .next ((s.modItem i.id fun i => { i with outq := words, rows := left }).tick)
        | none => .next s
      else if o.code = opExchange && i.inFrame.isEmpty &&
          (decide (itemRows < i.startRows + 4096) || (o.ins.all fun k => s.portOver q i.id k)) then .next ((s.xchFlush i.id).settle q.tag)
      else .next s

/-- A whole frame is worked on (06 R196). -/
def State.workFrame (s : State) (q : Query) (im : Image) (o : OpDesc) (c : OpCtx) (i : Item) (port : BitVec 3) (x : StreamRef)
    (bs : Bytes) (host : List HostRead) : State :=
  match (if (s.stream? x).any fun st => st.shortFrame i.id then none else readFrame bs) with
  | none => s.badStream x
  | some f =>
    let (e, hits) := s.frameEnd q im o c i port bs f host
    match e with
    | .params => s.badParams q.tag i.op
    | .stream => s.badStream x
    | .stop st => s.stopQuery q.tag st
    | .corrupt tid col slot => (s.pageCrcEvent q.tag.inst tid col slot).stopQuery q.tag stIntegrity
    | .fault p =>
      ((s.parkItem i.id (.page p false) 2).hostFault q.tag.inst q.pasid p false (.item i.id)).deadlineCheck q.tag
    | .lost => s.unresolved (.item i.id)
    | .wait n => s.sendNeeds n
    | .spill => s.takeSpill q.tag i.op
    | .emit out c j whole =>
      let s := if o.code = opGather && o.p 0 1 = 1 then s.gatherSeen q im o i f host else s
      let s := (s.setOp q.tag i.op c).modItem i.id fun _ => { j with outq := j.outq ++ out }
      let s := match (if hits.isEmpty then none else s.buildOf q im o) with
        | some (bop, b, bc) => s.setOp q.tag bop { bc with build := setHits b hits bc.build }
        | none => s
      (if whole then s.doneFrame q o j port f.sel.length else s).tick.settle q.tag

/-- Whether an item takes a further frame from a port now (R217; 09 R277; 10 R315, R330; 12 R387). -/
def State.takesFrame (s : State) (q : Query) (im : Image) (o : OpDesc) (c : OpCtx) (i : Item) (port : BitVec 3) : Bool :=
  o.fedFlow i.flow && i.outq.isEmpty && i.block.isEmpty && i.pageDue.isNone &&
  (decide (i.startRows + 4096 ≤ itemRows) || o.code == opCompress) && (o.code != opExchange || !s.sendqFull c) &&
  (o.code != opCompress || (i.progress == 0 && !s.unitReady q o c)) &&
  (o.code != opProbe || c.handleRead == (port != 0)) &&
  (o.code != opUnion || s.unionTakes q o c i port.toNat) &&
  (o.code != opLimit || !limitDone im q.params o c)

/-- WORD_POP (06 R196, R199, R206, R209-R213): a unit pops the next word of its item's frame on a port; a whole frame is
worked on, at once or, where something it needs is not there yet, by a later pop. An EC pops by SPOP; a flaw of a word or a
pointer shows on any runner. -/
def execWordPop (r : Runner) (port : BitVec 3) (flaw : StreamFlaw) (host : List HostRead) (s : State) :
    Host.Outcome State Fault Refusal :=
  match s.service r with
  | none => .next s
  | some (i, q, im, o, c) =>
    match (o.ins[port.toNat]?).bind fun k => (s.streamOf q k).map (q.stream k, ·) with
    | none => .next s
    | some (x, st) =>
      match flaw with
      | .pointer => .next (s.pointerMismatch x)
      | .uncorrectable => .next (s.wordLost x i.id)
      | _ =>
        let s := if flaw = .corrected then s.wordCorrected x else s
        if o.code = opCompute then .next s
        else
          match s.heldFrame q i port with
          | some bs => if i.outq.isEmpty then .next (s.workFrame q im o c i port x bs host) else .next s
          | none =>
            let open_ := AMap.get i.inFrame port []
            if (i.inFrame.any fun e => e.1 != port && !e.2.isEmpty) || (open_.isEmpty && !(s.takesFrame q im o c i port)) then
              .next s
            else
              match st.popView i.id with
              | .word w _ =>
                let bs := open_ ++ wordBytes w
                let first := ((st.frameFor i.id).map (·.origin)).getD 0
                let j := { i with
                  inFrame := AMap.insert i.inFrame port bs
                  origin := if i.claims.isEmpty && i.startRows = 0 then BitVec.ofNat 64 first else i.origin
                  count := if open_.isEmpty && o.code != opCompress then i.startRows + hdrRows bs else i.count
                  claims := AMap.insert i.claims port (((st.frameFor i.id).map (·.start)).getD 0, bs.length / 64) }
                let st1 := st.popped i.id
                if st1.rp ≠ st1.rp2 then .next (s.pointerMismatch x)
                else
                  let s := ((s.setStream x st1).modItem i.id fun _ => j).endStall i.id 0
                  let s := if o.code = opUnion && open_.isEmpty then s.unionClaim q i else s
                  let c := (s.op? q.tag i.op).getD c
                  match s.heldFrame q j port with
                  | some bs => .next (s.workFrame q im o c { j with stall := none } port x bs host)
                  | none => .next (s.settle q.tag)
              | .empty => .next (s.stallItem i.id)
              | _ => .next s

end Sys2Proof.Machine
end

