-- ==== Sys2Proof/Machine/Asa.lean ====
section
/-! DEFINITION. The pods of the Associative Search Array (11 R346-R360) and the cascade (11 R361-R368; 18 R540). -/

namespace Sys2Proof.Machine

/-! ### Pods (R346-R348) -/

/-- The records of the ASA image that a pod holds. -/
def State.podImage (s : State) (p : Pod) : Option AsaDesc :=
  p.owner.bind fun o => (s.query? o.1).bind fun q => q.image.bind fun im => im.asas[o.2.toNat]?

/-- A member that holds a SERVING pod with a registered CAS_ID answers READY, once (R364). -/
def State.answerReady (s : State) : State :=
  forEach s.asa.members s fun s e =>
    if e.2.ready.isEmpty && s.asa.pods.any fun p => p.2.st == .serving && p.2.casId == some e.2.casId then
      let s := { s with asa := { s.asa with
        members := AMap.update s.asa.members e.1 fun g => { g with ready := [s.asa.casPos] } } }
      s.sendLink Config.cascadeUp 0x29 e.2.casId ([1, e.1.setWidth 8, s.asa.casPos.setWidth 8] ++ zeros 13)
    else s

/-- POD_LOAD (R346, R347): the last entry is written and the pod is SERVING; once every pod of the query is, it enters
RUNNING. A shadow that is lost completes the query with DATA_LOST. -/
def execPodLoad (pod : BitVec 4) (shadowLost : Bool) (s : State) : Host.Outcome State Fault Refusal :=
  let p := s.pod pod
  match p.owner, s.podImage p with
  | some (t, _), some d =>
    if p.st ≠ .loading then .next s
    else if shadowLost then .next (s.stopQuery t stDataLost)
    else
      let slots := d.recs.zipIdx.flatMap fun e => writeEntry p.width e.2 e.1.1 e.1.2 true
      let s := (s.setPod pod { p with st := .serving, slots := slots, reload := [], scanPos := 0 }).answerReady
      let loaded := (s.query? t).any fun q => q.pods.all fun e => (s.pod e.2).st == .serving
      .next (if loaded then s.enterRunning t .ok else s)
  | _, _ => .next s

/-- POD_CLEAR (R346, R348): every slot of a CLEARING pod is invalid: it is FREE. -/
def execPodClear (pod : BitVec 4) (s : State) : Host.Outcome State Fault Refusal :=
  if (s.pod pod).st = .clearing then .next (s.setPod pod Pod.free) else .next s

/-! ### Parity (R353-R358) -/

/-- A parity error in an entry: it is invalid, the event names it, its reload begins (R355). A slot past the image's entries has no
record in the shadow: it is cleared and nothing is reloaded (DESIGN CHOICE, log 266). -/
def State.parityError (s : State) (pod : BitVec 4) (entry : Nat) : State :=
  let p := s.pod pod
  let gone := entrySlots p.width entry
  let n := BitVec.ofNat 12 entry
  let s := s.setPod pod (if p.entries ≤ entry then { p with slots := p.slots.filter fun e => !gone.contains e.1 } else { p with
    slots := p.slots.mapVals fun k x => if gone.contains k then { x with valid := false } else x
    reload := if p.reload.contains n then p.reload else n :: p.reload })
  (s.raiseDevice 322 0xFF (pod.setWidth 64) (n.setWidth 64)).count ctrAsaPe

/-- ASA_SEARCH (R349-R351, R356, R357): the pod's answer; a parity error met on the winner's tag reloads that entry, and the
answer is STALE. -/
def execAsaSearch (pod : BitVec 4) (key mask : BitVec 320) (tagFlaw : Bool) (s : State) : Host.Outcome State Fault Refusal :=
  let p := s.pod pod
  let a := p.answer key mask
  if p.st ≠ .serving then .next s
  else if tagFlaw && answerHit a then
    .next ((s.parityError pod (answerIndex a)).emit (.asaAnswer pod (a ||| 0x40)))
  else .next (s.emit (.asaAnswer pod a))

/-- A slot as it reads with bits upset: key in bits 159:0, tag above it, the parity bits on top. -/
def Slot.upset (x : Slot) (u : BitVec 196) : Slot :=
  { x with
    key := x.key ^^^ u.setWidth 160, tag := x.tag ^^^ (u >>> 160).setWidth 32, parity := x.parity ^^^ (u >>> 192).setWidth 4 }

/-- A slot that nothing has written since the pod was cleared: invalid, all zeros, of even parity. -/
def Slot.blank : Slot := { key := 0, tag := 0, valid := false, parity := 0 }

/-- PARITY_SCAN (R353-R355): the scan reads one of the 4,096 slots of a SERVING pod, in which bits may have been upset. -/
def execParityScan (pod : BitVec 4) (slot : BitVec 12) (upset : BitVec 196) (s : State) : Host.Outcome State Fault Refusal :=
  let p := s.pod pod
  if p.st ≠ .serving then .next s
  else
    let x := (AMap.get p.slots slot Slot.blank).upset upset
    let s := s.setPod pod { p with
      slots := if x = Slot.blank then p.slots else AMap.insert p.slots slot x, scanPos := slot + 1 }
    let s := if slot = 4095 then { s with asa := { s.asa with period := s.asa.nextPeriod } } else s
    if x.parity = slotParity x.key x.tag then .next s else .next (s.parityError pod (slotEntry p.width slot))

/-- PARITY_RELOAD (R355, R358): the shadow read of an invalidated entry returns. -/
def execParityReload (pod : BitVec 4) (entry : BitVec 12) (shadowLost : Bool) (s : State) : Host.Outcome State Fault Refusal :=
  let p := s.pod pod
  match p.owner, (s.podImage p).bind fun d => d.recs[entry.toNat]? with
  | some (t, _), some (key, tag) =>
    if p.st ≠ .serving || !p.reload.contains entry then .next s
    else if shadowLost then .next (s.stopQuery t stDataLost)
    else
      let put := writeEntry p.width entry.toNat key tag true
      .next (s.setPod pod { p with
        slots := put.foldl (fun m e => AMap.insert m e.1 e.2) p.slots, reload := p.reload.filter (· ≠ entry) })
  | _, _ => .next s

/-! ### The thermal step (R359, R360) -/

/-- The step after an evaluation at a temperature. -/
def stepAt (step : Nat) (t : Int) : Nat :=
  let up : Nat := if 110 ≤ t then 3 else if 100 ≤ t then 2 else if 95 ≤ t then 1 else 0
  let down : Nat :=
    if 3 ≤ step && decide (107 ≤ t) then 3 else if 2 ≤ step && decide (97 ≤ t) then 2
    else if 1 ≤ step && decide (92 ≤ t) then 1 else 0
  max up down

/-- ASA_STEP_EVALUATION (R359, R360): the highest reading of the ASA's sensors sets the step. -/
def execAsaStepEvaluation (s : State) : Host.Outcome State Fault Refusal :=
  let l := (s.power.temps.drop 24).take 4
  if l.isEmpty then .next s
  else
    let n := stepAt s.asa.step.toNat (tjmax l)
    if n = s.asa.step.toNat then .next s
    else .next (State.raiseDevice { s with asa := { s.asa with step := BitVec.ofNat 2 n } } 323 0xFF (BitVec.ofNat 64 n) 0)

/-! ### The cascade's configuration (R361; 21 R633; 22 R654) -/

/-- ASA_STS.CAS_ACTIVE: a pod holds a cascaded image, or the head holds a CTAG. -/
def State.casActive (s : State) : Bool :=
  (s.asa.pods.any fun e => e.2.st != .free && e.2.casId.isSome) || !s.asa.ctags.isEmpty

/-- A write of ASA_CASCFG: taken whole or not at all. -/
def State.writeCascfg (s : State) (value : BitVec 32) : State :=
  let depth := bits value.toNat 11 8
  let pos := bits value.toNat 6 4
  if s.casActive || depth = 0 || 8 < depth || depth ≤ pos then s
  else { s with asa := { s.asa with
    casEn := value.getLsbD 0, casPos := BitVec.ofNat 3 pos, casDepth := BitVec.ofNat 4 depth, trained := false
    chkRun := 0, broken := false, slots := [], members := [], known := [] } }

/-- ASA_CASCFG_ENABLE (R361): the manager writes EN 1. -/
def execAsaCascfgEnable (inst : BitVec 8) (value : BitVec 32) (s : State) : Host.Outcome State Fault Refusal :=
  if s.managerAccess inst && value.getLsbD 0 then .next (s.writeCascfg value) else .next s

/-- CASCADE_PHASE_TRAINING (22 R654): the sampling phase of ASA_MI is trained. -/
def execCascadePhaseTraining (s : State) : Host.Outcome State Fault Refusal :=
  if s.asa.casEn then .next { s with asa := { s.asa with trained := true } } else .next s

/-! ### Result words (R365-R367) -/

/-- A result before its CTAG and CHK. -/
structure CasResult where
  hit   : Bool
  count : Nat
  wpos  : Nat
  stale : Bool
  widx  : Nat
  tag   : BitVec 32
deriving DecidableEq, Repr

/-- CHK of a word's other bits. -/
def casChk (n : Nat) : Nat :=
  let at_ (j : Nat) : Bool := (List.range 64).foldl (fun a i => a ^^ ((i < 28 || 32 ≤ i) && i % 4 == j && n.testBit i)) false
  ((List.range 4).map fun j => if at_ j then 2 ^ j else 0).sum

/-- A result word (R365). -/
def CasResult.word (r : CasResult) (ctag : BitVec 4) : BitVec 64 :=
  let n := 1 + 2 * Bool.asNat r.hit + 4 * Bool.asNat (decide (2 ≤ r.count)) + 8 * r.count + 2 ^ 7 * r.wpos +
    2 ^ 10 * Bool.asNat r.stale + 2 ^ 11 * ctag.toNat + 2 ^ 15 * r.widx + 2 ^ 32 * r.tag.toNat
  BitVec.ofNat 64 (n + 2 ^ 28 * casChk n)

def casRead (w : BitVec 64) : CasResult where
  hit := w.getLsbD 1
  count := bits w.toNat 6 3
  wpos := bits w.toNat 9 7
  stale := w.getLsbD 10
  widx := bits w.toNat 26 15
  tag := (w >>> 32).setWidth 32

/-- A word that is taken as a miss. -/
def casMiss (stale : Bool) : CasResult where
  hit := false
  count := 0
  wpos := 0
  stale := stale
  widx := 0
  tag := 0

/-- The merge of a position's local answer with the word from beyond it (R366). -/
def casMerge (pos : Nat) (mine : BitVec 64) (w : CasResult) : CasResult :=
  let hit := answerHit mine
  { hit := hit || w.hit
    count := min 15 (answerCount mine + w.count)
    wpos := if hit then pos else w.wpos
    stale := answerStale mine || (!hit && w.stale)
    widx := if hit then answerIndex mine else w.widx
    tag := if hit then answerTag mine else w.tag }

/-- The CAS_ID of a CTAG on this engine. -/
def State.casIdOf (s : State) (ctag : BitVec 4) : BitVec 32 :=
  ((AMap.find? s.asa.ctags ctag).orElse fun _ => AMap.find? s.asa.members ctag).elim 0 (·.casId)

/-- ASA_CASCADE_ERR. -/
def State.cascadeErr (s : State) (casId : BitVec 32) : State := s.raiseDevice 324 0xFF (casId.setWidth 64) 0

/-- The cascade breaks (R367, R368): every query that uses a cascaded image stops with DATA_LOST. -/
def State.breakCascade (s : State) : State :=
  let uses (q : Query) : Bool := if s.asa.casPos = 0 then !q.ctags.isEmpty else (q.image.map Image.cascades).any fun l => !l.isEmpty
  let ts := (s.queries.filter fun q => s.asa.casEn && uses q && (q.st == .running || q.st == .paused)).map (·.tag)
  forEach ts { s with asa := { s.asa with broken := true, slots := [], known := [] } } fun s t => s.stopQuery t stDataLost

/-- A position's own result leaves: the head's answer goes to the runner that searches (kept until it is used), a member's
word to the engine before it. -/
def State.casAnswer (s : State) (c : CasSlot) (w : CasResult) : State :=
  let r := casMerge s.asa.casPos.toNat c.mine w
  if s.asa.casPos = 0 then
    let a := asaAnswer r.hit r.count r.stale r.widx r.wpos r.tag
    { s with asa := { s.asa with
      lastAnswer := a
      known := if c.live && !r.stale then s.asa.known ++ [{ c with mine := a }] else s.asa.known } }
  else s.emit (.cascadeWord (r.word c.ctag))

/-- CASCADE_RESULT_WORD (R365-R367): the word of the oldest slot arrives from the next position. CHK covers VLD too, so a word is
checked first; one that checks with VLD 0, or that meets no slot in flight, carries no result. -/
def execCascadeResultWord (w : BitVec 64) (s : State) : Host.Outcome State Fault Refusal :=
  let n := w.toNat
  if !s.asa.casEn then .next s
  else if bits n 31 28 = casChk n then
    let s := { s with asa := { s.asa with chkRun := 0 } }
    match (if w.getLsbD 0 then s.asa.slots else []) with
    | [] => .next s
    | c :: rest => .next (State.casAnswer { s with asa := { s.asa with slots := rest } } c (casRead w))
  else
    let ctag := ((s.asa.slots.head?).map (·.ctag)).getD (BitVec.ofNat 4 (bits n 14 11))
    let s := (s.cascadeErr (s.casIdOf ctag)).count ctrCasChk
    let s : State := match s.asa.slots with
      | [] => s
      | c :: rest => State.casAnswer { s with asa := { s.asa with slots := rest } } c (casMiss true)
    let s : State := { s with asa := { s.asa with chkRun := s.asa.chkRun + 1 } }
    .next (if 3 ≤ s.asa.chkRun then s.breakCascade else s)

/-- Whether this engine has a position beyond it. -/
def State.casBeyond (s : State) : Bool := decide (s.asa.casPos.toNat + 1 < s.asa.casDepth.toNat)

/-- ASA_KEY (R365; 18 R540): a member searches its pod and sends the key on; the tail answers at once. -/
def execAsaKey (m : RelayMsg) (s : State) : Host.Outcome State Fault Refusal :=
  let ok (p : Bytes) : Bool := fld p 0 1 < 16 && fld p 1 1 < 4 && allZero (slice p 4 12) &&
    fld p 16 40 < 2 ^ asaBits (fld p 1 1) && fld p 56 40 < 2 ^ asaBits (fld p 1 1)
  .next (s.receiveLen m 0x28 96 ok fun s =>
    if !s.asa.casEn || s.asa.casPos = 0 || s.asa.broken then s
    else
      let p := m.payload
      let key := BitVec.ofNat 320 (fld p 16 40)
      let mask := BitVec.ofNat 320 (fld p 56 40)
      let pod := (List.find? (fun e => e.2.st == PodState.serving && e.2.casId == some m.tag) s.asa.pods).map (·.2)
      let mine := (pod.map fun x => x.answer key mask).getD (asaAnswer false 0 true 0 0 0)
      let c : CasSlot := { live := true, ctag := BitVec.ofNat 4 (fld p 0 1), key := key, mask := mask, mine := mine }
      if s.casBeyond then
        State.sendLink { s with asa := { s.asa with slots := s.asa.slots ++ [c] } } Config.cascadeDown 0x28 m.tag p
      else s.casAnswer c (casMiss false))

/-! ### ASA_CTRL (R364, R368; 18 R540) -/

def casCtrlOk (op : Byte) (p : Bytes) : Bool := p.headD 0xFF == op && fld p 1 1 < 16 && fld p 2 1 < 8 && allZero (p.drop 3)

/-- ASA_CTRL REGISTER (R364): a member notes the CTAG, sends it on, and answers READY once it can. -/
def execAsaRegister (m : RelayMsg) (s : State) : Host.Outcome State Fault Refusal :=
  .next (s.receiveLen m 0x29 16 (casCtrlOk 0) fun s =>
    if !s.asa.casEn || s.asa.casPos = 0 then s
    else
      let g : Ctag := { casId := m.tag, query := none, ready := [], closed := false }
      let s := { s with asa := { s.asa with members := AMap.insert s.asa.members (BitVec.ofNat 4 (fld m.payload 1 1)) g } }
      let s := if s.casBeyond then s.sendLink Config.cascadeDown 0x29 m.tag m.payload else s
      s.answerReady)

/-- ASA_CTRL READY (R364): the head notes the member; a member sends it on toward the head. -/
def execAsaReady (m : RelayMsg) (s : State) : Host.Outcome State Fault Refusal :=
  .next (s.receiveLen m 0x29 16 (casCtrlOk 1) fun s =>
    let ctag := BitVec.ofNat 4 (fld m.payload 1 1)
    let pos := BitVec.ofNat 3 (fld m.payload 2 1)
    if !s.asa.casEn then s
    else if s.asa.casPos = 0 then
      { s with asa := { s.asa with
        ctags := AMap.update s.asa.ctags ctag fun g =>
          if g.casId = m.tag && !g.ready.contains pos then { g with ready := pos :: g.ready } else g } }
    else s.sendLink Config.cascadeUp 0x29 m.tag m.payload)

/-- ASA_CTRL CLOSE (R368): a member forgets the CTAG, sends the message on, and its query may reach DONE. -/
def execAsaClose (m : RelayMsg) (s : State) : Host.Outcome State Fault Refusal :=
  .next (s.receiveLen m 0x29 16 (casCtrlOk 2) fun s =>
    if !s.asa.casEn || s.asa.casPos = 0 then s
    else
      let s := { s with asa := { s.asa with members := s.asa.members.filter fun e =>
        !(e.1 == BitVec.ofNat 4 (fld m.payload 1 1) && e.2.casId == m.tag) } }
      let s := if s.casBeyond then s.sendLink Config.cascadeDown 0x29 m.tag m.payload else s
      { s with queries := s.queries.map fun q =>
        match q.image with
        | some im => { q with closes := dedup (q.closes ++ (im.cascades.filter fun e => e.2 == m.tag).map fun e => BitVec.ofNat 8 e.1) }
        | none => q })

end Sys2Proof.Machine
end

