-- ==== Sys2Proof/Machine/Pair.lean ====
section
/-! DEFINITION. The mirrored pair (18 R541-R553): roles, the loss decision, mirrored commits, forwarded writes, the
table directory, and the fetching of segment bytes. -/

namespace Sys2Proof.Machine

/-! ### Roles -/

/-- Whether this engine's serial number is the lower of the pair; false while the partner's is not known. -/
def State.lowerSerial (s : State) : Bool :=
  match (s.link 0).serial with
  | some p => bytesLt (leBytes 16 Config.serial.toNat) (leBytes 16 p.toNat)
  | none => false

def State.setRole (s : State) (r : Role) : State := { s with pair := { s.pair with role := r } }

/-- Every table's name: what the lead's directory holds when a pair forms (R542). -/
def State.allTables (s : State) : List (BitVec 8 × BitVec 16) := s.store.tables.map (·.1)

/-- The engine is PAIRED: counts begin again, the fence is released, the directory is the tables there are (R539,
R541, R542, R546). -/
def State.becomePaired (s : State) (lead : Bool) : State :=
  { s with
    pair := { s.pair with
      role := .paired, lead := lead, fenceDriven := false, fenceIn := false, takeoverDue := false, fenceWait := false
      mseq := 0, fwdId := 0, syncTo := none, partnerCount := s.store.jpos
      directory := if lead then s.allTables else [] }
    insts := s.insts.mapVals fun _ v => { v with unsynced := false } }

/-- What a SOLO engine takes on (R550): it is home for every table, holds the directory, and counts EPOCH up; writes
that waited for the partner go on without it, what it had sent in part is discarded; repairs and a rebuild by the partner end
(16 R494). -/
def State.becomeSolo (s : State) : State :=
  let s := s.setLink 0 { s.link 0 with frags := [] }
  let s := { s with
    pair := { s.pair with
      role := .solo, lead := true, fenceDriven := true, takeoverDue := true, fenceWait := false, syncTo := none
      epoch := s.pair.epoch + 1, directory := s.allTables, fetches := [] }
    store := { s.store with tables := s.store.tables.mapVals fun _ t => { t with home := true } } }
  let s := s.setWrites fun w =>
    if w.phase == .committed then { w with applied := true, partnerDurable := true }
    else if w.phase == .forwarded || w.phase == .admitting then { w with phase := .built, fwdId := none, reqId := none }
    else w
  let waiting := s.store.segs.flatMap fun e => e.2.repair.map fun l => (e.1, l)
  let s := forEach waiting s fun s e => s.modSeg e.1 fun g => { g with repair := [], poison := e.2 :: g.poison }
  let s := match s.dram.rebuilding with
    | some ch => s.rebuildLost ch
    | none => s
  s.settleWrites.settleFlushes

/-- What an engine that enters FENCED does (R551): outstanding I/O commands and queries end without report, which ends the drain of
an SQ (03 R95); its admin queues serve on. -/
def State.becomeFenced (s : State) : State :=
  let mine := (s.insts.filter fun e => e.2.st != .absent).map (·.1)
  let s := forEach mine s fun s i => (s.stopWrites i []).dropQueries i
  let io (c : Cmd) : Bool := c.tag.sqid != 0
  let s := { s with
    rings := { s.rings with
      cmds := s.rings.cmds.filter fun c => !io c
      batches := s.rings.batches.filter fun b => b.sqid == 0
      sqs := s.rings.sqs.mapVals fun k q => if k.2 = 0 then q else { q with openBatch := none }
      cqs := s.rings.cqs.mapVals fun _ q => { q with ready := q.ready.filter fun c => c.sqid == 0 } }
    store := { s.store with flushes := [], reads := [] }
    pair := { s.pair with role := .fenced, lead := false, fenceWait := false, takeoverDue := false, syncTo := none } }
  let s := s.dropJobs fun o => match o with
    | .cmd t => t.sqid != 0
    | .page _ _ _ => false
  let s := forEach s.rings.sqs s fun s e => s.drainCheck e.1.1 e.1.2
  (s.raiseDevice 257 0xFF 0 0).raiseAll 521 0

/-- "Fence": drive PAIR_FENCE low if it is high and become SOLO, else become FENCED (R549). -/
def State.fence (s : State) : State := if s.pair.fenceIn then s.becomeFenced else s.becomeSolo

/-- The loss decision (R549). -/
def State.lossDecision (s : State) : State :=
  if s.lowerSerial then s.fence
  else if s.pair.aliveIn then s.becomeFenced
  else { s with pair := { s.pair with fenceWait := true } }

/-- PEER_LOST (R546, R547). -/
def execPeerLost (s : State) : Host.Outcome State Fault Refusal :=
  if s.ready && s.pair.role == .paired && !s.pair.fenceWait then .next s.lossDecision else .next s

/-- JOINING_TIMEOUT (R546): P0 is not UP 50 ms after its training began. -/
def execJoiningTimeout (s : State) : Host.Outcome State Fault Refusal :=
  if s.working && s.pair.role == .joining && !s.linkUp 0 && !s.pair.fenceWait then .next s.lossDecision else .next s

/-- FENCE_DELAY (R549): the higher serial's wait ends, and it fences. -/
def execFenceDelay (s : State) : Host.Outcome State Fault Refusal :=
  if s.working && s.pair.fenceWait then .next s.fence else .next s

/-- PAIR_TAKEOVER (R549, R553): raised after the SOLO engine drove PAIR_FENCE low. -/
def execPairTakeover (s : State) : Host.Outcome State Fault Refusal :=
  if s.working && s.pair.takeoverDue && s.pair.role == .solo then
    let s := { s with pair := { s.pair with takeoverDue := false } }
    .next ((s.raiseDevice 256 0xFF 0 0).raiseAll 520 0)
  else .next s

/-- PAIR_FENCE_LOW (R546, R551): the line is seen low while this engine does not drive it. -/
def execPairFenceLow (s : State) : Host.Outcome State Fault Refusal :=
  if !s.working || s.pair.fenceDriven then .next s
  else
    let s := { s with pair := { s.pair with fenceIn := true } }
    .next (if s.pair.role == .paired || s.pair.role == .syncing then s.becomeFenced else s)

/-- PEER_ALIVE_TOGGLE (R548): the output toggles while the engine is serving. -/
def execPeerAliveToggle (s : State) : Host.Outcome State Fault Refusal :=
  if s.ready && s.pair.aliveRun then .next { s with pair := { s.pair with aliveOut := !s.pair.aliveOut } }
  else .next s

/-- PEER_ALIVE_LOSS (R548): no edge of the partner's signal for 50 µs. -/
def execPeerAliveLoss (s : State) : Host.Outcome State Fault Refusal :=
  .next { s with pair := { s.pair with aliveIn := false } }

/-! ### Heartbeats and resynchronising (R538, R546, R547, R552) -/

/-- HEARTBEAT_SEND (R538, R547). -/
def execHeartbeatSend (s : State) : Host.Outcome State Fault Refusal :=
  let p := s.pair
  if s.linkUp 0 && s.ready && (p.role == .joining || p.role == .syncing || p.role == .paired || p.role == .solo) then
    let b := [BitVec.ofNat 8 p.role.code, BitVec.ofNat 8 (Bool.asNat s.glb.fetchPaused + 2 * Bool.asNat p.lead), 0, 0] ++
      leBytes 4 p.epoch.toNat ++ leBytes 8 s.durableJpos.toNat ++ leBytes 8 s.time.toNat ++ zeros 8
    .next ({ s with pair := { p with hbCount := p.hbCount + 1 } }.sendLink 0 0x01 p.hbCount b)
  else .next s

/-- Records that say again what a table and its segments are, for a partner that lacks more than the journal holds (R552). -/
def stateRecord (s : State) (i : BitVec 8) (tid : BitVec 16) (t : Table) : List Bytes :=
  let w : Write := { mkWrite ⟨i, 0, 0⟩ .create tid 0 false with cols := t.cols, epoch := s.pair.epoch, cseq := 1 }
  commitPayload w false 0 true ::
  t.cells.filterMap fun c => (s.seg? c.2).map fun g =>
    commitPayload { mkWrite ⟨i, 0, 0⟩ .install tid 0 false with
      col := c.1.1, slot := c.1.2, seg := g.bytes, rows := g.rows, epoch := g.epoch, cseq := g.cseq } false 0 true

/-- Whether a journalled record drops a table that no longer exists. -/
def State.dropRecord (s : State) (bs : Bytes) : Bool :=
  fld bs 1 1 == 3 && (s.table? (BitVec.ofNat 8 (fld bs 0 1)) (BitVec.ofNat 16 (fld bs 2 2))).isNone

/-- The records a partner at a journal position lacks, or may lack. The journal keeps every commit that the partner has not reported
durable, so a partner that holds as many commits as have left it lacks none but those in it; their order is the home order of
each table, and one it holds already changes nothing in the end. A partner that holds less is told the whole state, after the
drops that are still in the journal. -/
def State.lacking (s : State) (pj : BitVec 64) : List Bytes :=
  if pj == s.store.jpos && s.store.journal.isEmpty then []
  else if s.store.jpos.toNat ≤ pj.toNat + s.store.journal.length then s.store.journal.map (·.2)
  else (s.store.journal.map (·.2)).filter s.dropRecord ++
    s.store.tables.reverse.flatMap fun e => stateRecord s e.1.1 e.1.2 e.2

/-- The governing engine brings a SYNCING partner up to its own copy; with nothing lacking the pair is formed. -/
def State.resyncPartner (s : State) (pj : BitVec 64) : State :=
  let l := s.lacking pj
  let s := { s with pair := { s.pair with lead := true, mseq := 0 } }
  if l.isEmpty then s.becomePaired true
  else
    let s := forEach l s fun s b =>
      let s := s.sendPair 0x10 s.pair.mseq b
      { s with pair := { s.pair with mseq := s.pair.mseq + 1 } }
    { s with pair := { s.pair with syncTo := some (s.pair.mseq - 1) } }

/-- This engine's copy is behind: commits that were not confirmed are rolled back, and every instance is unsynced
(R552). -/
def State.beginSync (s : State) : State :=
  let gone := s.store.writes.filter fun w => w.phase == .committed && !w.applied
  let s := s.rollBackAll gone
  let s := { s with
    store := { s.store with
      writes := s.store.writes.filter fun w => !(w.phase == WritePhase.committed && !w.applied)
      tables := s.store.tables.mapVals fun _ t => { t with home := false } }
    insts := s.insts.mapVals fun _ v => if v.st == InstState.absent then v else { v with unsynced := true }
    pair := { s.pair with role := .syncing, lead := false, fenceIn := false } }
  s.gcSegs

/-- What a heartbeat of the partner's role, EPOCH and JPOS means for this engine's role (R546, R552). -/
def State.pairEvent (s : State) (role : Nat) (epoch : BitVec 32) (jpos : BitVec 64) : State :=
  let behind : Bool := s.pair.epoch.ult epoch || (s.pair.epoch == epoch && s.store.jpos.ult jpos)
  let same : Bool := s.pair.epoch == epoch && s.store.jpos == jpos
  match s.pair.role with
  | .joining =>
    if role = 4 then s.beginSync
    else if role = 1 then
      if same then s.becomePaired s.lowerSerial else if behind then s.beginSync else s
    else if role = 2 && s.pair.syncTo.isNone then s.resyncPartner jpos
    else if role = 3 && same then s.becomePaired s.lowerSerial
    else s
  | .fenced => if role = 4 then s.beginSync else s
  | .solo => if role = 2 && s.pair.syncTo.isNone then s.resyncPartner jpos else s
  | .syncing =>
    if role = 3 then
      let s := { s with pair := { s.pair with epoch := epoch }, store := { s.store with jpos := jpos } }
      (s.becomePaired false).raiseDevice 258 0xFF 0 0
    else s
  | .paired | .single => s

/-- HEARTBEAT (R538, R546, R547, R552). -/
def execHeartbeat (m : RelayMsg) (s : State) : Host.Outcome State Fault Refusal :=
  let ok (p : Bytes) : Bool := fld p 0 1 ≤ 5 && fld p 1 1 < 4 && fld p 2 2 == 0 && fld p 24 8 == 0
  .next (s.receiveLen m 0x01 32 ok fun s =>
    let p := m.payload
    let s := { s with pair := { s.pair with
      aliveIn := true, partnerPause := bit (fld p 1 1) 0, partnerJpos := BitVec.ofNat 64 (fld p 8 8) } }
    s.pairEvent (fld p 0 1) (BitVec.ofNat 32 (fld p 4 4)) (BitVec.ofNat 64 (fld p 8 8)))

/-! ### Mirrored commits (R539, R544) -/

/-- A commit header and body read (R539); none where they break the layout or the CRC. -/
def parseCommit (bs : Bytes) (mirror : Bool) : Option Write :=
  let kind := fld bs 1 1
  let cell : Bool := kind ≤ 1
  let body := bs.drop 64
  let flags := fld bs 6 2
  let good : Bool := decide (64 ≤ bs.length) && decide (kind ≤ 3) && fld bs 4 2 < 4096 && (cell || fld bs 4 2 == 0) &&
    flags < 4 && (mirror || !(bit flags 0)) && fld bs 8 4 < 2 ^ 20 && (cell || fld bs 8 4 == 0) &&
    (mirror || (fld bs 12 4 == 0 && fld bs 16 8 == 0)) && fld bs 24 4 == body.length &&
    (kind == 0 || fld bs 28 4 == 0) && (bit flags 0 || fld bs 32 4 == 0) &&
    (if kind = 2 then body.length % 4 == 0 else if kind = 0 then true else body.isEmpty) &&
    allZero (slice bs 40 24) && fld bs 36 4 == (crc32c (bs.take 36 ++ body)).toNat
  if !good then none
  else
    let cols := if kind = 2 then parseCols body else some []
    cols.map fun cols =>
      { mkWrite ⟨BitVec.ofNat 8 (fld bs 0 1), 0, 0⟩
          (match kind with
            | 0 => .install
            | 1 => .empty
            | 2 => .create
            | _ => .drop) (BitVec.ofNat 16 (fld bs 2 2)) 0 (bit flags 1) with
        tag := none, col := BitVec.ofNat 12 (fld bs 4 2), slot := BitVec.ofNat 20 (fld bs 8 4)
        seg := if kind = 0 then body else [], rows := fld bs 28 4, cols := cols
        epoch := BitVec.ofNat 32 (fld bs 12 4), cseq := BitVec.ofNat 64 (fld bs 16 8)
        fwdId := if bit flags 0 then some (BitVec.ofNat 32 (fld bs 32 4)) else none }

/-- The answer to a commit or to a refused forward (R539). -/
def State.sendApplied (s : State) (tag : BitVec 32) (w : Write) (fwd : Bool) (status : BitVec 15) : State :=
  s.sendLink 0 0x11 tag ([w.inst, BitVec.ofNat 8 (Bool.asNat fwd)] ++ leBytes 2 w.tid.toNat ++ leBytes 2 status.toNat ++
    [0, 0] ++ leBytes 4 (if fwd then 0 else w.epoch.toNat) ++ zeros 4 ++
    leBytes 8 (if fwd then 0 else w.cseq.toNat) ++ zeros 8)

/-- A partner's record is applied to this copy in the home's order: its segment keeps the commit's EPOCH and CSEQ, and what it found
there is the RESULT of a forwarded write of this engine (04 R124). While this engine syncs, a record that creates a table it holds
begins that table afresh: the records that follow are all the table's (R552). -/
def State.applyMirror (s : State) (w : Write) (mine : Option Write) : State :=
  let s := if s.pair.role == .syncing && w.kind == .create then
      { s with store := { s.store with tables := AMap.erase s.store.tables (w.inst, w.tid) } } else s
  let t := s.table? w.inst w.tid
  let w1 := { w with boundGen := (t.map (·.gen)).getD 0, result := (mine.map Write.result).getD 0 }
  match s.applyRecord w1 with
  | .error _ => s
  | .ok (s1, result, undoCell, undoTable) =>
    let fix (t : Table) : Table := { t with cseq := w.cseq, home := if w.kind = .create then mine.isSome else t.home }
    let stamp (g : Segment) : Segment := { g with epoch := w.epoch, cseq := w.cseq }
    let s2 := { s1 with store := { s1.store with
      tables := AMap.update s1.store.tables (w.inst, w.tid) fix
      segs := if w.kind = WriteKind.install then AMap.update s1.store.segs s.store.nextSeg stamp else s1.store.segs
      nextWrite := s1.store.nextWrite + 1, jpos := s1.store.jpos + 1 } }
    let tag := mine.bind (·.tag)
    let w2 := { w1 with
      no := s1.store.nextWrite, tag := tag, fua := w.fua, phase := .committed, jpos := s2.store.jpos, seg := []
      pjpos := s.pair.partnerCount + 1, applied := true, result := result
      undoCell := undoCell, undoTable := undoTable, completed := tag.isNone }
    let s3 := s2.addWrite w2
    let s4 := { s3 with
      store := { s3.store with journal := s3.store.journal ++ [(w2.jpos, commitPayload w false 0 true)] }
      pair := { s3.pair with partnerCount := s3.pair.partnerCount + 1 } }
    s4.settleWrites

/-- MIRROR_COMMIT (R544): applied and answered; one that carries a forwarded write of this engine completes it. -/
def execMirrorCommit (m : RelayMsg) (s : State) : Host.Outcome State Fault Refusal :=
  .next (s.receiveFrag m 0x10 65520 fun bs s =>
    match parseCommit bs true with
    | none => s.protocolError m.port
    | some w =>
      let mine := w.fwdId.bind fun id => s.store.writes.find? fun x => x.phase == .forwarded && x.fwdId == some id
      let s := { s with store := { s.store with writes := s.store.writes.filter fun x => some x != mine } }
      let s := if w.kind = .drop then { s with pair := { s.pair with
          directory := s.pair.directory.filter (· ≠ (w.inst, w.tid)) } } else s
      (s.applyMirror w mine).sendApplied m.tag w false stOk)

/-- MIRROR_APPLIED (R539, R543, R544): a commit is applied by the partner, or a forwarded write was refused. -/
def execMirrorApplied (m : RelayMsg) (s : State) : Host.Outcome State Fault Refusal :=
  let ok (p : Bytes) : Bool := fld p 1 1 < 2 && fld p 6 2 == 0 && fld p 12 4 == 0 && fld p 24 8 == 0 &&
    fld p 4 2 < 2 ^ 15 && (bit (fld p 1 1) 0 || fld p 4 2 == 0)
  .next (s.receiveLen m 0x11 32 ok fun s =>
    if bit (fld m.payload 1 1) 0 then
      match s.store.writes.find? fun x => x.phase == .forwarded && x.fwdId == some m.tag with
      | none => s
      | some w =>
        let s := { s with store := { s.store with writes := s.store.writes.filter (· ≠ w) } }
        match w.tag with
        | some t => s.finish t (BitVec.ofNat 15 (fld m.payload 4 2)) 0
        | none => s
    else
      let n := s.pair.partnerCount + 1
      let hit (x : Write) : Bool := x.phase == .committed && x.mseq == some m.tag && !x.applied
      let s := { s with pair := { s.pair with partnerCount := n } }
      let s := s.setWrites fun x => if hit x then { x with applied := true, pjpos := n } else x
      let s := s.settleWrites
      if s.pair.syncTo = some m.tag then (s.becomePaired true) else s)

/-- MIRROR_DURABLE (R544): the partner's copy is durable up to a position of its journal. -/
def execMirrorDurable (m : RelayMsg) (s : State) : Host.Outcome State Fault Refusal :=
  .next (s.receiveLen m 0x12 16 (fun p => fld p 12 4 == 0) fun s =>
    let j := BitVec.ofNat 64 (fld m.payload 0 8)
    let hit (w : Write) : Bool := w.phase == .committed && w.pjpos != 0 && w.pjpos.ule j
    let done := (s.store.writes.filter fun w => hit w).map (·.jpos)
    let s := s.setWrites fun w => if hit w then { w with partnerDurable := true } else w
    let s := { s with
      store := { s.store with journal := s.store.journal.filter fun e => !(done.contains e.1) }
      pair := { s.pair with partnerJpos := j } }
    s.settleWrites.settleFlushes)

/-- Whether the engine that forwards a write cannot have bound it to the table its TID names here: it has not applied that table's
creation yet (04 R114). -/
def State.forwardStale (s : State) (w : Write) : Bool :=
  s.mirrors && s.store.writes.any fun x =>
    x.kind == .create && x.phase == .committed && !x.applied && x.inst == w.inst && x.tid == w.tid

/-- FORWARD (R539, R543): a write the other engine received, ordered, committed and mirrored here, or refused. -/
def execForward (m : RelayMsg) (s : State) : Host.Outcome State Fault Refusal :=
  .next (s.receiveFrag m 0x13 65520 fun bs s =>
    match parseCommit bs false with
    | none => s.protocolError m.port
    | some w =>
      let refuse (st : BitVec 15) (s : State) : State := s.sendApplied m.tag w true st
      let pages := ceilDiv w.seg.length 65536
      let fits : Bool := match w.kind with
        | .install => s.quotaFits w.inst pages 1 0
        | .create => s.quotaFits w.inst 0 0 1
        | _ => true
      if s.forwardStale w then refuse stFieldInvalid s
      else if !fits then refuse stQuota s
      else
        let w := { w with boundGen := ((s.table? w.inst w.tid).map (·.gen)).getD 0, fwdId := some m.tag, completed := true }
        (s.addWrite w).commitWrite w true m.tag refuse)

/-! ### The directory (R539, R542) -/

def dirFields (op : Nat) (p : Bytes) : Bool := fld p 0 1 == op && fld p 4 12 == 0
def dirName (p : Bytes) : BitVec 8 × BitVec 16 := (BitVec.ofNat 8 (fld p 1 1), BitVec.ofNat 16 (fld p 2 2))

/-- DIRECTORY_REQUEST (R542): the lead admits a table number, or refuses one that is taken or whose instance is ABSENT
here. -/
def execDirectoryRequest (m : RelayMsg) (s : State) : Host.Outcome State Fault Refusal :=
  .next (s.receiveLen m 0x14 16 (dirFields 0) fun s =>
    let n := dirName m.payload
    let answer (op : BitVec 8) (s : State) : State := s.sendLink 0 0x14 m.tag (op :: m.payload.drop 1)
    if !s.pair.lead then s
    else if s.pair.directory.contains n || (s.inst n.1).st == .absent then answer 2 s
    else answer 1 { s with pair := { s.pair with directory := n :: s.pair.directory } })

/-- DIRECTORY_ADMIT (R542, 04 R141): the admitted TABLE_CREATE commits; an admission that comes to nothing, or that nothing waits
for any longer, is given back. -/
def execDirectoryAdmit (m : RelayMsg) (s : State) : Host.Outcome State Fault Refusal :=
  .next (s.receiveLen m 0x14 16 (dirFields 1) fun s =>
    match s.store.writes.find? fun w => w.phase == .admitting && w.reqId == some m.tag with
    | some w => s.commitOwn w fun st s =>
        let s := s.sendLink 0 0x14 m.tag (3 :: m.payload.drop 1)
        match w.tag with
        | some t => s.finish t st 0
        | none => s
    | none => s.sendLink 0 0x14 m.tag (3 :: m.payload.drop 1))

/-- DIRECTORY_REFUSE (R542): the other engine's create came first. -/
def execDirectoryRefuse (m : RelayMsg) (s : State) : Host.Outcome State Fault Refusal :=
  .next (s.receiveLen m 0x14 16 (dirFields 2) fun s =>
    match s.store.writes.find? fun w => w.phase == .admitting && w.reqId == some m.tag with
    | some w =>
      let s := { s with store := { s.store with writes := s.store.writes.filter (· ≠ w) } }
      match w.tag with
      | some t => s.finish t stFieldInvalid 0
      | none => s
    | none => s)

/-- DIRECTORY_RELEASE (R539): a TABLE_DROP committed and frees its number. -/
def execDirectoryRelease (m : RelayMsg) (s : State) : Host.Outcome State Fault Refusal :=
  .next (s.receiveLen m 0x14 16 (dirFields 3) fun s =>
    { s with pair := { s.pair with directory := s.pair.directory.filter (· ≠ dirName m.payload) } })

/-! ### Segment bytes (R539, R545; 16 R474, R494) -/

/-- FETCH_REQ (R545): answered with the bytes of the version named, or with what is amiss. -/
def execFetchReq (m : RelayMsg) (s : State) : Host.Outcome State Fault Refusal :=
  let ok (p : Bytes) : Bool := fld p 1 1 == 0 && fld p 4 2 < 4096 && fld p 6 2 == 0 && fld p 8 4 < 2 ^ 20 &&
    fld p 12 4 % 64 == 0 && fld p 16 4 % 64 == 0 && decide (64 ≤ fld p 16 4) && decide (fld p 16 4 ≤ 4194304) &&
    allZero (slice p 32 16)
  .next (s.receiveLen m 0x30 48 ok fun s =>
    let p := m.payload
    let off := fld p 12 4
    let len := fld p 16 4
    let wanted (e : Nat × Segment) : Bool := e.2.inst.toNat == fld p 0 1 && e.2.epoch.toNat == fld p 20 4 &&
      e.2.cseq.toNat == fld p 24 8 &&
      (match s.segName? e.1 with
        | some (tid, col, slot, _) => tid.toNat == fld p 2 2 && col.toNat == fld p 4 2 && slot.toNat == fld p 8 4
        | none => false)
    let answer (st : BitVec 15) (bs : Bytes) : State :=
      forEach (fragments 65520 (leBytes 2 st.toNat ++ zeros 2 ++ leBytes 4 bs.length ++ zeros 8 ++ bs)) s fun s f =>
        s.sendLink m.port 0x31 m.tag f
    match List.find? wanted s.store.segs with
    | none => answer stFieldInvalid []
    | some (_, g) =>
      let lines := (List.range (len / 64)).map (· + off / 64)
      if g.bytes.length < off + len then answer stFieldInvalid []
      else if g.lost || g.rebuild || lines.any fun l => g.poison.contains l || g.repair.contains l then
        answer stDataLost []
      else answer stOk (slice g.bytes off len))

/-- A segment fetched whole (16 R494). -/
def State.rebuilt (s : State) (n : Nat) (bs : Option Bytes) : State :=
  match AMap.find? s.store.segs n with
  | none => s.rebuildCheck
  | some g =>
    if !g.rebuild then s.rebuildCheck
    else match bs with
      | some b =>
        let s := s.modSeg n fun g => { g with bytes := b, rebuild := false }
        State.rebuildCheck { s with dram := { s.dram with rebuilt := s.dram.rebuilt + 1 } }
      | none =>
        let current := (s.segName? n).any (·.2.2.2)
        (s.modSeg n fun g =>
          if current then { g with rebuild := false, lost := true }
          else { g with rebuild := false, poison := g.lines }).rebuildCheck

/-- FETCH_DATA (R545): bytes for a repair or a rebuild, or a status instead (16 R474, R494). -/
def execFetchData (m : RelayMsg) (s : State) : Host.Outcome State Fault Refusal :=
  .next (s.receiveFrag m 0x31 65520 fun bs s =>
    let st := fld bs 0 2
    let len := fld bs 4 4
    let bad : Bool := bs.length < 16 || fld bs 2 2 != 0 || fld bs 8 8 != 0 || bs.length != 16 + len ||
      !([0x0000, 0x1001, 0x0801].contains st) || (st != 0 && len != 0)
    if bad then s.protocolError m.port
    else
      let data : Option Bytes := if st = 0 then some (bs.drop 16) else none
      let s1 := { s with pair := { s.pair with fetches := AMap.erase s.pair.fetches m.tag } }
      match AMap.find? s.pair.fetches m.tag with
      | none => s
      | some (.repair n l ch rank d1) =>
        let s2 := s1.modSeg n fun g => { g with repair := g.repair.filter (· ≠ l) }
        match data with
        | some b =>
          ((s2.modSeg n fun g => { g with bytes := overlay g.bytes (64 * l) b, poison := g.poison.filter (· ≠ l) }).count
            (ctrDramUe ch rank)).dramEvent 66 ch (rank.setWidth 8) d1
        | none =>
          ((s2.modSeg n fun g => { g with poison := l :: g.poison }).count (ctrDramUe ch rank)).dramEvent 67 ch
            (rank.setWidth 8) d1
      | some (.rebuild n) => s1.rebuilt n data)

end Sys2Proof.Machine
end

