-- ==== Sys2Proof/Machine/Discovery.lean ====
section
/-! DEFINITION. Peer links and discovery (18 R532, R538, R554-R558): IDENT, the loss of a link, the Baton, DISC_END, and
TOPOLOGY_CONFLICT. -/

namespace Sys2Proof.Machine

/-! ### Links (R532, R538, R558) -/

/-- The chain ports. -/
def chainPorts : List (BitVec 2) := [1, 2, 3]
def State.upPorts (s : State) : List (BitVec 2) := chainPorts.filter s.linkUp
def State.setDisc (s : State) (d : Discovery) : State := { s with disc := d }

/-- The IDENT this engine sends on a port. -/
def State.identBytes (s : State) (port : BitVec 2) : Bytes :=
  leBytes 16 Config.serial.toNat ++
    [BitVec.ofNat 8 (Bool.asNat s.glb.straps.pairEn + 2 * Bool.asNat s.glb.straps.rootN), port.setWidth 8, 1, 0] ++
    leBytes 4 s.fw.running.toNat ++ zeros 8

/-- Whether IDENT's fields keep its layout. -/
def identOk (p : Bytes) : Bool :=
  p.length == 32 && fld p 16 1 < 4 && fld p 17 1 < 4 && allZero (slice p 24 8)

/-- IDENT (R532, R538): the link comes UP, and is new; with another RVER it carries no traffic. -/
def execIdent (m : RelayMsg) (s : State) : Host.Outcome State Fault Refusal :=
  let l := s.link m.port
  if !s.working || (l.st ≠ .up && l.st ≠ .training) then .next s
  else if !identOk m.payload || m.tag ≠ 0 then .next (s.protocolError m.port)
  else if fld m.payload 18 2 ≠ 1 then
    .next ((s.setLink m.port { l with st := .training, frags := [] }).protocolError m.port)
  else
    let serial := some (BitVec.ofNat 128 (fld m.payload 0 16))
    if l.st = .up then .next (s.setLink m.port { l with serial := serial })
    else
      let s := s.setLink m.port { st := .up, serial := serial, frags := [] }
      let s := if m.port = 0 then { s with pair := { s.pair with hbCount := 0 } }
        else if s.disc.dseq = 0 then s.setDisc { s.disc with nodeId := none }
        else s
      .next (s.sendLink m.port 0x02 0 (s.identBytes m.port))

/-- What waits for the partner's bytes gets none: lines are poisoned, a rebuild fails (16 R474, R494). -/
def State.dropFetches (s : State) : State :=
  let s := { s with pair := { s.pair with fetches := [] } }
  let waiting := s.store.segs.flatMap fun e => e.2.repair.map fun l => (e.1, l)
  let s := forEach waiting s fun s e => s.modSeg e.1 fun g => { g with repair := [], poison := e.2 :: g.poison }
  match s.dram.rebuilding with
  | some ch => s.rebuildLost ch
  | none => s

/-- The queries of exchanges that a test names stop with DATA_LOST (10 R329). -/
def State.stopXchs (s : State) (f : Xch → Bool) : State :=
  forEach ((s.pair.xchs.filter f).map (·.query)) s fun s t => s.stopQuery t stDataLost

/-- Whether the cascade's path leads over a port (11 R362, R367). -/
def State.cascadeOn (s : State) (port : BitVec 2) : Bool :=
  s.asa.casEn && ((s.casBeyond && port == Config.cascadeDown) || (s.asa.casPos != 0 && port == Config.cascadeUp))

/-- RELAY_LINK_DOWN (R532, R547, R558): the link retrains; what came over it in part is lost; exchanges and the cascade whose
path it carries stop; on P0 the peer is lost. -/
def execRelayLinkDown (port : BitVec 2) (s : State) : Host.Outcome State Fault Refusal :=
  let l := s.link port
  if !s.working || l.st ≠ .up then .next s
  else
    let lost (x : Xch) : Bool := x.nodes.any fun n => n != s.srcNode && s.route n == some port
    let s1 := (s.setLink port { l with st := .training, frags := [] }).raiseDevice 261 0xFF (port.setWidth 64) 0
    if port = 0 then
      let s2 := { s1 with pair := { s1.pair with syncTo := none } }
      if s2.pair.role = .paired && !s2.pair.fenceWait then .next s2.lossDecision.dropFetches else .next s2.dropFetches
    else
      let s2 := s1.stopXchs lost
      .next (if s.cascadeOn port then s2.breakCascade else s2)

/-! ### Conflicts (R557) -/

/-- CONFLICT sent on links. -/
def State.floodConflict (s : State) (ports : List (BitVec 2)) : State :=
  forEach ports s fun s p => s.sendLink p 0x05 0 (1 :: zeros 15 ++ leBytes 16 s.disc.rootSerial.toNat)

/-- The engine enters TOPOLOGY_CONFLICT: it has no node ID. -/
def State.enterConflict (s : State) : State :=
  if s.disc.conflict then s
  else (s.setDisc { s.disc with nodeId := none, conflict := true, waitPort := none }).raiseDevice 260 0xFF 0 0

/-- CONFLICT (R538, R557): flooded on, once. -/
def execConflict (m : RelayMsg) (s : State) : Host.Outcome State Fault Refusal :=
  .next (s.receiveLen m 0x05 32 (fun p => p.headD 0 == 1 && allZero (slice p 1 15)) fun s =>
    if s.disc.conflict then s
    else (s.floodConflict (s.upPorts.filter (· ≠ m.port))).enterConflict)

/-! ### The Baton (R538, R555) -/

/-- A Baton. -/
def batonBytes (root : BitVec 128) (nextId subtree kind : Nat) : Bytes :=
  leBytes 16 root.toNat ++ leBytes 2 nextId ++ leBytes 2 subtree ++ leBytes 1 kind ++ zeros 11

def State.sendBaton (s : State) (port : BitVec 2) (nextId subtree kind : Nat) : State :=
  s.sendLink port 0x03 s.disc.dseq (batonBytes s.disc.rootSerial nextId subtree kind)

/-- A Baton of a kind keeps its layout. -/
def batonOk (kind : Nat) (p : Bytes) : Bool :=
  fld p 20 1 == kind && fld p 16 2 ≤ 4096 && (kind == 1 || fld p 18 2 == 0) && allZero (slice p 21 11)

def State.isRoot (s : State) : Bool := !s.glb.straps.rootN

/-- DISC_END goes down the tree, and the engine's discovery is done. -/
def State.endDiscovery (s : State) (nodes : Nat) : State :=
  let s := forEach s.disc.children s fun s c => s.sendLink c.1 0x04 s.disc.dseq (leBytes 2 nodes ++ zeros 14)
  (s.setDisc { s.disc with done := true, rediscover := false }).raiseDevice 259 0xFF 0 0

/-- The Baton goes out of the next UP port after `after` but the parent's, or, with none left, back to the parent; at the root
discovery ends. -/
def State.batonNext (s : State) (after : Nat) : State :=
  match s.upPorts.find? fun p => decide (after < p.toNat) && s.disc.parent != some p with
  | some p => (s.setDisc { s.disc with waitPort := some p }).sendBaton p s.disc.nextId 0 0
  | none =>
    let s := s.setDisc { s.disc with waitPort := none }
    match s.disc.parent with
    | some p => s.sendBaton p s.disc.nextId (s.disc.nextId - (s.disc.nodeId.map (·.toNat)).getD s.disc.nextId) 1
    | none => s.endDiscovery s.disc.nextId

/-- LINK_EN takes effect (R560). -/
def State.applyLinkEn (s : State) : State :=
  forEach chainPorts s fun s p =>
    let l := s.link p
    if s.disc.linkEn.getLsbD (p.toNat - 1) then
      if l.st = .disabled then s.setLink p { Link.down with st := .training } else s
    else s.setLink p { Link.down with st := .disabled }

/-- Before a rediscovery every registered XID and the cascade stop (R558). -/
def State.beforeDiscovery (s : State) : State :=
  let s1 := s.stopXchs fun x => decide (1 < x.nodes.length)
  if s1.asa.casEn && decide (1 < s1.asa.casDepth.toNat) then s1.breakCascade else s1

/-- BATON_START (R555 step 2): the root takes node ID 0 and sends the Baton, once for each discovery. -/
def execBatonStart (s : State) : Host.Outcome State Fault Refusal :=
  if !s.working || !s.isRoot || !(s.disc.dseq == 0 || s.disc.rediscover) || s.disc.waitPort.isSome then .next s
  else
    .next ((s.setDisc { s.disc with
      dseq := s.disc.dseq + 1, nodeId := some 0, parent := none, children := [], ring := [], rootSerial := Config.serial
      nextId := 1, done := false, conflict := false }).batonNext 0)

/-- BATON_OUT (R555 steps 3 and 4, R557). -/
def execBatonOut (m : RelayMsg) (s : State) : Host.Outcome State Fault Refusal :=
  .next (s.receiveLen m 0x03 32 (batonOk 0) fun s =>
    let root := BitVec.ofNat 128 (fld m.payload 0 16)
    let id := fld m.payload 16 2
    let answer (kind : Nat) (s : State) : State := s.sendLink m.port 0x03 m.tag (batonBytes root id 0 kind)
    if s.isRoot then
      if root = Config.serial then answer 2 s
      else ((answer 3 s).floodConflict s.upPorts).enterConflict
    else if s.disc.dseq = m.tag && s.disc.parent.isSome && !s.disc.done then answer 2 s
    else
      let s := s.beforeDiscovery.applyLinkEn
      if !s.linkUp m.port then s
      else
        let d : Discovery := { s.disc with
          dseq := m.tag, rootSerial := root, parent := some m.port, children := [], ring := [], waitPort := none, done := false }
        if id = 4096 then
          (s.setDisc { d with nextId := 4096 }).enterConflict.sendBaton m.port 4096 0 1
        else
          (s.setDisc { d with nodeId := some (BitVec.ofNat 12 id), nextId := id + 1, conflict := false }).batonNext 0)

/-- Whether a returning Baton is the one this engine waits for on a port. -/
def State.awaits (s : State) (m : RelayMsg) : Bool :=
  s.disc.waitPort == some m.port && s.disc.dseq == m.tag && fld m.payload 0 16 == s.disc.rootSerial.toNat

/-- BATON_BACK (R555 step 5): the port is a child's, with the range of its subtree. -/
def execBatonBack (m : RelayMsg) (s : State) : Host.Outcome State Fault Refusal :=
  .next (s.receiveLen m 0x03 32 (batonOk 1) fun s =>
    if !s.awaits m then s
    else
      let size := fld m.payload 18 2
      let d := s.disc
      (s.setDisc { d with
        children := if size = 0 then d.children else d.children ++ [(m.port, d.nextId, size)]
        nextId := fld m.payload 16 2 }).batonNext m.port.toNat)

/-- BATON_VISITED (R555 step 4): the port is a RING link. -/
def execBatonVisited (m : RelayMsg) (s : State) : Host.Outcome State Fault Refusal :=
  .next (s.receiveLen m 0x03 32 (batonOk 2) fun s =>
    if !s.awaits m then s
    else (s.setDisc { s.disc with ring := s.disc.ring ++ [m.port] }).batonNext m.port.toNat)

/-- BATON_CONFLICT (R557): the Baton comes back marked CONFLICT: it goes on toward its root, which floods CONFLICT. -/
def execBatonConflict (m : RelayMsg) (s : State) : Host.Outcome State Fault Refusal :=
  .next (s.receiveLen m 0x03 32 (batonOk 3) fun s =>
    if !s.awaits m then s
    else
      match s.disc.parent with
      | some p => (s.setDisc { s.disc with waitPort := none }).sendBaton p (fld m.payload 16 2) 0 3
      | none => (s.floodConflict s.upPorts).enterConflict)

/-- BATON_TIMEOUT (R554, R557): 263.84 ms after training began, an engine that has received no Baton is in conflict; one with no
UP link on P1 to P3 is a system of one, and its discovery is done. -/
def execBatonTimeout (s : State) : Host.Outcome State Fault Refusal :=
  if !s.working || s.isRoot || s.disc.dseq ≠ 0 || s.disc.done then .next s
  else if s.upPorts.isEmpty then .next ((s.setDisc { s.disc with nodeId := some 0 }).endDiscovery 1)
  else .next s.enterConflict

/-- DISC_END (R555 step 6). -/
def execDiscEnd (m : RelayMsg) (s : State) : Host.Outcome State Fault Refusal :=
  .next (s.receiveLen m 0x04 16 (fun p => allZero (p.drop 2)) fun s =>
    if s.disc.parent = some m.port && s.disc.dseq = m.tag && !s.disc.done && s.disc.nodeId.isSome then
      s.endDiscovery (fld m.payload 0 2)
    else s)

/-- A write of PEER_CTRL (R560): LINK_EN waits for the next discovery; REDISCOVER on the root starts one. -/
def State.writePeerCtrl (s : State) (value : BitVec 32) : State :=
  let s := s.setDisc { s.disc with linkEn := (value >>> 8).setWidth 3 }
  if value.getLsbD 0 && s.isRoot && s.ready && !s.disc.rediscover then
    let s := s.beforeDiscovery.applyLinkEn
    s.setDisc { s.disc with rediscover := true, done := false, waitPort := none }
  else s

/-- REDISCOVER: the manager writes PEER_CTRL with bit 0 set. -/
def execRediscover (inst : BitVec 8) (value : BitVec 32) (s : State) : Host.Outcome State Fault Refusal :=
  if s.managerAccess inst && value.getLsbD 0 then .next (s.writePeerCtrl value) else .next s

end Sys2Proof.Machine
end

