-- ==== Sys2Proof/Machine/Starts.lean ====
section
/-! DEFINITION. Starts (20 R604-R606; 04 R135, R136; 21 R622; 22 R641, R643): the image that boots, the state a cold and a warm
start leave, and READY. -/

namespace Sys2Proof.Machine

/-! ### The image (20 R602-R605) -/

/-- What BOOT_SEL chooses. -/
def bootChoice (straps : Straps) : BitVec 2 := if straps.bootSel = 3 then Config.reservedBoot else straps.bootSel

/-- The slot that boots: the chosen one if its image is valid, else the other; none where both fail or recovery is strapped. -/
def Fw.boots (f : Fw) (straps : Straps) : Option Bool :=
  let c := bootChoice straps
  if c = 2 then none
  else
    let first := if c = 1 then !f.activeB else f.activeB
    if f.imageValid first then some first else if f.imageValid (!first) then some (!first) else none

/-! ### What a start resets (21 R622) -/

/-- A peer link at a start: P0 trains where PAIR_EN is high (R14), P1 to P3 where LINK_EN lets them. -/
def startLink (pairEn : Bool) (linkEn : BitVec 3) (p : BitVec 2) : Link :=
  { Link.down with
    st := if p = 0 then (if pairEn then .training else .down)
      else if linkEn.getLsbD (p.toNat - 1) then .training else .disabled }

/-- The machine with everything at its reset value but what a start keeps: what waits to be executed, what has left the engine, the flash, the
levels of pins, and the ports with a link. -/
def State.restart (s : State) (straps : Straps) (links : BitVec 4) (linkEn : BitVec 3) : State :=
  let r := State.reset
  { r with
    pending := s.pending, out := s.out, free := s.free
    fw := { s.fw with units := [], act := none, late := [] }
    power := { r.power with thr := s.power.thr }
    disc := { r.disc with linkEn := linkEn, nodeId := some 0 }
    pair := { r.pair with
      role := if straps.pairEn then .joining else .single, aliveRun := true, aliveOut := s.pair.aliveOut, aliveIn := s.pair.aliveIn
      fenceIn := s.pair.fenceIn
      links := [0, 1, 2, 3].map fun p => (p, startLink straps.pairEn linkEn p) }
    glb := { r.glb with
      phase := .ready, straps := straps, ports := links &&& ~~~s.glb.perst, perst := s.glb.perst
      manager := if (links &&& ~~~s.glb.perst).getLsbD 0 then some 0 else none }
    fns := (([0, 1, 2, 3] : List (BitVec 2)).filter fun p => (links &&& ~~~s.glb.perst).getLsbD p.toNat).map fun p =>
      (pfOf p, { Fn.reset with present := true }) }

/-- Recovery: only the management port and the GLB block serve (20 R604, 21 R621). -/
def State.recover (s : State) : State :=
  { s with glb := { s.glb with phase := .recovery }, pair := { s.pair with aliveRun := false } }

/-- The manager's instance, where the role is held and it does not exist (17 R503). -/
def State.managerInst (s : State) : State :=
  match s.glb.manager with
  | some m => if (s.inst m).st = .absent then s.setInst m Inst.managerFirst else s
  | none => s

/-! ### Channels at a cold start (16 R469-R471, R476, R484, R492) -/

/-- Whether a channel's DIMMs keep R469 and R470. -/
def fitProper (f : ChannelFit) : Bool :=
  f.uniform && f.dimms != 3 && [16, 24, 32].contains f.gb && [1, 2, 4].contains f.high && decide (1 ≤ f.ranks.toNat) && decide (f.ranks.toNat ≤ 4) && decide (f.capGib.toNat ≤ 256 * f.dimms.toNat) && decide (f.rate.toNat ≤ 4)

/-- A fitted channel after training: every rank active with the delay values found, headroom one twelfth of its capacity. -/
def fitChan (f : ChannelFit) (delay : Nat → BitVec 16) : Chan :=
  let byCount : BitVec 3 := if f.dimms = 2 then 2 else 0
  let rate := if byCount.toNat < f.rate.toNat then f.rate else byCount
  { Chan.empty with
    st := if f.trains then .active else .disabled
    rate := rate, rateFit := rate, dimms := f.dimms, gb := f.gb, high := f.high, capGib := f.capGib.toNat
    hrGib := ceilDiv f.capGib.toNat 12
    ranks := (List.range f.ranks.toNat).map fun k => { st := .active, owed := 0, ces := [], drift := 0, delay := delay k } }

/-- One channel at a cold start, with its event. -/
def State.fitChannel (s : State) (ch : BitVec 4) (f : ChannelFit) : State :=
  if f.dimms = 0 then s
  else if !fitProper f then
    (s.setChan ch { Chan.empty with st := .disabled, dimms := f.dimms }).dramEvent 64 ch 0xFF 0
  else
    let s := (s.setChan ch (fitChan f fun k => Config.trainedDelay (4 * ch.toNat + k) s.free)).tick
    if f.trains then s else s.dramEvent 65 ch 0xFF 0

/-! ### COLD_START and WARM_START -/

/-- COLD_START (20 R606, 04 R136): an empty pool, every register at its reset value, the manager's instance, READY. -/
def execColdStart (straps : Straps) (fits : List ChannelFit) (links : BitVec 4) (s : State) :
    Host.Outcome State Fault Refusal :=
  if s.glb.phase ≠ .starting then .next s
  else
    let s1 := s.restart straps links 7
    match s.fw.boots straps with
    | none => .next s1.recover
    | some b =>
      let s2 := State.managerInst { s1 with fw := s1.fw.run b }
      let s3 := s2.raiseDevice 1 0xFF 0 0
      .next (forEach (allChans.zip fits) s3 fun s e => s.fitChannel e.1 e.2)

/-- An instance as a warm start restores it, with the reset effect (17 R513, R517). -/
def Inst.restored (v : Inst) (present : Bool) : Inst :=
  { v with
    st := if present then .serving else .detached
    hold := false, images := [], nextHandle := 1, priTimeout := 1000, quiesce := none, discarded := 0, accounts := [], unsynced := false }

/-- The DRAM as a warm start restores it (04 R135): what was held for a retraining is released, with the delays saved. -/
def Dram.restored (d : Dram) (delays : AMap (BitVec 4) (List (BitVec 16))) : Dram :=
  { d with
    mapErr := false, schedule := []
    chans := d.chans.mapVals fun n c => { c with
      st := if c.st = ChanState.held then .active else c.st, retrain := false
      ranks := c.ranks.mapIdx fun k (r : Rank) => { r with delay := (delays.get n []).getD k r.delay } } }

/-- WARM_START (04 R135, 17 R513, 21 R622): the save record is restored and its journal replayed; channels whose restored
delays fail are handled as after a retraining without a working setting (16 R485). -/
def execWarmStart (straps : Straps) (links : BitVec 4) (badChannels : BitVec 12) (s : State) :
    Host.Outcome State Fault Refusal :=
  match (if s.glb.phase = .starting then s.glb.save.filter (·.valid) else none) with
  | none => .next s
  | some rec =>
    let s1 := s.restart straps links s.disc.linkEn
    match s.fw.boots straps with
    | none => .next (State.recover { s1 with glb := { s1.glb with save := some rec } })
    | some b =>
      let s2 : State := { s1 with
        fw := s1.fw.run b
        insts := rec.insts.mapVals fun i v => v.restored (s1.fn i).present
        store := { s1.store with
          tables := rec.tables, segs := rec.segs, journal := rec.journal, jpos := rec.jpos
          nextSeg := s.store.nextSeg, nextGen := s.store.nextGen, nextWrite := s.store.nextWrite }
        dram := rec.dram.restored rec.delays
        pair := { s1.pair with epoch := rec.epoch }
        power := { s1.power with
          watts := s.power.watts, warmUs := s.power.warmUs, restUs := s.power.restUs, tlimit := s.power.tlimit, thrPct := s.power.thrPct }
        asa := { s1.asa with period := s.asa.nextPeriod, nextPeriod := s.asa.nextPeriod }
        ras := { s1.ras with counters := s.ras.counters, log := s.ras.log, rseq := s.ras.rseq, wrapped := s.ras.wrapped } }
      let bad := allChans.filter fun c => badChannels.getLsbD c.toNat && (s2.chan c).st == .active
      .next (forEach bad s2.managerInst.dropFetches fun s c => s.channelFails c)

end Sys2Proof.Machine
end

