-- ==== Sys2Proof/Machine/Registers.lean ====
section
/-! DEFINITION. The set-up registers (21): where each lies, who may access it, what it reads and what a write does, with the
rules of half accesses; the doorbell page, the Liaison Page and the MSI-X table; and a write of a function's enables. -/

namespace Sys2Proof.Machine

/-! ### Blocks and registers (R618, R619, R624-R634) -/

inductive Block where
  | glb | adm | evt | inst | dram | peer | pwr | asa | ras | msix | pba
deriving DecidableEq, Repr

/-- A register, with its index where there are several. -/
inductive Reg where
  | glbId | glbCap | glbSts | glbFwver | glbSerial0 | glbSerial1 | glbTime | glbStrap
  | admSqBase | admCqBase | admCtrl | admSts
  | evtPend (j : Nat) | evtRoute (n : Nat)
  | instMgr | instState (i : Nat)
  | dramCtrl | dramScrub | dramCestorm | dramChcfg (n : Nat) | dramChctl (n : Nat) | dramChsts (n : Nat) | dramMap (n : Nat)
  | peerSts | peerCtrl
  | pwrBudget | pwrCfg | pwrSts | pwrTemp
  | asaScancfg | asaCascfg | asaSts
  | ras (off : Nat)
  | pba (j : Nat)
deriving DecidableEq, Repr

/-- The block of an offset in BAR0, with the offset in the block. -/
def blockOf (pf : Bool) (off : Nat) : Option (Block × Nat) :=
  let in_ (b : Block) (lo hi : Nat) : Option (Block × Nat) := if lo ≤ off ∧ off ≤ hi then some (b, off - lo) else none
  (if pf then
    [in_ .glb 0 0xFFFF, in_ .adm 0x10000 0x1FFFF, in_ .evt 0x20000 0x3FFFF, in_ .inst 0x40000 0x7FFFF, in_ .dram 0x80000 0x9FFFF,
      in_ .peer 0xA0000 0xBFFFF, in_ .pwr 0xC0000 0xCFFFF, in_ .asa 0xD0000 0xDFFFF, in_ .ras 0xE0000 0xFFFFF,
      in_ .msix 0xF00000 0xF07FFF, in_ .pba 0xF80000 0xF800FF]
  else
    [in_ .glb 0 0xFFF, in_ .adm 0x1000 0x1FFF, in_ .evt 0x2000 0x3FFF, in_ .msix 0xE000 0xE3FF, in_ .pba 0xF000 0xF007]).findSome? id

/-- The RAS counters' offsets (R634). -/
def rasOffset (o : Nat) : Bool :=
  o % 4 == 0 && (o < 0x50 || (decide (0x100 ≤ o) && decide (o < 0x1C0)) || (decide (0x200 ≤ o) && decide (o < 0x2C0)))

/-- The register that holds an offset of a block, with the offset of its first byte and its width in bytes. -/
def regOf (b : Block) (o : Nat) : Option (Reg × Nat × Nat) :=
  let at8 (r : Reg) : Option (Reg × Nat × Nat) := some (r, o / 8 * 8, 8)
  let at4 (r : Reg) : Option (Reg × Nat × Nat) := some (r, o, 4)
  if o % 4 ≠ 0 then none
  else match b with
  | .glb =>
    match o / 8 with
    | 0 => at8 .glbId
    | 1 => at8 .glbCap
    | 2 => if o = 0x10 then at4 .glbSts else none
    | 3 => if o = 0x18 then at4 .glbFwver else none
    | 4 => at8 .glbSerial0
    | 5 => at8 .glbSerial1
    | 6 => at8 .glbTime
    | 7 => if o = 0x38 then at4 .glbStrap else none
    | _ => none
  | .adm =>
    match o / 8 with
    | 0 => at8 .admSqBase
    | 1 => at8 .admCqBase
    | 2 => if o = 0x10 then at4 .admCtrl else none
    | 3 => if o = 0x18 then at4 .admSts else none
    | _ => none
  | .evt =>
    if o < 0x80 then at8 (.evtPend (o / 8))
    else if 0x1000 ≤ o ∧ o < 0x2000 then at4 (.evtRoute ((o - 0x1000) / 4))
    else none
  | .inst =>
    if o = 0 then at4 .instMgr
    else if 0x1000 ≤ o ∧ o < 0x1800 then at8 (.instState ((o - 0x1000) / 8))
    else none
  | .dram =>
    if o = 0 then at4 .dramCtrl
    else if o = 8 then at4 .dramScrub
    else if o = 0x10 then at4 .dramCestorm
    else if 0x100 ≤ o ∧ o < 0x160 ∧ o % 8 = 0 then at4 (.dramChcfg ((o - 0x100) / 8))
    else if 0x200 ≤ o ∧ o < 0x260 ∧ o % 8 = 0 then at4 (.dramChctl ((o - 0x200) / 8))
    else if 0x300 ≤ o ∧ o < 0x360 then at8 (.dramChsts ((o - 0x300) / 8))
    else if 0x400 ≤ o ∧ o < 0x480 then at8 (.dramMap ((o - 0x400) / 8))
    else none
  | .peer => if o = 0 then at4 .peerSts else if o = 8 then at4 .peerCtrl else none
  | .pwr =>
    if o = 0 then at4 .pwrBudget else if o = 4 then at4 .pwrCfg else if o = 8 then at4 .pwrSts
    else if o = 12 then at4 .pwrTemp else none
  | .asa => if o = 0 then at4 .asaScancfg else if o = 4 then at4 .asaCascfg else if o = 8 then at4 .asaSts else none
  | .ras => if rasOffset o then at4 (.ras o) else none
  | .msix => none
  | .pba => at8 (.pba (o / 8))

/-! ### Access (R620, R621) -/

/-- Whether a function may read a block now. -/
def State.mayReadBlock (s : State) (i : BitVec 8) (b : Block) : Bool :=
  (s.fn i).present &&
  match s.glb.phase with
  | .ready =>
    match b with
    | .glb | .adm | .evt | .msix | .pba => true
    | .inst | .dram | .ras => s.isManager i
    | .peer | .pwr | .asa => isPf i
  | .recovery | .fatal => b == .glb
  | .starting | .saved => false

/-- Whether a function may write a block now. -/
def State.mayWriteBlock (s : State) (i : BitVec 8) (b : Block) : Bool :=
  s.ready && (s.fn i).present &&
  match b with
  | .glb | .pba => false
  | .adm | .evt | .msix => true
  | .inst | .dram | .ras | .peer | .pwr | .asa => s.isManager i

/-! ### What a register reads -/

/-- Whether a function receives an event source (20 R583). -/
def State.receivesSource (s : State) (i : BitVec 8) (id : Nat) : Bool :=
  (decide (512 ≤ id) && decide (id < 768)) || s.isManager i

/-- Fields put together, each with the place of its lowest bit. -/
def packBits (l : List (Nat × Nat)) : BitVec 64 := BitVec.ofNat 64 ((l.map fun e => e.1 * 2 ^ e.2).sum)

def ChanState.code : ChanState → Nat
  | .empty => 0
  | .active => 1
  | .held => 2
  | .retired => 3
  | .disabled => 4

def RankState.code : RankState → Nat
  | .active => 0
  | .migrating => 1
  | .filling => 2
  | .spare => 3
  | .retired => 4
  | .absent => 7

def ClusterState.code : ClusterState → Nat
  | .rest => 0
  | .warmup => 1
  | .sprint => 2

def LinkState.code : LinkState → Nat
  | .down => 0
  | .training => 1
  | .up => 2
  | .disabled => 3

/-- The GLB block (R624). -/
def State.readGlb (s : State) (i : BitVec 8) (r : Reg) : BitVec 64 :=
  match r with
  | .glbId => packBits [(0x1F6A, 0), (if isPf i then 0x9640 else 0x9641, 16), (0xB1, 32), (i.toNat, 40)]
  | .glbCap => packBits [(256, 0), (4, 16), (4, 20), (12, 24), (8, 28), (msixCount i, 32)]
  | .glbSts => packBits [(Bool.asNat (s.glb.phase == .ready || s.glb.phase == .fatal), 0), (Bool.asNat (s.isManager i), 1),
      (Bool.asNat s.glb.straps.pairEn, 2), (Bool.asNat (s.glb.phase == .fatal), 3), (Bool.asNat (s.glb.phase == .recovery), 4),
      (Bool.asNat s.glb.manager.isNone, 5)]
  | .glbFwver => s.fw.running.setWidth 64
  | .glbSerial0 => Config.serial.setWidth 64
  | .glbSerial1 => (Config.serial >>> 64).setWidth 64
  | .glbTime => s.time
  | _ => packBits [(s.glb.straps.bootSel.toNat, 0), (Bool.asNat s.glb.straps.pairEn, 2), (Bool.asNat s.glb.straps.rootN, 3)]

/-- The ADM block (R625). -/
def State.readAdm (s : State) (i : BitVec 8) (r : Reg) : BitVec 64 :=
  let f := s.fn i
  match r with
  | .admSqBase => f.admSqBase
  | .admCqBase => f.admCqBase
  | .admCtrl => packBits [(Bool.asNat f.admEn, 0), (Bool.asNat (s.admRdy i), 1), (f.sqLog2.toNat, 8), (f.cqLog2.toNat, 16)]
  | _ =>
    match s.sq i 0 with
    | some q => packBits [(f.admSlot.toNat, 0), (f.admReason.toNat, 16), (Bool.asNat (q.st == .error), 20), (Bool.asNat f.cfgErr, 21)]
    | none => packBits [(f.admSlot.toNat, 0), (f.admReason.toNat, 16), (Bool.asNat f.cfgErr, 21)]

/-- One word of EVT_PEND, 0 for a source that the function does not receive (20 R586). -/
def State.readPend (s : State) (i : BitVec 8) (j : Nat) : BitVec 64 :=
  packBits ((List.range 64).map fun k =>
    (Bool.asNat ((s.fn i).evtPend.getLsbD (64 * j + k) && s.receivesSource i (64 * j + k)), k))

/-- INST_STATE (R628). -/
def State.readInst (s : State) (n : BitVec 8) : BitVec 64 :=
  let f := s.fn n
  packBits [((s.inst n).st.code, 0), (Bool.asNat f.present, 3), (Bool.asNat f.bme, 4), (Bool.asNat f.d3hot, 5), (Bool.asNat (s.inst n).hold, 6),
    ((s.rings.sqs.filter fun e => e.1.1 == n).length, 16), ((s.rings.cqs.filter fun e => e.1.1 == n).length, 32)]

/-- The code of a rank of a channel, ABSENT where there is none. -/
def Chan.rankCode (c : Chan) (k : Nat) : Nat := (c.ranks[k]?).elim 7 fun r => r.st.code

/-- The DRAM block (R629, R631; 16 R475). -/
def State.readDram (s : State) (r : Reg) : BitVec 64 :=
  match r with
  | .dramCtrl => packBits [(Bool.asNat s.dram.poolEn, 0), (Bool.asNat s.dram.mapErr, 1)]
  | .dramScrub => s.dram.scrubH.setWidth 64
  | .dramCestorm => packBits [(s.dram.thresh.toNat, 0), (s.dram.windowMs.toNat, 16)]
  | .dramChcfg n =>
    let c := s.chan (BitVec.ofNat 4 n)
    packBits [(c.rateMax.toNat, 0), (Bool.asNat c.spareEn, 3), (c.hrGib, 4)]
  | .dramChctl n => packBits [(Bool.asNat (s.chan (BitVec.ofNat 4 n)).retrain, 0)]
  | .dramChsts n =>
    let c := s.chan (BitVec.ofNat 4 n)
    packBits [(c.st.code, 0), (c.rate.toNat, 4), (c.dimms.toNat, 8), (c.rankCode 0, 12), (c.rankCode 1, 15), (c.rankCode 2, 18),
      (c.rankCode 3, 21), (c.capGib, 32), (c.uGib, 42), (c.hrUsed, 52)]
  | .dramMap n => AMap.get s.dram.map (BitVec.ofNat 4 n) 0
  | _ => 0

/-- The PEER block (18 R559, R560). -/
def State.readPeer (s : State) (r : Reg) : BitVec 64 :=
  match r with
  | .peerSts =>
    let link (p : BitVec 2) : Nat := (s.link p).st.code
    packBits [(s.pair.role.code, 0), (Bool.asNat s.pair.lead, 3), (Bool.asNat s.isRoot, 4), (Bool.asNat s.disc.conflict, 5),
      (Bool.asNat s.disc.done, 6), (link 0, 8), (link 1, 10), (link 2, 12), (link 3, 14),
      ((s.disc.nodeId.map (·.toNat)).getD 0, 16), (Bool.asNat s.disc.nodeId.isSome, 28)]
  | _ => packBits [(Bool.asNat s.disc.rediscover, 0), (s.disc.linkEn.toNat, 8)]

/-- The lowest-numbered sensor with the highest reading. -/
def tjmaxId (l : List (BitVec 8)) : Nat := ((l.findIdx? fun x => x.toInt == tjmax l)).getD 0

/-- The PWR block (19 R577-R580). -/
def State.readPwr (s : State) (r : Reg) : BitVec 64 :=
  let p := s.power
  match r with
  | .pwrBudget => p.watts.setWidth 64
  | .pwrCfg => packBits [(p.warmUs.toNat, 0), (p.restUs.toNat, 8), (p.tlimit.toNat, 20), (p.thrPct.toNat, 28)]
  | .pwrSts =>
    packBits (((List.range 8).map fun c => ((s.cluster (BitVec.ofNat 3 c)).code, 2 * c)) ++
      [(p.heldTokens, 16), (Bool.asNat p.thr, 27), (Bool.asNat p.tlim, 28), (Bool.asNat (decide (380 + p.metered < p.heldTokens)), 29)])
  | _ =>
    packBits [(p.tsel.toNat, 0), ((p.temps.getD p.tsel.toNat 0).toNat, 8), ((BitVec.ofInt 8 (tjmax p.temps)).toNat, 16), (tjmaxId p.temps, 24)]

/-- The ASA block (R633). -/
def State.readAsa (s : State) (r : Reg) : BitVec 64 :=
  match r with
  | .asaScancfg => s.asa.nextPeriod.setWidth 64
  | .asaCascfg => packBits [(Bool.asNat s.asa.casEn, 0), (s.asa.casPos.toNat, 4), (s.asa.casDepth.toNat, 8)]
  | _ => packBits ([(s.asa.step.toNat, 0), (Bool.asNat s.casActive, 2)] ++
      (List.range 16).map fun p => (Bool.asNat ((s.pod (BitVec.ofNat 4 p)).st != .free), 16 + p))

/-- A register as a function reads it. -/
def State.readReg (s : State) (i : BitVec 8) (r : Reg) : BitVec 64 :=
  match r with
  | .glbId | .glbCap | .glbSts | .glbFwver | .glbSerial0 | .glbSerial1 | .glbTime | .glbStrap => s.readGlb i r
  | .admSqBase | .admCqBase | .admCtrl | .admSts => s.readAdm i r
  | .evtPend j => s.readPend i j
  | .evtRoute n => if s.receivesSource i n then ((s.fn i).evtRoute.get (BitVec.ofNat 10 n) 0).setWidth 64 else 0
  | .instMgr => packBits [((s.glb.manager.getD 0xFF).toNat, 0), (Bool.asNat s.glb.manager.isNone, 8)]
  | .instState n => s.readInst (BitVec.ofNat 8 n)
  | .dramCtrl | .dramScrub | .dramCestorm | .dramChcfg _ | .dramChctl _ | .dramChsts _ | .dramMap _ => s.readDram r
  | .peerSts | .peerCtrl => s.readPeer r
  | .pwrBudget | .pwrCfg | .pwrSts | .pwrTemp => s.readPwr r
  | .asaScancfg | .asaCascfg | .asaSts => s.readAsa r
  | .ras o => (s.ras.counters.get (BitVec.ofNat 16 o) 0).setWidth 64
  | .pba j => packBits ((List.range 64).map fun k => (Bool.asNat ((s.fn i).vec (BitVec.ofNat 11 (64 * j + k))).pending, k))

/-! ### What a write does (R617) -/

/-- ADM_SQ_BASE and ADM_CQ_BASE: while EN and RDY are 0. -/
def State.writeAdmBase (s : State) (i : BitVec 8) (sq : Bool) (v : BitVec 64) : State :=
  let f := s.fn i
  let base := v &&& ~~~0xFFF
  if f.admEn || s.admRdy i then s
  else if sq then s.setFn i { f with admSqBase := base } else s.setFn i { f with admCqBase := base }

/-- EVT_PEND: RW1C. -/
def State.writePend (s : State) (i : BitVec 8) (j : Nat) (v : BitVec 64) : State :=
  s.modFn i fun f => { f with evtPend := f.evtPend &&& ~~~(v.setWidth 1024 <<< (64 * j)) }

/-- EVT_ROUTE (20 R586). -/
def State.writeRoute (s : State) (i : BitVec 8) (n : Nat) (v : BitVec 64) : State :=
  if !(s.receivesSource i n) || msixCount i ≤ bits v.toNat 10 0 then s
  else s.modFn i fun f => { f with evtRoute := f.evtRoute.insert (BitVec.ofNat 10 n) (v.setWidth 32 &&& 0x87FF) }

/-- SPARE_EN of a channel: its highest-numbered rank is held as a spare, or is active again (16 R476, R489). -/
def Chan.setSpare (c : Chan) (on : Bool) : Chan :=
  let top := c.ranks.length - 1
  if on = c.spareEn then c
  else
    { c with
      spareEn := on
      ranks := c.ranks.modify top fun r =>
        if on && r.st == .active then { r with st := .spare } else if !on && r.st == .spare then { r with st := .active } else r }

/-- DRAM_CHCFG (R629, R630). -/
def State.writeChcfg (s : State) (n : Nat) (v : BitVec 64) : State :=
  let ch := BitVec.ofNat 4 n
  let c := (s.chan ch).setSpare (v.getLsbD 3)
  let hr := bits v.toNat 13 4
  if s.dram.poolEn || 4 < bits v.toNat 2 0 || c.lessSpare < hr then s
  else s.setChan ch { c with rateMax := v.setWidth 3, hrGib := hr }

/-- DRAM_MAP (16 R475). -/
def State.writeMap (s : State) (n : Nat) (v : BitVec 64) : State :=
  let w := v &&& 0x1FFF1FFF03FFBFFF
  let members := (chset w).length
  let ok : Bool := members != 0 && mapGrain w != 3 && decide (mapChbase w ≤ 511) && decide (mapBase w ≤ 6143) &&
    decide (1 ≤ mapSize w) && decide (mapSize w ≤ 6144) && mapSize w % Nat.max 1 members == 0
  if s.dram.poolEn || !ok then s
  else { s with dram := { s.dram with map := AMap.insert s.dram.map (BitVec.ofNat 4 n) w } }

/-- PWR_CFG (19 R578). -/
def State.writePwrCfg (s : State) (v : BitVec 64) : State :=
  let warm := bits v.toNat 7 0
  let rest := bits v.toNat 19 8
  let lim := bits v.toNat 26 20
  let pct := bits v.toNat 31 28
  if warm = 0 || rest = 0 || lim < 95 || 120 < lim || pct = 0 || 10 < pct then s
  else { s with power := { s.power with
    warmUs := BitVec.ofNat 8 warm, restUs := BitVec.ofNat 12 rest, tlimit := BitVec.ofNat 7 lim, thrPct := BitVec.ofNat 4 pct } }

/-- An MSI-X Vector Control word (20 R589). -/
def State.writeVecCtrl (s : State) (i : BitVec 8) (v : BitVec 11) (masked : Bool) : State :=
  if masked then s.modFn i fun f => f.setVec v { f.vec v with masked := true } else s.unmaskVector i (some v)

/-- A register written whole by a function that may write its block. -/
def State.writeReg (s : State) (i : BitVec 8) (r : Reg) (v : BitVec 64) : State :=
  let w : BitVec 32 := v.setWidth 32
  match r with
  | .admSqBase => s.writeAdmBase i true v
  | .admCqBase => s.writeAdmBase i false v
  | .admCtrl => if v.getLsbD 0 then s.admEnable i w else s.admDisable i w
  | .evtPend j => s.writePend i j v
  | .evtRoute n => s.writeRoute i n v
  | .dramCtrl => if v.getLsbD 0 then s.poolOn i w else s.poolOff i w
  | .dramScrub =>
    let h := bits v.toNat 7 0
    if h = 0 || 168 < h then s else { s with dram := { s.dram with scrubH := BitVec.ofNat 8 h } }
  | .dramCestorm =>
    if bits v.toNat 15 0 = 0 || bits v.toNat 31 16 = 0 then s
    else { s with dram := { s.dram with thresh := v.setWidth 16, windowMs := (v >>> 16).setWidth 16 } }
  | .dramChcfg n => s.writeChcfg n v
  | .dramChctl n => if v.getLsbD 0 then s.scheduleRetrain (BitVec.ofNat 4 n) else s
  | .dramMap n => s.writeMap n v
  | .peerCtrl => s.writePeerCtrl w
  | .pwrBudget =>
    let n := bits v.toNat 8 0
    if n < 150 || 420 < n then s else { s with power := { s.power with watts := BitVec.ofNat 9 n } }
  | .pwrCfg => s.writePwrCfg v
  | .pwrTemp => { s with power := { s.power with tsel := v.setWidth 5 } }
  | .asaScancfg =>
    let n := bits v.toNat 9 0
    if n = 0 || 1000 < n then s else { s with asa := { s.asa with nextPeriod := BitVec.ofNat 10 n } }
  | .asaCascfg => s.writeCascfg w
  | .ras o => { s with ras := { s.ras with counters := s.ras.counters.insert (BitVec.ofNat 16 o) 0 } }
  | .glbId | .glbCap | .glbSts | .glbFwver | .glbSerial0 | .glbSerial1 | .glbTime | .glbStrap | .admSts | .instMgr | .instState _
  | .dramChsts _ | .peerSts | .pwrSts | .asaSts | .pba _ => s

/-! ### The MSI-X table (R618): by 4 bytes or 8, each aligned, as PCI Express has it -/

/-- One 4-byte word of an MSI-X table entry: address, upper address, data, Vector Control. -/
def State.msixWord (s : State) (i : BitVec 8) (o : Nat) : Nat :=
  let x := (s.fn i).vec (BitVec.ofNat 11 (o / 16))
  match o % 16 / 4 with
  | 0 => x.addr.toNat % 2 ^ 32
  | 1 => x.addr.toNat / 2 ^ 32
  | 2 => x.data.toNat
  | _ => Bool.asNat x.masked

/-- One 4-byte word of an entry written; bits 1:0 of the address stay 0. -/
def State.setMsixWord (s : State) (i : BitVec 8) (o : Nat) (w : BitVec 32) : State :=
  let v := BitVec.ofNat 11 (o / 16)
  let x := (s.fn i).vec v
  match o % 16 / 4 with
  | 0 => s.modFn i fun f => f.setVec v { x with addr := x.addr >>> 32 <<< 32 ||| (w &&& ~~~3).setWidth 64 }
  | 1 => s.modFn i fun f => f.setVec v { x with addr := (x.addr &&& 0xFFFFFFFF) ||| w.setWidth 64 <<< 32 }
  | 2 => s.modFn i fun f => f.setVec v { x with data := w }
  | _ => s.writeVecCtrl i v (w.getLsbD 0)

/-- A write to the MSI-X table. -/
def State.writeMsix (s : State) (i : BitVec 8) (o size : Nat) (v : BitVec 64) : State :=
  if size = 4 && o % 4 = 0 then s.setMsixWord i o (v.setWidth 32)
  else if size = 8 && o % 8 = 0 then (s.setMsixWord i o (v.setWidth 32)).setMsixWord i (o + 4) ((v >>> 32).setWidth 32)
  else s

/-- A read of the MSI-X table. -/
def State.readMsix (s : State) (i : BitVec 8) (o size : Nat) : BitVec 64 :=
  if size = 4 && o % 4 = 0 then BitVec.ofNat 64 (s.msixWord i o)
  else if size = 8 && o % 8 = 0 then BitVec.ofNat 64 (s.msixWord i o + 2 ^ 32 * s.msixWord i (o + 4))
  else 0

/-! ### Half accesses (R615) -/

/-- A write at an offset of a block: a whole register, the low half held, or the high half with what is held; without a held
half the low half's fields behave as not written, so a write-one bit there is written 0 and any other field its own value. -/
def State.writeAt (s : State) (i : BitVec 8) (off o size : Nat) (b : Block) (v : BitVec 64) : State :=
  match regOf b o with
  | none => if b = .msix then s.writeMsix i o size v else s
  | some (r, base, width) =>
    let key : BitVec 3 × BitVec 32 := (0, BitVec.ofNat 32 (off - (o - base)))
    let f := s.fn i
    if size = width && o = base then
      State.writeReg (s.setFn i { f with heldLow := AMap.erase f.heldLow key }) i r v
    else if size = 4 && width = 8 then
      if o = base then s.setFn i { f with heldLow := AMap.insert f.heldLow key (v.setWidth 32) }
      else
        let low : BitVec 64 := match AMap.find? f.heldLow key with
          | some l => l.setWidth 64
          | none => match r with
            | .evtPend _ => 0
            | _ => s.readReg i r &&& 0xFFFFFFFF
        State.writeReg (s.setFn i { f with heldLow := AMap.erase f.heldLow key }) i r (low ||| (v <<< 32))
    else s

/-- What a read at an offset of a block gives, and the function after it: a read of a low half latches the high half. -/
def State.readAt (s : State) (i : BitVec 8) (off o size : Nat) (b : Block) : BitVec 64 × Fn :=
  let f := s.fn i
  match regOf b o with
  | none => (if b = .msix then s.readMsix i o size else 0, f)
  | some (r, base, width) =>
    let key : BitVec 3 × BitVec 32 := (0, BitVec.ofNat 32 (off - (o - base)))
    let x := s.readReg i r
    if size = width && o = base then (x, f)
    else if size = 4 && width = 8 then
      if o = base then (x &&& 0xFFFFFFFF, { f with latched := AMap.insert f.latched key ((x >>> 32).setWidth 32) })
      else
        match AMap.find? f.latched key with
        | some h => (h.setWidth 64, { f with latched := AMap.erase f.latched key })
        | none => (x >>> 32, f)
    else (0, f)

/-! ### The doorbell page and the Liaison Page (R636, R637; 17 R524-R526) -/

/-- A write to the doorbell page. -/
def State.writeDoorbell (s : State) (i : BitVec 8) (off size : Nat) (v : BitVec 64) : State :=
  let w : Option DbWidth := if size = 8 && off % 8 = 0 then some .full
    else if size = 4 && off % 8 = 0 then some .low
    else if size = 4 && off % 8 = 4 then some .high
    else none
  match w with
  | none => s
  | some w =>
    if off < 0x8000 then s.ringSq i (BitVec.ofNat 12 (off / 8)) w v
    else if off < 0x10000 then s.ringCq i (BitVec.ofNat 12 ((off - 0x8000) / 8)) w v
    else s

/-- The instance whose page lies at an offset of BAR4. -/
def liaisonPage (i : BitVec 8) (off : Nat) : Option (BitVec 8) :=
  if isPf i then (if off < 2 ^ 20 then some (BitVec.ofNat 8 (off / 4096)) else none)
  else if off < 4096 then some i else none

/-- Bytes written to a Liaison Page: each side writes its own area, and its doorbell by the doorbell's lowest byte. -/
def State.writeLiaison (s : State) (i page : BitVec 8) : Nat → Bytes → State
  | _, [] => s
  | o, b :: bs =>
    let s1 :=
      if o < 0x7F8 then
        if isTenant i page then s.modInst page fun v => { v with tArea := v.tArea.write o b } else s
      else if o = 0x7F8 then s.ringTenant i page (b.setWidth 64)
      else if 0x800 ≤ o ∧ o < 0xFF8 then
        if isTenant i page then s else s.modInst page fun v => { v with mArea := v.mArea.write (o - 0x800) b }
      else if o = 0xFF8 then s.ringManager i page (b.setWidth 64)
      else s
    s1.writeLiaison i page (o + 1) bs

/-- A byte of a Liaison Page; the doorbells read 0. -/
def State.liaisonByte (s : State) (page : BitVec 8) (o : Nat) : Byte :=
  if o < 0x7F8 then (s.inst page).tArea.read o
  else if 0x800 ≤ o ∧ o < 0xFF8 then (s.inst page).mArea.read (o - 0x800)
  else 0

/-! ### REGISTER_WRITE and REGISTER_READ -/

/-- The enables of a function's configuration space that this model keeps, as `bar` 7 at offset 0: bit 0 ATS Enable, bit 1 PASID
Enable, bit 2 PME_En, bit 3 the MSI-X Function Mask, bit 4 Enable Relaxed Ordering; ATS and the mask are only set here. -/
def State.writeEnables (s : State) (i : BitVec 8) (v : BitVec 64) : State :=
  s.modFn i fun f => { f with
    ats := f.ats || v.getLsbD 0, pasidEn := v.getLsbD 1, pmeEn := v.getLsbD 2, fnMask := f.fnMask || v.getLsbD 3,
    relaxedEn := v.getLsbD 4 }

/-- A read of the same place: the bits as they stand, with bit 5 PRI Enable, bit 6 PRI Stopped and bit 7 Bus Master Enable. -/
def State.readEnables (s : State) (i : BitVec 8) : BitVec 64 :=
  let f := s.fn i
  BitVec.ofNat 64 (([f.ats, f.pasidEn, f.pmeEn, f.fnMask, f.relaxedEn, f.pri, s.priStopped i, f.bme].zipIdx.map fun e =>
    2 ^ e.2 * Bool.asNat e.1).sum)

/-- REGISTER_WRITE (R615-R617, R620, R621). -/
def execRegisterWrite (inst : BitVec 8) (bar : BitVec 3) (offset : BitVec 32) (size : BitVec 4) (value : BitVec 64) (s : State) :
    Host.Outcome State Fault Refusal :=
  let off := offset.toNat
  let n := size.toNat
  if bar = 0 then
    match blockOf (isPf inst) off with
    | none => .next s
    | some (b, o) => if s.mayWriteBlock inst b then .next (s.writeAt inst off o n b value) else .next s
  else if !s.ready || !(s.fn inst).present then .next s
  else if bar = 2 then .next (s.writeDoorbell inst off n value)
  else if bar = 4 then
    match liaisonPage inst off with
    | some page =>
      if s.reachesPage inst page && (isTenant inst page || s.isManager inst) then
        .next (s.writeLiaison inst page (off % 4096) (leBytes (Nat.min n 8) value.toNat))
      else .next s
    | none => .next s
  else if bar = 7 && off = 0 then .next (s.writeEnables inst value)
  else .next s

/-- REGISTER_READ (R615, R616, R620, R621): what the read returns is the function's `lastRead`. -/
def execRegisterRead (inst : BitVec 8) (bar : BitVec 3) (offset : BitVec 32) (size : BitVec 4) (s : State) :
    Host.Outcome State Fault Refusal :=
  let off := offset.toNat
  let n := size.toNat
  if !(s.fn inst).present then .next s
  else if bar = 0 then
    match blockOf (isPf inst) off with
    | none => .next (s.modFn inst fun f => { f with lastRead := 0 })
    | some (b, o) =>
      if s.mayReadBlock inst b then
        let r := s.readAt inst off o n b
        .next (s.setFn inst { r.2 with lastRead := r.1 })
      else .next (s.modFn inst fun f => { f with lastRead := 0 })
  else if bar = 4 && s.ready then
    match liaisonPage inst off with
    | some page =>
      let v := if s.reachesPage inst page then
          BitVec.ofNat 64 (leNat ((List.range (Nat.min n 8)).map fun k => s.liaisonByte page (off % 4096 + k)))
        else 0
      .next (s.modFn inst fun f => { f with lastRead := v })
    | none => .next (s.modFn inst fun f => { f with lastRead := 0 })
  else .next (s.modFn inst fun f => { f with lastRead := if bar = 7 && off = 0 && s.ready then s.readEnables inst else 0 })

end Sys2Proof.Machine
end

