-- ==== Sys2Proof/Machine/ScaFloat.lean ====
section
/-! DEFINITION. The scalar floating-point instructions (13, Scalar floating point; R398, R405). -/

namespace Sys2Proof.Machine

/-- FN of a scalar FP instruction: bit 4 is D. -/
def fnOf (d : Prec) (op : Nat) : Nat :=
  match d with
  | .single => op
  | .double => op + 16

/-- The other precision (FCVTP). -/
def otherPrec : Prec → Prec
  | .single => .double
  | .double => .single

/-- fd = a result with its flags. -/
def State.fpOp (s : State) (k : At) (d : Prec) (fn : Nat) (fd f1 f2 : BitVec 5) (f : Core → Nat × BitVec 5) :
    Host.Outcome State Fault Refusal :=
  s.instr k.core (encOp 0x10 (fnOf d fn) fd f1 f2) false false anywhere fun s c =>
    .done s ((c.setF d fd (f c).1).addFlags (f c).2)

/-- rd = a result with its flags. -/
def State.fpToX (s : State) (k : At) (d : Prec) (fn : Nat) (rd f1 f2 : BitVec 5) (f : Core → BitVec 64 × BitVec 5) :
    Host.Outcome State Fault Refusal :=
  s.instr k.core (encOp 0x10 (fnOf d fn) rd f1 f2) false false anywhere fun s c =>
    .done s ((c.setX rd (f c).1).addFlags (f c).2)

/-- 1 where a comparison holds. -/
def Core.fpCompare (c : Core) (d : Prec) (p : FCmp) (a b : BitVec 5) : BitVec 64 × BitVec 5 :=
  let r := d.fmt.compare p (c.getF d a) (c.getF d b)
  (if r.1 then 1 else 0, r.2)

/-- FADD. -/
def execFadd (k : At) (d : Prec) (fd fs1 fs2 : BitVec 5) (s : State) : Host.Outcome State Fault Refusal :=
  s.fpOp k d 0 fd fs1 fs2 fun c => d.fmt.add (c.getF d fs1) (c.getF d fs2)
/-- FSUB. -/
def execFsub (k : At) (d : Prec) (fd fs1 fs2 : BitVec 5) (s : State) : Host.Outcome State Fault Refusal :=
  s.fpOp k d 1 fd fs1 fs2 fun c => d.fmt.sub (c.getF d fs1) (c.getF d fs2)
/-- FMUL. -/
def execFmul (k : At) (d : Prec) (fd fs1 fs2 : BitVec 5) (s : State) : Host.Outcome State Fault Refusal :=
  s.fpOp k d 2 fd fs1 fs2 fun c => d.fmt.mul (c.getF d fs1) (c.getF d fs2)
/-- FDIV. -/
def execFdiv (k : At) (d : Prec) (fd fs1 fs2 : BitVec 5) (s : State) : Host.Outcome State Fault Refusal :=
  s.fpOp k d 3 fd fs1 fs2 fun c => d.fmt.div (c.getF d fs1) (c.getF d fs2)
/-- FMIN. -/
def execFmin (k : At) (d : Prec) (fd fs1 fs2 : BitVec 5) (s : State) : Host.Outcome State Fault Refusal :=
  s.fpOp k d 5 fd fs1 fs2 fun c => d.fmt.minMax false (c.getF d fs1) (c.getF d fs2)
/-- FMAX. -/
def execFmax (k : At) (d : Prec) (fd fs1 fs2 : BitVec 5) (s : State) : Host.Outcome State Fault Refusal :=
  s.fpOp k d 6 fd fs1 fs2 fun c => d.fmt.minMax true (c.getF d fs1) (c.getF d fs2)
/-- FSQRT; RS2 is 0. -/
def execFsqrt (k : At) (d : Prec) (fd fs1 : BitVec 5) (s : State) : Host.Outcome State Fault Refusal :=
  s.fpOp k d 4 fd fs1 0 fun c => d.fmt.sqrt (c.getF d fs1)
/-- FMACC: fd + fs1 × fs2, rounded once. -/
def execFmacc (k : At) (d : Prec) (fd fs1 fs2 : BitVec 5) (s : State) : Host.Outcome State Fault Refusal :=
  s.fpOp k d 7 fd fs1 fs2 fun c => d.fmt.fma (c.getF d fs1) (c.getF d fs2) (c.getF d fd)
/-- FEQ. -/
def execFeq (k : At) (d : Prec) (rd fs1 fs2 : BitVec 5) (s : State) : Host.Outcome State Fault Refusal :=
  s.fpToX k d 8 rd fs1 fs2 fun c => c.fpCompare d .eq fs1 fs2
/-- FLT. -/
def execFlt (k : At) (d : Prec) (rd fs1 fs2 : BitVec 5) (s : State) : Host.Outcome State Fault Refusal :=
  s.fpToX k d 9 rd fs1 fs2 fun c => c.fpCompare d .lt fs1 fs2
/-- FLE. -/
def execFle (k : At) (d : Prec) (rd fs1 fs2 : BitVec 5) (s : State) : Host.Outcome State Fault Refusal :=
  s.fpToX k d 10 rd fs1 fs2 fun c => c.fpCompare d .le fs1 fs2
/-- FCVTXF: INT64 of fs1. -/
def execFcvtxf (k : At) (d : Prec) (rd fs1 : BitVec 5) (s : State) : Host.Outcome State Fault Refusal :=
  s.fpToX k d 11 rd fs1 0 fun c =>
    let r := d.fmt.toInt 64 (c.getF d fs1)
    (BitVec.ofNat 64 r.1, r.2)
/-- FCVTFX: from INT64. -/
def execFcvtfx (k : At) (d : Prec) (fd rs1 : BitVec 5) (s : State) : Host.Outcome State Fault Refusal :=
  s.fpOp k d 12 fd rs1 0 fun c => d.fmt.ofInt (c.getX rs1).toInt
/-- FMVXF: the bits of fs1, a single value sign-extended. -/
def execFmvxf (k : At) (d : Prec) (rd fs1 : BitVec 5) (s : State) : Host.Outcome State Fault Refusal :=
  s.fpToX k d 13 rd fs1 0 fun c =>
    (match d with
      | .single => (BitVec.ofNat 32 (c.getF d fs1)).signExtend 64
      | .double => BitVec.ofNat 64 (c.getF d fs1), 0)
/-- FMVFX: the bits of rs1. -/
def execFmvfx (k : At) (d : Prec) (fd rs1 : BitVec 5) (s : State) : Host.Outcome State Fault Refusal :=
  s.fpOp k d 14 fd rs1 0 fun c => ((c.getX rs1).toNat, 0)
/-- FCVTP: fs1 from the other precision to the one D selects. -/
def execFcvtp (k : At) (d : Prec) (fd fs1 : BitVec 5) (s : State) : Host.Outcome State Fault Refusal :=
  s.fpOp k d 15 fd fs1 0 fun c => d.fmt.convert (otherPrec d).fmt (c.getF (otherPrec d) fs1)

end Sys2Proof.Machine
end

