-- ==== Sys2Proof/Machine/ScaInt.lean ====
section
/-! DEFINITION. The scalar integer instructions (13, Scalar integer). -/

namespace Sys2Proof.Machine

/-! ### What they compute -/

/-- 1 or 0 as a register value. -/
def flag64 (b : Bool) : BitVec 64 := if b then 1 else 0

/-- The high 64 bits of a signed and of an unsigned product. -/
def mulHigh (a b : BitVec 64) : BitVec 64 := BitVec.ofInt 64 (a.toInt * b.toInt / 2 ^ 64)
def mulHighU (a b : BitVec 64) : BitVec 64 := BitVec.ofNat 64 (a.toNat * b.toNat / 2 ^ 64)

/-- Division truncates; by 0 it gives all ones, and the remainder is the dividend. -/
def divSigned (a b : BitVec 64) : BitVec 64 := if b = 0 then BitVec.allOnes 64 else a.sdiv b
def divUnsigned (a b : BitVec 64) : BitVec 64 := if b = 0 then BitVec.allOnes 64 else a / b
def remSigned (a b : BitVec 64) : BitVec 64 := if b = 0 then a else a.srem b
def remUnsigned (a b : BitVec 64) : BitVec 64 := if b = 0 then a else a % b

/-- Counts of leading zeros, trailing zeros and ones. -/
def countLeading (a : BitVec 64) : BitVec 64 :=
  BitVec.ofNat 64 (((List.range 64).find? fun i => a.getLsbD (63 - i)).getD 64)
def countTrailing (a : BitVec 64) : BitVec 64 :=
  BitVec.ofNat 64 (((List.range 64).find? fun i => a.getLsbD i).getD 64)
def countOnes (a : BitVec 64) : BitVec 64 := BitVec.ofNat 64 ((List.range 64).countP fun i => a.getLsbD i)
/-- Byte reversal. -/
def byteReverse (a : BitVec 64) : BitVec 64 := BitVec.ofNat 64 (leNat (leBytes 8 a.toNat).reverse)

/-- A 32-bit result, sign-extended. -/
def word32 (a : BitVec 64) : BitVec 64 := (a.setWidth 32).signExtend 64

/-- imm20 << 12, sign-extended. -/
def upper20 (imm : BitVec 20) : BitVec 64 := (imm ++ (0 : BitVec 12)).signExtend 64

/-! ### Their forms (R409) -/

/-- rd = f of rs1 and rs2, in the OP format. -/
def State.opInt (s : State) (k : At) (fn : Nat) (rd rs1 rs2 : BitVec 5) (f : BitVec 64 → BitVec 64 → BitVec 64) :
    Host.Outcome State Fault Refusal :=
  s.instr k.core (encOp 0x01 fn rd rs1 rs2) false false anywhere fun s c =>
    .done s (c.setX rd (f (c.getX rs1) (c.getX rs2)))

/-- rd = f of rs1 and the sign-extended immediate, in the IMM format. -/
def State.immInt (s : State) (k : At) (fn : Nat) (rd rs1 : BitVec 5) (imm : BitVec 12) (f : BitVec 64 → BitVec 64 → BitVec 64) :
    Host.Outcome State Fault Refusal :=
  s.instr k.core (encImm 0x02 fn rd rs1 imm) false false anywhere fun s c =>
    .done s (c.setX rd (f (c.getX rs1) (imm.signExtend 64)))

/-- ADD. -/
def execAdd (k : At) (rd rs1 rs2 : BitVec 5) (s : State) : Host.Outcome State Fault Refusal :=
  s.opInt k 0x0 rd rs1 rs2 (fun a b => a + b)
/-- SUB. -/
def execSub (k : At) (rd rs1 rs2 : BitVec 5) (s : State) : Host.Outcome State Fault Refusal :=
  s.opInt k 0x1 rd rs1 rs2 (fun a b => a - b)
/-- AND. -/
def execAnd (k : At) (rd rs1 rs2 : BitVec 5) (s : State) : Host.Outcome State Fault Refusal :=
  s.opInt k 0x2 rd rs1 rs2 (fun a b => a &&& b)
/-- OR. -/
def execOr (k : At) (rd rs1 rs2 : BitVec 5) (s : State) : Host.Outcome State Fault Refusal :=
  s.opInt k 0x3 rd rs1 rs2 (fun a b => a ||| b)
/-- XOR. -/
def execXor (k : At) (rd rs1 rs2 : BitVec 5) (s : State) : Host.Outcome State Fault Refusal :=
  s.opInt k 0x4 rd rs1 rs2 (fun a b => a ^^^ b)
/-- SLL. -/
def execSll (k : At) (rd rs1 rs2 : BitVec 5) (s : State) : Host.Outcome State Fault Refusal :=
  s.opInt k 0x5 rd rs1 rs2 (fun a b => a <<< (b.toNat % 64))
/-- SRL. -/
def execSrl (k : At) (rd rs1 rs2 : BitVec 5) (s : State) : Host.Outcome State Fault Refusal :=
  s.opInt k 0x6 rd rs1 rs2 (fun a b => a >>> (b.toNat % 64))
/-- SRA. -/
def execSra (k : At) (rd rs1 rs2 : BitVec 5) (s : State) : Host.Outcome State Fault Refusal :=
  s.opInt k 0x7 rd rs1 rs2 (fun a b => a.sshiftRight (b.toNat % 64))
/-- SLT. -/
def execSlt (k : At) (rd rs1 rs2 : BitVec 5) (s : State) : Host.Outcome State Fault Refusal :=
  s.opInt k 0x8 rd rs1 rs2 (fun a b => flag64 (a.slt b))
/-- SLTU. -/
def execSltu (k : At) (rd rs1 rs2 : BitVec 5) (s : State) : Host.Outcome State Fault Refusal :=
  s.opInt k 0x9 rd rs1 rs2 (fun a b => flag64 (a.ult b))
/-- MUL. -/
def execMul (k : At) (rd rs1 rs2 : BitVec 5) (s : State) : Host.Outcome State Fault Refusal :=
  s.opInt k 0xa rd rs1 rs2 (fun a b => a * b)
/-- MULH. -/
def execMulh (k : At) (rd rs1 rs2 : BitVec 5) (s : State) : Host.Outcome State Fault Refusal :=
  s.opInt k 0xb rd rs1 rs2 mulHigh
/-- MULHU. -/
def execMulhu (k : At) (rd rs1 rs2 : BitVec 5) (s : State) : Host.Outcome State Fault Refusal :=
  s.opInt k 0xc rd rs1 rs2 mulHighU
/-- DIV. -/
def execDiv (k : At) (rd rs1 rs2 : BitVec 5) (s : State) : Host.Outcome State Fault Refusal :=
  s.opInt k 0xd rd rs1 rs2 divSigned
/-- DIVU. -/
def execDivu (k : At) (rd rs1 rs2 : BitVec 5) (s : State) : Host.Outcome State Fault Refusal :=
  s.opInt k 0xe rd rs1 rs2 divUnsigned
/-- REM. -/
def execRem (k : At) (rd rs1 rs2 : BitVec 5) (s : State) : Host.Outcome State Fault Refusal :=
  s.opInt k 0xf rd rs1 rs2 remSigned
/-- REMU. -/
def execRemu (k : At) (rd rs1 rs2 : BitVec 5) (s : State) : Host.Outcome State Fault Refusal :=
  s.opInt k 0x10 rd rs1 rs2 remUnsigned
/-- MIN. -/
def execMin (k : At) (rd rs1 rs2 : BitVec 5) (s : State) : Host.Outcome State Fault Refusal :=
  s.opInt k 0x11 rd rs1 rs2 (fun a b => if a.slt b then a else b)
/-- MAX. -/
def execMax (k : At) (rd rs1 rs2 : BitVec 5) (s : State) : Host.Outcome State Fault Refusal :=
  s.opInt k 0x12 rd rs1 rs2 (fun a b => if a.slt b then b else a)
/-- MINU. -/
def execMinu (k : At) (rd rs1 rs2 : BitVec 5) (s : State) : Host.Outcome State Fault Refusal :=
  s.opInt k 0x13 rd rs1 rs2 (fun a b => if a.ult b then a else b)
/-- MAXU. -/
def execMaxu (k : At) (rd rs1 rs2 : BitVec 5) (s : State) : Host.Outcome State Fault Refusal :=
  s.opInt k 0x14 rd rs1 rs2 (fun a b => if a.ult b then b else a)
/-- CLZ; RS2 is 0. -/
def execClz (k : At) (rd rs1 : BitVec 5) (s : State) : Host.Outcome State Fault Refusal :=
  s.opInt k 0x15 rd rs1 0 (fun a _ => countLeading a)
/-- CTZ; RS2 is 0. -/
def execCtz (k : At) (rd rs1 : BitVec 5) (s : State) : Host.Outcome State Fault Refusal :=
  s.opInt k 0x16 rd rs1 0 (fun a _ => countTrailing a)
/-- POPC; RS2 is 0. -/
def execPopc (k : At) (rd rs1 : BitVec 5) (s : State) : Host.Outcome State Fault Refusal :=
  s.opInt k 0x17 rd rs1 0 (fun a _ => countOnes a)
/-- BSWAP; RS2 is 0. -/
def execBswap (k : At) (rd rs1 : BitVec 5) (s : State) : Host.Outcome State Fault Refusal :=
  s.opInt k 0x18 rd rs1 0 (fun a _ => byteReverse a)
/-- ADDW. -/
def execAddw (k : At) (rd rs1 rs2 : BitVec 5) (s : State) : Host.Outcome State Fault Refusal :=
  s.opInt k 0x19 rd rs1 rs2 (fun a b => word32 (a + b))
/-- SUBW. -/
def execSubw (k : At) (rd rs1 rs2 : BitVec 5) (s : State) : Host.Outcome State Fault Refusal :=
  s.opInt k 0x1a rd rs1 rs2 (fun a b => word32 (a - b))
/-- ADDI. -/
def execAddi (k : At) (rd rs1 : BitVec 5) (imm : BitVec 12) (s : State) : Host.Outcome State Fault Refusal :=
  s.immInt k 0 rd rs1 imm (fun a b => a + b)
/-- ANDI. -/
def execAndi (k : At) (rd rs1 : BitVec 5) (imm : BitVec 12) (s : State) : Host.Outcome State Fault Refusal :=
  s.immInt k 1 rd rs1 imm (fun a b => a &&& b)
/-- ORI. -/
def execOri (k : At) (rd rs1 : BitVec 5) (imm : BitVec 12) (s : State) : Host.Outcome State Fault Refusal :=
  s.immInt k 2 rd rs1 imm (fun a b => a ||| b)
/-- XORI. -/
def execXori (k : At) (rd rs1 : BitVec 5) (imm : BitVec 12) (s : State) : Host.Outcome State Fault Refusal :=
  s.immInt k 3 rd rs1 imm (fun a b => a ^^^ b)
/-- SLTI. -/
def execSlti (k : At) (rd rs1 : BitVec 5) (imm : BitVec 12) (s : State) : Host.Outcome State Fault Refusal :=
  s.immInt k 7 rd rs1 imm (fun a b => flag64 (a.slt b))
/-- SLLI; IMM[11:6] is 0. -/
def execSlli (k : At) (rd rs1 : BitVec 5) (sh : BitVec 6) (s : State) : Host.Outcome State Fault Refusal :=
  s.immInt k 4 rd rs1 (sh.setWidth 12) (fun a _ => a <<< sh.toNat)
/-- SRLI; IMM[11:6] is 0. -/
def execSrli (k : At) (rd rs1 : BitVec 5) (sh : BitVec 6) (s : State) : Host.Outcome State Fault Refusal :=
  s.immInt k 5 rd rs1 (sh.setWidth 12) (fun a _ => a >>> sh.toNat)
/-- SRAI; IMM[11:6] is 0. -/
def execSrai (k : At) (rd rs1 : BitVec 5) (sh : BitVec 6) (s : State) : Host.Outcome State Fault Refusal :=
  s.immInt k 6 rd rs1 (sh.setWidth 12) (fun a _ => a.sshiftRight sh.toNat)
/-- LUP. -/
def execLup (k : At) (rd : BitVec 5) (imm : BitVec 20) (s : State) : Host.Outcome State Fault Refusal :=
  s.instr k.core (encUp 0x05 rd imm) false false anywhere fun s c => .done s (c.setX rd (upper20 imm))
/-- PCUP. -/
def execPcup (k : At) (rd : BitVec 5) (imm : BitVec 20) (s : State) : Host.Outcome State Fault Refusal :=
  s.instr k.core (encUp 0x06 rd imm) false false anywhere fun s c => .done s (c.setX rd (c.pc + upper20 imm))

end Sys2Proof.Machine
end

