-- ==== Sys2Proof/Machine/ScaMem.lean ====
section
/-! DEFINITION. Scalar loads and stores, branches, jumps, calls and the shadow stack, LOOP, SCOPY, and the system
instructions (13, Scalar memory and control; 14 R422-R434). -/

namespace Sys2Proof.Machine

/-! ### Loads and stores (R407) -/

/-- The checks of a scalar access of n bytes at an address, then what it does. -/
def Core.aligned (c : Core) (k : At) (s : State) (write : Bool) (a : BitVec 64) (n : Nat) (go : CoreEnd) : CoreEnd :=
  if a.toNat % n ≠ 0 then .fault s c cMisalign a
  else
    match c.access k.core k.ue write a n with
    | .denied => .fault s c cAccess a
    | .dataErr => .fault s c cDataErr a
    | .device => .device
    | .ok => go

/-- The address of the MEM format. -/
def Core.memAddr (c : Core) (rs1 : BitVec 5) (imm : BitVec 12) : BitVec 64 := c.getX rs1 + imm.signExtend 64

/-- A scalar load of n bytes; `put` writes what was read. -/
def State.load (s : State) (k : At) (major fn n : Nat) (rt rs1 : BitVec 5) (imm : BitVec 12) (put : Core → Nat → Core) :
    Host.Outcome State Fault Refusal :=
  s.instr k.core (encImm major fn rt rs1 imm) false false anywhere fun s c =>
    c.aligned k s false (c.memAddr rs1 imm) n (.done s (put c (s.bytesIn k.core c (c.memAddr rs1 imm) n)))

/-- A scalar store of the low n bytes of a value. -/
def State.store_ (s : State) (k : At) (major fn n : Nat) (rt rs1 : BitVec 5) (imm : BitVec 12) (val : Core → Nat) :
    Host.Outcome State Fault Refusal :=
  s.instr k.core (encImm major fn rt rs1 imm) false false anywhere fun s c =>
    c.aligned k s true (c.memAddr rs1 imm) n
      (let r := s.bytesOut k.core c (c.memAddr rs1 imm) (leBytes n (val c))
       .done r.1 r.2)

/-- n bytes as a register value, sign- or zero-extended. -/
def extendBytes (n : Nat) (signed : Bool) (v : Nat) : BitVec 64 :=
  if signed then BitVec.ofInt 64 (signedAt (8 * n) v) else BitVec.ofNat 64 v

/-- LB. -/
def execLb (k : At) (rt rs1 : BitVec 5) (imm : BitVec 12) (s : State) : Host.Outcome State Fault Refusal :=
  s.load k 0x03 0 1 rt rs1 imm fun c v => c.setX rt (extendBytes 1 true v)
/-- LH. -/
def execLh (k : At) (rt rs1 : BitVec 5) (imm : BitVec 12) (s : State) : Host.Outcome State Fault Refusal :=
  s.load k 0x03 1 2 rt rs1 imm fun c v => c.setX rt (extendBytes 2 true v)
/-- LW. -/
def execLw (k : At) (rt rs1 : BitVec 5) (imm : BitVec 12) (s : State) : Host.Outcome State Fault Refusal :=
  s.load k 0x03 2 4 rt rs1 imm fun c v => c.setX rt (extendBytes 4 true v)
/-- LD. -/
def execLd (k : At) (rt rs1 : BitVec 5) (imm : BitVec 12) (s : State) : Host.Outcome State Fault Refusal :=
  s.load k 0x03 3 8 rt rs1 imm fun c v => c.setX rt (extendBytes 8 true v)
/-- LBU. -/
def execLbu (k : At) (rt rs1 : BitVec 5) (imm : BitVec 12) (s : State) : Host.Outcome State Fault Refusal :=
  s.load k 0x03 4 1 rt rs1 imm fun c v => c.setX rt (extendBytes 1 false v)
/-- LHU. -/
def execLhu (k : At) (rt rs1 : BitVec 5) (imm : BitVec 12) (s : State) : Host.Outcome State Fault Refusal :=
  s.load k 0x03 5 2 rt rs1 imm fun c v => c.setX rt (extendBytes 2 false v)
/-- LWU. -/
def execLwu (k : At) (rt rs1 : BitVec 5) (imm : BitVec 12) (s : State) : Host.Outcome State Fault Refusal :=
  s.load k 0x03 6 4 rt rs1 imm fun c v => c.setX rt (extendBytes 4 false v)
/-- SB. -/
def execSb (k : At) (rt rs1 : BitVec 5) (imm : BitVec 12) (s : State) : Host.Outcome State Fault Refusal :=
  s.store_ k 0x04 0 1 rt rs1 imm fun c => (c.getX rt).toNat
/-- SH. -/
def execSh (k : At) (rt rs1 : BitVec 5) (imm : BitVec 12) (s : State) : Host.Outcome State Fault Refusal :=
  s.store_ k 0x04 1 2 rt rs1 imm fun c => (c.getX rt).toNat
/-- SW. -/
def execSw (k : At) (rt rs1 : BitVec 5) (imm : BitVec 12) (s : State) : Host.Outcome State Fault Refusal :=
  s.store_ k 0x04 2 4 rt rs1 imm fun c => (c.getX rt).toNat
/-- SD. -/
def execSd (k : At) (rt rs1 : BitVec 5) (imm : BitVec 12) (s : State) : Host.Outcome State Fault Refusal :=
  s.store_ k 0x04 3 8 rt rs1 imm fun c => (c.getX rt).toNat
/-- FLW (R398). -/
def execFlw (k : At) (fd rs1 : BitVec 5) (imm : BitVec 12) (s : State) : Host.Outcome State Fault Refusal :=
  s.load k 0x11 2 4 fd rs1 imm fun c v => c.setF .single fd v
/-- FLD (R398). -/
def execFld (k : At) (fd rs1 : BitVec 5) (imm : BitVec 12) (s : State) : Host.Outcome State Fault Refusal :=
  s.load k 0x11 3 8 fd rs1 imm fun c v => c.setF .double fd v
/-- FSW. -/
def execFsw (k : At) (fs rs1 : BitVec 5) (imm : BitVec 12) (s : State) : Host.Outcome State Fault Refusal :=
  s.store_ k 0x12 2 4 fs rs1 imm fun c => c.getF .single fs
/-- FSD. -/
def execFsd (k : At) (fs rs1 : BitVec 5) (imm : BitVec 12) (s : State) : Host.Outcome State Fault Refusal :=
  s.store_ k 0x12 3 8 fs rs1 imm fun c => c.getF .double fs

/-! ### Branches, jumps, calls (R409, R429, R430) -/

/-- A branch. -/
def State.branch (s : State) (k : At) (fn : Nat) (rs1 rs2 : BitVec 5) (off : BitVec 12)
    (taken : BitVec 64 → BitVec 64 → Bool) : Host.Outcome State Fault Refusal :=
  s.instr k.core (encBr fn rs1 rs2 off) false true anywhere fun s c =>
    .jump s { c with pc := if taken (c.getX rs1) (c.getX rs2) then c.pc + off.signExtend 64 * 4 else c.pc + 4 }

/-- BEQ. -/
def execBeq (k : At) (rs1 rs2 : BitVec 5) (off : BitVec 12) (s : State) : Host.Outcome State Fault Refusal :=
  s.branch k 0 rs1 rs2 off (fun a b => a == b)
/-- BNE. -/
def execBne (k : At) (rs1 rs2 : BitVec 5) (off : BitVec 12) (s : State) : Host.Outcome State Fault Refusal :=
  s.branch k 1 rs1 rs2 off (fun a b => a != b)
/-- BLT. -/
def execBlt (k : At) (rs1 rs2 : BitVec 5) (off : BitVec 12) (s : State) : Host.Outcome State Fault Refusal :=
  s.branch k 2 rs1 rs2 off (fun a b => a.slt b)
/-- BGE. -/
def execBge (k : At) (rs1 rs2 : BitVec 5) (off : BitVec 12) (s : State) : Host.Outcome State Fault Refusal :=
  s.branch k 3 rs1 rs2 off (fun a b => !(a.slt b))
/-- BLTU. -/
def execBltu (k : At) (rs1 rs2 : BitVec 5) (off : BitVec 12) (s : State) : Host.Outcome State Fault Refusal :=
  s.branch k 4 rs1 rs2 off (fun a b => a.ult b)
/-- BGEU. -/
def execBgeu (k : At) (rs1 rs2 : BitVec 5) (off : BitVec 12) (s : State) : Host.Outcome State Fault Refusal :=
  s.branch k 5 rs1 rs2 off (fun a b => !(a.ult b))
/-- J; RD is 0. -/
def execJ (k : At) (off : BitVec 20) (s : State) : Host.Outcome State Fault Refusal :=
  s.instr k.core (encUp 0x09 0 off) false true anywhere fun s c => .jump s { c with pc := c.pc + off.signExtend 64 * 4 }

/-- Whether the eight bytes of a shadow stack entry lie in the core's scratch or MC SRAM (14 R423). -/
def Core.shadowReach (c : Core) (k : CoreId) (a : BitVec 64) : Bool := (span a 8).all fun x => c.region k x == .scratch

/-- CALL and CALLR to a target (R429). -/
def callTo (k : At) (rd : BitVec 5) (target : BitVec 64) (s : State) (c : Core) : CoreEnd :=
  if c.sslimit.toNat < c.ssp.toNat + 8 then .fault s c cSsovf c.ssp
  else if target.toNat % 4 ≠ 0 then .fault s c cMisalign target
  else if !(c.shadowReach k.core c.ssp) then .fault s c cAccess c.ssp
  else
    let r := s.bytesOut k.core c c.ssp (leBytes 8 (c.pc + 4).toNat)
    .jump r.1 { (r.2.setX rd (c.pc + 4)) with ssp := c.ssp + 8, pc := target }

/-- CALL. -/
def execCall (k : At) (rd : BitVec 5) (off : BitVec 20) (s : State) : Host.Outcome State Fault Refusal :=
  s.instr k.core (encUp 0x0A rd off) false true anywhere fun s c => callTo k rd (c.pc + off.signExtend 64 * 4) s c
/-- JR; RD is 0. -/
def execJr (k : At) (rs1 : BitVec 5) (imm : BitVec 12) (s : State) : Host.Outcome State Fault Refusal :=
  s.instr k.core (encImm 0x0B 0 0 rs1 imm) false true anywhere fun s c =>
    if (c.memAddr rs1 imm).toNat % 4 ≠ 0 then .fault s c cMisalign (c.memAddr rs1 imm)
    else .jump s { c with pc := c.memAddr rs1 imm }
/-- CALLR. -/
def execCallr (k : At) (rd rs1 : BitVec 5) (imm : BitVec 12) (s : State) : Host.Outcome State Fault Refusal :=
  s.instr k.core (encImm 0x0B 1 rd rs1 imm) false true anywhere fun s c => callTo k rd (c.memAddr rs1 imm) s c
/-- RET; RD and IMM are 0 (R430). -/
def execRet (k : At) (rs1 : BitVec 5) (s : State) : Host.Outcome State Fault Refusal :=
  s.instr k.core (encImm 0x0B 2 0 rs1 0) false true anywhere fun s c =>
    if c.ssp = c.ssbase then .fault s c cCfi (c.getX rs1)
    else if !(c.shadowReach k.core (c.ssp - 8)) then .fault s c cAccess (c.ssp - 8)
    else if k.ue.any fun u => (span (c.ssp - 8) 8).contains u.toNat then .fault s c cDataErr (c.ssp - 8)
    else if s.bytesIn k.core c (c.ssp - 8) 8 ≠ (c.getX rs1).toNat then .fault s c cCfi (c.getX rs1)
    else .jump s { c with ssp := c.ssp - 8, pc := pcOf (c.getX rs1) }

/-! ### LOOP (R411) -/

/-- A loop level's registers set. -/
def Core.setLoop (c : Core) (lvl : BitVec 1) (start end_ count : BitVec 64) : Core :=
  if lvl = 0 then { c with lstart0 := start, lend0 := end_, lcount0 := count }
  else { c with lstart1 := start, lend1 := end_, lcount1 := count }

/-- LOOP; an OFF of 0 is illegal. -/
def execLoop (k : At) (lvl : BitVec 1) (rs1 : BitVec 5) (off : BitVec 15) (s : State) : Host.Outcome State Fault Refusal :=
  s.instr k.core (encLp lvl rs1 off) false true (fun _ => off != 0) fun s c =>
    let last := c.pc + off.setWidth 64 * 4
    if c.getX rs1 = 0 then .jump s { c with pc := last + 4 }
    else .jump s { (c.setLoop lvl (c.pc + 4) last (c.getX rs1)) with pc := c.pc + 4 }

/-! ### SCOPY (R411, R441) -/

/-- Where an interrupt stops a resumable instruction of `len` steps with element groups of `g`: at a group boundary inside it,
if a source can be taken (R438, R442). -/
def Core.stopAt (c : Core) (k : At) (g len : Nat) : Option Nat :=
  match k.stop with
  | some e =>
    if (c.takeable k.core).isSome && decide (c.vprog.toNat < e.toNat) && decide (e.toNat < len) && e.toNat % g == 0 then
      some e.toNat
    else none
  | none => none

/-- How the bytes or elements of a resumable instruction ended. -/
inductive RunEnd where
  | whole (s : State) (c : Core)
  | fault (s : State) (c : Core) (at_ : Nat) (code : BitVec 8) (eval : BitVec 64)
  | device

/-- Steps `i` up, `n` of them, each of which goes on or raises a cause. -/
def runSteps (step : State → Core → Nat → RunEnd) : Nat → Nat → State → Core → RunEnd
  | 0, _, s, c => .whole s c
  | n + 1, i, s, c =>
    match step s c i with
    | .whole s c => runSteps step n (i + 1) s c
    | r => r

/-- A resumable instruction of `len` steps from VPROG on: whole, stopped at a boundary, or faulting at a step, with VPROG the
steps done (R442); `fin` is what completion adds. -/
def resumeFrom (k : At) (g len : Nat) (step : State → Core → Nat → RunEnd) (fin : Core → Core) (s : State) (c : Core) : CoreEnd :=
  let stop := c.stopAt k g len
  match runSteps step (stop.getD len - c.vprog.toNat) c.vprog.toNat s c with
  | .whole s d =>
    match stop with
    | some e => .stop s { d with vprog := BitVec.ofNat 64 e }
    | none => .done s (fin d)
  | .fault s d i code eval => .fault s { d with vprog := BitVec.ofNat 64 i } code eval
  | .device => .device

/-- Whether the regions of an SCOPY overlap. -/
def copyOverlaps (dst src len : Nat) : Bool :=
  let d := (dst + 2 ^ 64 - src % 2 ^ 64) % 2 ^ 64
  decide (d < len) || decide (2 ^ 64 - d < len)

/-- One byte of SCOPY; where the regions overlap, what it writes is unspecified. -/
def copyByte (k : At) (dst src : BitVec 64) (free : Option Nat) (s : State) (c : Core) (b : Nat) : RunEnd :=
  let from_ := src + BitVec.ofNat 64 b
  let to_ := dst + BitVec.ofNat 64 b
  match c.access k.core k.ue false from_ 1, c.access k.core k.ue true to_ 1 with
  | .denied, _ => .fault s c b cAccess from_
  | .device, _ => .device
  | .dataErr, _ => .fault s c b cDataErr from_
  | .ok, .device => .device
  | .ok, .ok =>
    let v := match free with
      | some n => Config.freeByte (n + b)
      | none => s.byteIn k.core c from_.toNat
    let r := s.byteOut k.core c to_.toNat v
    .whole r.1 r.2
  | .ok, _ => .fault s c b cAccess to_

/-- SCOPY. -/
def execScopy (k : At) (rd rs1 rs2 : BitVec 5) (s : State) : Host.Outcome State Fault Refusal :=
  s.instr k.core (encOp 0x1F 0 rd rs1 rs2) true false anywhere fun s c =>
    let len := (c.getX rs2).toNat
    let dst := c.getX rd
    let src := c.getX rs1
    let free := if copyOverlaps dst.toNat src.toNat len then some s.free else none
    resumeFrom k 64 len (copyByte k dst src free) id (if free.isSome then { s with free := s.free + len } else s) c

/-! ### Control and status registers (R410; 14 R424, R432, R433) -/

/-- After an instruction that cleared GM, a pending enabled source is taken before the next one, as from the new mode (R433). -/
def takeAfter (k : At) (old : Core) (o : Host.Outcome State Fault Refusal) : Host.Outcome State Fault Refusal :=
  match o with
  | .next s =>
    let c := s.core k.core
    match (if old.gm && !c.gm then c.takeable k.core else none) with
    | some a => .next (s.takeAt k.core c a c.pc 0)
    | none => .next s
  | o => o

/-- CSRGET; RS1 is 0. -/
def execCsrget (k : At) (rd : BitVec 5) (csr : BitVec 12) (s : State) : Host.Outcome State Fault Refusal :=
  s.instr k.core (encSys 0 csr rd 0) false false (fun c => c.csrAccess k.core csr.toNat != .none) fun s c =>
    .done s (c.setX rd (s.csrRead k.core c csr.toNat))

/-- A write of a CSR, whose failed check is ILLEGAL. -/
def putCsr (k : At) (w : BitVec 32) (csr : BitVec 12) (v : BitVec 64) (s : State) (c : Core) : CoreEnd :=
  if c.csrAccess k.core csr.toNat ≠ .rw then .fault s c cIllegal (w.setWidth 64)
  else
    match s.csrWrite k.core c csr.toNat v with
    | some r => .done r.1 r.2
    | none => .fault s c cIllegal (w.setWidth 64)

/-- CSRPUT; RD is 0. -/
def execCsrput (k : At) (csr : BitVec 12) (rs1 : BitVec 5) (s : State) : Host.Outcome State Fault Refusal :=
  takeAfter k (s.core k.core)
    (s.instr k.core (encSys 1 csr 0 rs1) false false anywhere fun s c =>
      putCsr k (encSys 1 csr 0 rs1) csr (c.getX rs1) s c)

/-- CSRPUTM; RD names the mask. -/
def execCsrputm (k : At) (csr : BitVec 12) (rs1 rm : BitVec 5) (s : State) : Host.Outcome State Fault Refusal :=
  takeAfter k (s.core k.core)
    (s.instr k.core (encSys 2 csr rm rs1) false false (fun c => c.csrAccess k.core csr.toNat != .none) fun s c =>
      let m := c.getX rm
      if m = 0 then .done s c
      else putCsr k (encSys 2 csr rm rs1) csr ((s.csrRead k.core c csr.toNat &&& ~~~m) ||| (c.getX rs1 &&& m)) s c)

/-! ### Modes and events (14 R422, R426, R427) -/

/-- CALLK: a trap with EPC = PC + 4. -/
def execCallk (k : At) (s : State) : Host.Outcome State Fault Refusal :=
  s.instr k.core (encSys 3 0 0 0) false true (fun c => c.mode == k.core.low) fun s c =>
    .jump s (c.trap k.core cKcall false 0 (c.pc + 4))

/-- Whether RETK may run: in the trap mode, with a KLINK_STATUS of a mode that the core has, and not U with GM = 1. -/
def Core.mayReturn (c : Core) (k : CoreId) : Bool :=
  let m := c.klinkStatus.setWidth 2
  c.mode == k.trapMode && (m == k.low || m == k.trapMode) && !(m == 0 && c.klinkStatus.getLsbD 2)

/-- RETK's steps 2 and 3 (R426). -/
def Core.return (c : Core) : Core :=
  let m := c.klinkStatus.setWidth 2
  let d := if m = c.mode then c else c.swapSp.setMode m
  { d with gm := c.klinkStatus.getLsbD 2, vprog := c.klinkVprog, pc := pcOf c.klinkPc }

/-- RETK. -/
def execRetk (k : At) (s : State) : Host.Outcome State Fault Refusal :=
  takeAfter k (s.core k.core)
    (s.instr k.core (encSys 4 0 0 0) false true (fun c => c.mayReturn k.core) fun s c => .jump s c.return)

/-- FENCE: nothing overtakes anything in this model (R399). -/
def execFence (k : At) (s : State) : Host.Outcome State Fault Refusal :=
  s.instr k.core (encSys 5 0 0 0) false false anywhere fun s c => .done s c

/-- WFE: the core waits until an enabled source is pending. -/
def execWfe (k : At) (s : State) : Host.Outcome State Fault Refusal :=
  s.instr k.core (encSys 6 0 0 0) false false (fun c => c.mode != 0) fun s c =>
    .done s { c with waiting := !c.pendingEnabled }

/-- BREAK. -/
def execBrk (k : At) (s : State) : Host.Outcome State Fault Refusal :=
  s.instr k.core (encSys 7 0 0 0) false false anywhere fun s c => .fault s c cBreak 0

end Sys2Proof.Machine
end

