-- ==== Sys2Proof/Machine/ScaVec.lean ====
section
/-! DEFINITION. The vector instructions but for the stream ports (13, Vector; R401-R405, R407, R441-R443). -/

namespace Sys2Proof.Machine

/-! ### Length (R401) -/

/-- The elements an instruction operates on: below VL, and none that no register has. -/
def Core.lanes (c : Core) (k : CoreId) : Nat := Nat.min c.vl.toNat (vlMax k c.sew)

/-- SEW and VL set; VL is the least of the length asked for and VLMAX. -/
def Core.setVl (c : Core) (k : CoreId) (rd : BitVec 5) (avl : Nat) (sew : BitVec 2) : Core :=
  let vl := BitVec.ofNat 64 (Nat.min avl (vlMax k sew))
  { (c.setX rd vl) with sew := sew, vl := vl }

/-- SETVL; IMM[11:2] is 0. -/
def execSetvl (k : At) (rd rs1 : BitVec 5) (sew : BitVec 2) (s : State) : Host.Outcome State Fault Refusal :=
  s.instr k.core (encImm 0x18 0 rd rs1 (sew.setWidth 12)) false false anywhere fun s c =>
    .done s (c.setVl k.core rd (c.getX rs1).toNat sew)
/-- SETVLMAX; RS1 is 0. -/
def execSetvlmax (k : At) (rd : BitVec 5) (sew : BitVec 2) (s : State) : Host.Outcome State Fault Refusal :=
  s.instr k.core (encImm 0x18 1 rd 0 (sew.setWidth 12)) false false anywhere fun s c =>
    .done s (c.setVl k.core rd (2 ^ 64 - 1) sew)

/-! ### Shapes of instructions (R402, R403, R442) -/

/-- A vector instruction that has no effect where VL is 0 (R401), legal where `ok` says so. -/
def State.vector (s : State) (k : At) (w : BitVec 32) (ok : Core → Bool) (body : State → Core → CoreEnd) :
    Host.Outcome State Fault Refusal :=
  s.instr k.core w true false ok fun s c => if c.vl = 0 then .done s c else body s c

/-- What becomes of a destination element: a result with flags, or nothing. -/
def putElem (k : At) (pg : BitVec 3) (z : Bool) (vd : BitVec 5) (f : Nat → Option (Nat × BitVec 5)) (s : State) (c : Core) (i : Nat) :
    RunEnd :=
  if c.active k.core pg i then
    match f i with
    | some r => .whole s ((c.setV vd (setElem (c.getV vd) c.eb i r.1)).addFlags r.2)
    | none => .whole s c
  else if z then .whole s (c.setV vd (setElem (c.getV vd) c.eb i 0))
  else .whole s c

/-- vd[i] = f of the state before, for the active elements from VPROG on, in groups of a beat. -/
def State.vElems (s : State) (k : At) (w : BitVec 32) (ok : Core → Bool) (vd : BitVec 5) (pg : BitVec 3) (z : Bool)
    (f : Core → Nat → Nat × BitVec 5) : Host.Outcome State Fault Refusal :=
  s.vector k w ok fun s c =>
    resumeFrom k (64 / c.eb) (c.lanes k.core) (putElem k pg z vd fun i => some (f c i)) id s c

/-- The same as one element group (VSLIDE, VGATHER); where `f` gives none, the element is left as it is. -/
def State.vWhole (s : State) (k : At) (w : BitVec 32) (ok : Core → Bool) (vd : BitVec 5) (pg : BitVec 3) (z : Bool)
    (f : Core → Nat → Option Nat) : Host.Outcome State Fault Refusal :=
  s.vector k w ok fun s c =>
    resumeFrom { k with stop := none } 1 (c.lanes k.core)
      (putElem k pg z vd fun i => (f c i).map fun n => (n, 0)) id s c

/-- One element of a compare (R403). -/
def putBit (k : At) (pg : BitVec 3) (z : Bool) (pd : BitVec 3) (f : Nat → Bool × BitVec 5) (s : State) (c : Core) (i : Nat) : RunEnd :=
  if c.active k.core pg i then .whole s ((c.setP pd (setPred (c.getP k.core pd) c.eb i (f i).1)).addFlags (f i).2)
  else if z then .whole s (c.setP pd (setPred (c.getP k.core pd) c.eb i false))
  else .whole s c

/-- A predicate operand field: bits 4:3 are 0. -/
def predField (p : BitVec 5) : Bool := p.toNat < 8

/-- pd[i] = f. -/
def State.vCompare (s : State) (k : At) (w : BitVec 32) (ok : Core → Bool) (pd : BitVec 5) (pg : BitVec 3) (z : Bool)
    (f : Core → Nat → Bool × BitVec 5) : Host.Outcome State Fault Refusal :=
  s.vector k w (fun c => ok c && predField pd && pd != 0) fun s c =>
    resumeFrom k (64 / c.eb) (c.lanes k.core) (putBit k pg z (pd.setWidth 3) (f c)) id s c

/-- Where FP is legal: SEW 2 or 3, or VL 0, which has no effect. -/
def Core.fpOk (c : Core) : Bool := c.vl == 0 || 2 ≤ c.sew.toNat
/-- The format of FP elements. -/
def Core.vFmt (c : Core) : FFmt := if c.sew = 2 then f32 else f64

/-! ### Integer (R404) -/

/-- An integer operation of vs1[i] and the second source, at the element's width. -/
def State.vInt (s : State) (k : At) (fn : Nat) (shift : Bool) (vd vs1 : BitVec 5) (s2 : VSrc) (pg : BitVec 3) (z : Bool)
    (f : Nat → Nat → Nat → Nat) : Host.Outcome State Fault Refusal :=
  s.vElems k (encV 0x19 fn s2.form z pg vd vs1 s2.field) (fun _ => !s2.isVf) vd pg z fun c i =>
    (f (8 * c.eb) (elem (c.getV vs1) c.eb i) (c.src2 s2 shift i), 0)

/-- Operations at a width. -/
def mulHighAt (w a b : Nat) : Nat := wrapAt w (signedAt w a * signedAt w b / 2 ^ w)
def shiftRightSigned (w a n : Nat) : Nat := wrapAt w (signedAt w a / 2 ^ n)

/-- VADD. -/
def execVadd (k : At) (vd vs1 : BitVec 5) (s2 : VSrc) (pg : BitVec 3) (z : Bool) (s : State) : Host.Outcome State Fault Refusal :=
  s.vInt k 0 false vd vs1 s2 pg z (fun _ a b => a + b)
/-- VSUB. -/
def execVsub (k : At) (vd vs1 : BitVec 5) (s2 : VSrc) (pg : BitVec 3) (z : Bool) (s : State) : Host.Outcome State Fault Refusal :=
  s.vInt k 1 false vd vs1 s2 pg z (fun w a b => a + 2 ^ w - b)
/-- VAND. -/
def execVand (k : At) (vd vs1 : BitVec 5) (s2 : VSrc) (pg : BitVec 3) (z : Bool) (s : State) : Host.Outcome State Fault Refusal :=
  s.vInt k 2 false vd vs1 s2 pg z (fun _ a b => a &&& b)
/-- VOR. -/
def execVor (k : At) (vd vs1 : BitVec 5) (s2 : VSrc) (pg : BitVec 3) (z : Bool) (s : State) : Host.Outcome State Fault Refusal :=
  s.vInt k 3 false vd vs1 s2 pg z (fun _ a b => a ||| b)
/-- VXOR. -/
def execVxor (k : At) (vd vs1 : BitVec 5) (s2 : VSrc) (pg : BitVec 3) (z : Bool) (s : State) : Host.Outcome State Fault Refusal :=
  s.vInt k 4 false vd vs1 s2 pg z (fun _ a b => a ^^^ b)
/-- VSLL. -/
def execVsll (k : At) (vd vs1 : BitVec 5) (s2 : VSrc) (pg : BitVec 3) (z : Bool) (s : State) : Host.Outcome State Fault Refusal :=
  s.vInt k 5 true vd vs1 s2 pg z (fun w a b => a * 2 ^ (b % w))
/-- VSRL. -/
def execVsrl (k : At) (vd vs1 : BitVec 5) (s2 : VSrc) (pg : BitVec 3) (z : Bool) (s : State) : Host.Outcome State Fault Refusal :=
  s.vInt k 6 true vd vs1 s2 pg z (fun w a b => a / 2 ^ (b % w))
/-- VSRA. -/
def execVsra (k : At) (vd vs1 : BitVec 5) (s2 : VSrc) (pg : BitVec 3) (z : Bool) (s : State) : Host.Outcome State Fault Refusal :=
  s.vInt k 7 true vd vs1 s2 pg z (fun w a b => shiftRightSigned w a (b % w))
/-- VMUL. -/
def execVmul (k : At) (vd vs1 : BitVec 5) (s2 : VSrc) (pg : BitVec 3) (z : Bool) (s : State) : Host.Outcome State Fault Refusal :=
  s.vInt k 8 false vd vs1 s2 pg z (fun _ a b => a * b)
/-- VMULH. -/
def execVmulh (k : At) (vd vs1 : BitVec 5) (s2 : VSrc) (pg : BitVec 3) (z : Bool) (s : State) : Host.Outcome State Fault Refusal :=
  s.vInt k 9 false vd vs1 s2 pg z mulHighAt
/-- VMIN. -/
def execVmin (k : At) (vd vs1 : BitVec 5) (s2 : VSrc) (pg : BitVec 3) (z : Bool) (s : State) : Host.Outcome State Fault Refusal :=
  s.vInt k 10 false vd vs1 s2 pg z (fun w a b => if signedAt w a < signedAt w b then a else b)
/-- VMAX. -/
def execVmax (k : At) (vd vs1 : BitVec 5) (s2 : VSrc) (pg : BitVec 3) (z : Bool) (s : State) : Host.Outcome State Fault Refusal :=
  s.vInt k 11 false vd vs1 s2 pg z (fun w a b => if signedAt w a < signedAt w b then b else a)
/-- VMINU. -/
def execVminu (k : At) (vd vs1 : BitVec 5) (s2 : VSrc) (pg : BitVec 3) (z : Bool) (s : State) : Host.Outcome State Fault Refusal :=
  s.vInt k 12 false vd vs1 s2 pg z (fun _ a b => if a < b then a else b)
/-- VMAXU. -/
def execVmaxu (k : At) (vd vs1 : BitVec 5) (s2 : VSrc) (pg : BitVec 3) (z : Bool) (s : State) : Host.Outcome State Fault Refusal :=
  s.vInt k 13 false vd vs1 s2 pg z (fun _ a b => if a < b then b else a)
/-- VSADDU. -/
def execVsaddu (k : At) (vd vs1 : BitVec 5) (s2 : VSrc) (pg : BitVec 3) (z : Bool) (s : State) : Host.Outcome State Fault Refusal :=
  s.vInt k 14 false vd vs1 s2 pg z (fun w a b => Nat.min (a + b) (2 ^ w - 1))
/-- VMACC: vd + vs1 × s2. -/
def execVmacc (k : At) (vd vs1 : BitVec 5) (s2 : VSrc) (pg : BitVec 3) (z : Bool) (s : State) : Host.Outcome State Fault Refusal :=
  s.vElems k (encV 0x19 15 s2.form z pg vd vs1 s2.field) (fun _ => !s2.isVf) vd pg z fun c i =>
    (elem (c.getV vd) c.eb i + elem (c.getV vs1) c.eb i * c.src2 s2 false i, 0)

/-! ### Floating point (R405) -/

/-- The second source of an FP instruction: an element, or f[S2]. -/
def Core.fpSrc2 (c : Core) (s2 : VSrc) (i : Nat) : Nat := elem (c.getV s2.field) c.eb (if s2.isVf then 0 else i)

/-- An FP operation of vs1[i] and the second source. -/
def State.vFp (s : State) (k : At) (fn : Nat) (vd vs1 : BitVec 5) (s2 : VSrc) (pg : BitVec 3) (z : Bool)
    (f : FFmt → Nat → Nat → Nat → Nat × BitVec 5) : Host.Outcome State Fault Refusal :=
  s.vElems k (encV 0x1A fn s2.form z pg vd vs1 s2.field) (fun c => (s2.isVv || s2.isVf) && c.fpOk) vd pg z fun c i =>
    f c.vFmt (elem (c.getV vd) c.eb i) (elem (c.getV vs1) c.eb i) (c.fpSrc2 s2 i)

/-- An FP operation of vs1[i] alone; S2 is 0. -/
def State.vFp1 (s : State) (k : At) (fn : Nat) (vd vs1 : BitVec 5) (pg : BitVec 3) (z : Bool)
    (f : FFmt → Nat → Nat → Nat × BitVec 5) : Host.Outcome State Fault Refusal :=
  s.vElems k (encV 0x1A fn 0 z pg vd vs1 0) Core.fpOk vd pg z fun c i => f c.vFmt (8 * c.eb) (elem (c.getV vs1) c.eb i)

/-- VFADD. -/
def execVfadd (k : At) (vd vs1 : BitVec 5) (s2 : VSrc) (pg : BitVec 3) (z : Bool) (s : State) : Host.Outcome State Fault Refusal :=
  s.vFp k 0 vd vs1 s2 pg z (fun m _ a b => m.add a b)
/-- VFSUB. -/
def execVfsub (k : At) (vd vs1 : BitVec 5) (s2 : VSrc) (pg : BitVec 3) (z : Bool) (s : State) : Host.Outcome State Fault Refusal :=
  s.vFp k 1 vd vs1 s2 pg z (fun m _ a b => m.sub a b)
/-- VFMUL. -/
def execVfmul (k : At) (vd vs1 : BitVec 5) (s2 : VSrc) (pg : BitVec 3) (z : Bool) (s : State) : Host.Outcome State Fault Refusal :=
  s.vFp k 2 vd vs1 s2 pg z (fun m _ a b => m.mul a b)
/-- VFDIV. -/
def execVfdiv (k : At) (vd vs1 : BitVec 5) (s2 : VSrc) (pg : BitVec 3) (z : Bool) (s : State) : Host.Outcome State Fault Refusal :=
  s.vFp k 3 vd vs1 s2 pg z (fun m _ a b => m.div a b)
/-- VFMIN. -/
def execVfmin (k : At) (vd vs1 : BitVec 5) (s2 : VSrc) (pg : BitVec 3) (z : Bool) (s : State) : Host.Outcome State Fault Refusal :=
  s.vFp k 4 vd vs1 s2 pg z (fun m _ a b => m.minMax false a b)
/-- VFMAX. -/
def execVfmax (k : At) (vd vs1 : BitVec 5) (s2 : VSrc) (pg : BitVec 3) (z : Bool) (s : State) : Host.Outcome State Fault Refusal :=
  s.vFp k 5 vd vs1 s2 pg z (fun m _ a b => m.minMax true a b)
/-- VFMACC. -/
def execVfmacc (k : At) (vd vs1 : BitVec 5) (s2 : VSrc) (pg : BitVec 3) (z : Bool) (s : State) : Host.Outcome State Fault Refusal :=
  s.vFp k 6 vd vs1 s2 pg z (fun m d a b => m.fma a b d)
/-- VFNMSAC. -/
def execVfnmsac (k : At) (vd vs1 : BitVec 5) (s2 : VSrc) (pg : BitVec 3) (z : Bool) (s : State) : Host.Outcome State Fault Refusal :=
  s.vFp k 7 vd vs1 s2 pg z (fun m d a b => m.fma (m.negate a) b d)
/-- VFSQRT. -/
def execVfsqrt (k : At) (vd vs1 : BitVec 5) (pg : BitVec 3) (z : Bool) (s : State) : Host.Outcome State Fault Refusal :=
  s.vFp1 k 8 vd vs1 pg z (fun m _ a => m.sqrt a)
/-- VFCVTXF. -/
def execVfcvtxf (k : At) (vd vs1 : BitVec 5) (pg : BitVec 3) (z : Bool) (s : State) : Host.Outcome State Fault Refusal :=
  s.vFp1 k 9 vd vs1 pg z (fun m w a => m.toInt w a)
/-- VFCVTFX. -/
def execVfcvtfx (k : At) (vd vs1 : BitVec 5) (pg : BitVec 3) (z : Bool) (s : State) : Host.Outcome State Fault Refusal :=
  s.vFp1 k 10 vd vs1 pg z (fun m w a => m.ofInt (signedAt w a))
/-- VFABS. -/
def execVfabs (k : At) (vd vs1 : BitVec 5) (pg : BitVec 3) (z : Bool) (s : State) : Host.Outcome State Fault Refusal :=
  s.vFp1 k 11 vd vs1 pg z (fun m _ a => (m.absVal a, 0))
/-- VFNEG. -/
def execVfneg (k : At) (vd vs1 : BitVec 5) (pg : BitVec 3) (z : Bool) (s : State) : Host.Outcome State Fault Refusal :=
  s.vFp1 k 12 vd vs1 pg z (fun m _ a => (m.negVal a, 0))

/-! ### Compares and predicate logic (R403) -/

/-- An integer compare. -/
def State.vCmp (s : State) (k : At) (fn : Nat) (pd vs1 : BitVec 5) (s2 : VSrc) (pg : BitVec 3) (z : Bool)
    (f : Nat → Nat → Nat → Bool) : Host.Outcome State Fault Refusal :=
  s.vCompare k (encV 0x1B fn s2.form z pg pd vs1 s2.field) (fun _ => !s2.isVf) pd pg z fun c i =>
    (f (8 * c.eb) (elem (c.getV vs1) c.eb i) (c.src2 s2 false i), 0)

/-- An FP compare. -/
def State.vFcmp (s : State) (k : At) (fn : Nat) (pd vs1 : BitVec 5) (s2 : VSrc) (pg : BitVec 3) (z : Bool) (p : FCmp) :
    Host.Outcome State Fault Refusal :=
  s.vCompare k (encV 0x1B fn s2.form z pg pd vs1 s2.field) (fun c => (s2.isVv || s2.isVf) && c.fpOk) pd pg z fun c i =>
    c.vFmt.compare p (elem (c.getV vs1) c.eb i) (c.fpSrc2 s2 i)

/-- VCEQ. -/
def execVceq (k : At) (pd vs1 : BitVec 5) (s2 : VSrc) (pg : BitVec 3) (z : Bool) (s : State) : Host.Outcome State Fault Refusal :=
  s.vCmp k 0 pd vs1 s2 pg z (fun _ a b => a == b)
/-- VCNE. -/
def execVcne (k : At) (pd vs1 : BitVec 5) (s2 : VSrc) (pg : BitVec 3) (z : Bool) (s : State) : Host.Outcome State Fault Refusal :=
  s.vCmp k 1 pd vs1 s2 pg z (fun _ a b => a != b)
/-- VCLT. -/
def execVclt (k : At) (pd vs1 : BitVec 5) (s2 : VSrc) (pg : BitVec 3) (z : Bool) (s : State) : Host.Outcome State Fault Refusal :=
  s.vCmp k 2 pd vs1 s2 pg z (fun w a b => decide (signedAt w a < signedAt w b))
/-- VCLE. -/
def execVcle (k : At) (pd vs1 : BitVec 5) (s2 : VSrc) (pg : BitVec 3) (z : Bool) (s : State) : Host.Outcome State Fault Refusal :=
  s.vCmp k 3 pd vs1 s2 pg z (fun w a b => decide (signedAt w a ≤ signedAt w b))
/-- VCLTU. -/
def execVcltu (k : At) (pd vs1 : BitVec 5) (s2 : VSrc) (pg : BitVec 3) (z : Bool) (s : State) : Host.Outcome State Fault Refusal :=
  s.vCmp k 4 pd vs1 s2 pg z (fun _ a b => decide (a < b))
/-- VCLEU. -/
def execVcleu (k : At) (pd vs1 : BitVec 5) (s2 : VSrc) (pg : BitVec 3) (z : Bool) (s : State) : Host.Outcome State Fault Refusal :=
  s.vCmp k 5 pd vs1 s2 pg z (fun _ a b => decide (a ≤ b))
/-- VCGT. -/
def execVcgt (k : At) (pd vs1 : BitVec 5) (s2 : VSrc) (pg : BitVec 3) (z : Bool) (s : State) : Host.Outcome State Fault Refusal :=
  s.vCmp k 6 pd vs1 s2 pg z (fun w a b => decide (signedAt w b < signedAt w a))
/-- VCGTU. -/
def execVcgtu (k : At) (pd vs1 : BitVec 5) (s2 : VSrc) (pg : BitVec 3) (z : Bool) (s : State) : Host.Outcome State Fault Refusal :=
  s.vCmp k 7 pd vs1 s2 pg z (fun _ a b => decide (b < a))
/-- VFCEQ. -/
def execVfceq (k : At) (pd vs1 : BitVec 5) (s2 : VSrc) (pg : BitVec 3) (z : Bool) (s : State) : Host.Outcome State Fault Refusal :=
  s.vFcmp k 8 pd vs1 s2 pg z .eq
/-- VFCLT. -/
def execVfclt (k : At) (pd vs1 : BitVec 5) (s2 : VSrc) (pg : BitVec 3) (z : Bool) (s : State) : Host.Outcome State Fault Refusal :=
  s.vFcmp k 9 pd vs1 s2 pg z .lt
/-- VFCLE. -/
def execVfcle (k : At) (pd vs1 : BitVec 5) (s2 : VSrc) (pg : BitVec 3) (z : Bool) (s : State) : Host.Outcome State Fault Refusal :=
  s.vFcmp k 10 pd vs1 s2 pg z .le
/-- Predicate logic, on all VLENB bits; PG and Z are 0. -/
def State.predOp (s : State) (k : At) (fn : Nat) (pd ps1 ps2 : BitVec 5) (f : BitVec 256 → BitVec 256 → BitVec 256) :
    Host.Outcome State Fault Refusal :=
  s.vector k (encV 0x1B fn 0 false 0 pd ps1 ps2) (fun _ => predField pd && predField ps1 && predField ps2 && pd != 0) fun s c =>
    .done s (c.setP (pd.setWidth 3) (f (c.getP k.core (ps1.setWidth 3)) (c.getP k.core (ps2.setWidth 3))))

/-- PAND. -/
def execPand (k : At) (pd ps1 ps2 : BitVec 5) (s : State) : Host.Outcome State Fault Refusal :=
  s.predOp k 11 pd ps1 ps2 (fun a b => a &&& b)
/-- POR. -/
def execPor (k : At) (pd ps1 ps2 : BitVec 5) (s : State) : Host.Outcome State Fault Refusal :=
  s.predOp k 12 pd ps1 ps2 (fun a b => a ||| b)
/-- PANDN. -/
def execPandn (k : At) (pd ps1 ps2 : BitVec 5) (s : State) : Host.Outcome State Fault Refusal :=
  s.predOp k 13 pd ps1 ps2 (fun a b => a &&& ~~~b)

/-! ### Permutes -/

/-- The active elements below a bound. -/
def Core.activeBelow (c : Core) (k : CoreId) (pg : BitVec 3) (n : Nat) : List Nat := (List.range n).filter (c.active k pg)

/-- One element packed. -/
def packElem (k : At) (pg : BitVec 3) (vd vs1 : BitVec 5) (s : State) (c : Core) (i : Nat) : RunEnd :=
  if c.active k.core pg i then
    .whole s (c.setV vd (setElem (c.getV vd) c.eb (c.activeBelow k.core pg i).length (elem (c.getV vs1) c.eb i)))
  else .whole s c

/-- VCOMPRESS; S2 is 0, VD ≠ VS1. -/
def execVcompress (k : At) (vd vs1 : BitVec 5) (pg : BitVec 3) (z : Bool) (s : State) : Host.Outcome State Fault Refusal :=
  s.vector k (encV 0x1C 0 0 z pg vd vs1 0) (fun _ => vd != vs1) fun s c =>
    let n := c.lanes k.core
    let packed := (c.activeBelow k.core pg n).length
    resumeFrom k (64 / c.eb) n (packElem k pg vd vs1)
      (fun d => if z then ((List.range n).drop packed).foldl (fun d j => d.setV vd (setElem (d.getV vd) d.eb j 0)) d else d) s c

/-- VSLIDEDN; VD ≠ VS1. -/
def execVslidedn (k : At) (vd vs1 : BitVec 5) (s2 : VSrc) (pg : BitVec 3) (z : Bool) (s : State) : Host.Outcome State Fault Refusal :=
  s.vWhole k (encV 0x1C 1 s2.form z pg vd vs1 s2.field) (fun _ => (s2.isVx || s2.isVi) && vd != vs1) vd pg z fun c i =>
    let n := c.src2 s2 false i
    some (if i + n < vlMax k.core c.sew then elem (c.getV vs1) c.eb (i + n) else 0)

/-- VSLIDEUP; VD ≠ VS1. -/
def execVslideup (k : At) (vd vs1 : BitVec 5) (s2 : VSrc) (pg : BitVec 3) (z : Bool) (s : State) : Host.Outcome State Fault Refusal :=
  s.vWhole k (encV 0x1C 2 s2.form z pg vd vs1 s2.field) (fun _ => (s2.isVx || s2.isVi) && vd != vs1) vd pg z fun c i =>
    let n := c.src2 s2 false i
    if n ≤ i then some (elem (c.getV vs1) c.eb (i - n)) else none

/-- VMV: a copy, or x, the immediate or f broadcast; VS1 is 0. -/
def execVmv (k : At) (vd : BitVec 5) (s2 : VSrc) (pg : BitVec 3) (z : Bool) (s : State) : Host.Outcome State Fault Refusal :=
  s.vElems k (encV 0x1C 3 s2.form z pg vd 0 s2.field) (fun _ => true) vd pg z fun c i =>
    (if s2.isVf then c.fpSrc2 s2 i else c.src2 s2 false i, 0)

/-- VEXT; PG and Z are 0. -/
def execVext (k : At) (rd vs1 : BitVec 5) (idx : VSrc) (s : State) : Host.Outcome State Fault Refusal :=
  s.vector k (encV 0x1C 4 idx.form false 0 rd vs1 idx.field) (fun _ => idx.isVx || idx.isVi) fun s c =>
    let n := c.src2 idx false 0
    .done s (c.setX rd (if n < vlMax k.core c.sew then BitVec.ofInt 64 (signedAt (8 * c.eb) (elem (c.getV vs1) c.eb n)) else 0))

/-- VINS; PG and Z are 0. -/
def execVins (k : At) (vd rs : BitVec 5) (idx : VSrc) (s : State) : Host.Outcome State Fault Refusal :=
  s.vector k (encV 0x1C 5 idx.form false 0 vd rs idx.field) (fun _ => idx.isVx || idx.isVi) fun s c =>
    let n := c.src2 idx false 0
    .done s (if n < vlMax k.core c.sew then c.setV vd (setElem (c.getV vd) c.eb n (c.getX rs).toNat) else c)

/-- VGATHER; VD differs from VS1 and S2. -/
def execVgather (k : At) (vd vs1 vidx : BitVec 5) (pg : BitVec 3) (z : Bool) (s : State) : Host.Outcome State Fault Refusal :=
  s.vWhole k (encV 0x1C 12 0 z pg vd vs1 vidx) (fun _ => vd != vs1 && vd != vidx) vd pg z fun c i =>
    let n := elem (c.getV vidx) c.eb i
    some (if n < vlMax k.core c.sew then elem (c.getV vs1) c.eb n else 0)

/-! ### Reductions and counts -/

/-- The values of the active elements of a register. -/
def Core.activeVals (c : Core) (k : CoreId) (pg : BitVec 3) (vs1 : BitVec 5) : List Nat :=
  (c.activeBelow k pg (c.lanes k)).map fun i => elem (c.getV vs1) c.eb i

/-- vd element 0 = a reduction of the active elements, 0 if none is active. -/
def State.vReduce (s : State) (k : At) (fn : Nat) (ok : Core → Bool) (vd vs1 : BitVec 5) (pg : BitVec 3) (z : Bool)
    (f : Core → List Nat → Nat × BitVec 5) : Host.Outcome State Fault Refusal :=
  s.vector k (encV 0x1C fn 0 z pg vd vs1 0) ok fun s c =>
    let r := f c (c.activeVals k.core pg vs1)
    .done s ((c.setV vd (setElem (c.getV vd) c.eb 0 r.1)).addFlags r.2)

/-- The least or greatest of values as signed numbers, 0 of none. -/
def signedBest (w : Nat) (max_ : Bool) : List Nat → Nat
  | [] => 0
  | a :: l => l.foldl (fun b x => if decide (signedAt w b < signedAt w x) == max_ then x else b) a

/-- VREDSUM. -/
def execVredsum (k : At) (vd vs1 : BitVec 5) (pg : BitVec 3) (z : Bool) (s : State) : Host.Outcome State Fault Refusal :=
  s.vReduce k 6 anywhere vd vs1 pg z fun _ l => (l.sum, 0)
/-- VREDMIN. -/
def execVredmin (k : At) (vd vs1 : BitVec 5) (pg : BitVec 3) (z : Bool) (s : State) : Host.Outcome State Fault Refusal :=
  s.vReduce k 7 anywhere vd vs1 pg z fun c l => (signedBest (8 * c.eb) false l, 0)
/-- VREDMAX. -/
def execVredmax (k : At) (vd vs1 : BitVec 5) (pg : BitVec 3) (z : Bool) (s : State) : Host.Outcome State Fault Refusal :=
  s.vReduce k 8 anywhere vd vs1 pg z fun c l => (signedBest (8 * c.eb) true l, 0)
/-- VFREDSUM: in ascending order from +0.0, rounded after each step. -/
def execVfredsum (k : At) (vd vs1 : BitVec 5) (pg : BitVec 3) (z : Bool) (s : State) : Host.Outcome State Fault Refusal :=
  s.vReduce k 9 Core.fpOk vd vs1 pg z fun c l =>
    l.foldl (fun (acc : Nat × BitVec 5) x => ((c.vFmt.add acc.1 x).1, acc.2 ||| (c.vFmt.add acc.1 x).2)) (0, 0)

/-- The elements below VL whose bit a predicate has set. -/
def Core.setBits (c : Core) (k : CoreId) (ps : BitVec 5) : List Nat :=
  (List.range (c.lanes k)).filter fun i => (c.getP k (ps.setWidth 3)).getLsbD (i * c.eb)

/-- PCNT. -/
def execPcnt (k : At) (rd ps : BitVec 5) (pg : BitVec 3) (z : Bool) (s : State) : Host.Outcome State Fault Refusal :=
  s.vector k (encV 0x1C 10 0 z pg rd ps 0) (fun _ => predField ps) fun s c =>
    .done s (c.setX rd (BitVec.ofNat 64 (c.setBits k.core ps).length))
/-- PFIRST. -/
def execPfirst (k : At) (rd ps : BitVec 5) (pg : BitVec 3) (z : Bool) (s : State) : Host.Outcome State Fault Refusal :=
  s.vector k (encV 0x1C 11 0 z pg rd ps 0) (fun _ => predField ps) fun s c =>
    .done s (c.setX rd (match (c.setBits k.core ps).head? with
      | some i => BitVec.ofNat 64 i
      | none => BitVec.allOnes 64))

/-! ### Loads and stores (R407, R411) -/

/-- One element of a vector load or store. -/
def moveElem (k : At) (pg : BitVec 3) (z store : Bool) (vt : BitVec 5) (base : BitVec 64) (s : State) (c : Core) (i : Nat) : RunEnd :=
  let a := base + BitVec.ofNat 64 (i * c.eb)
  if c.active k.core pg i then
    match c.access k.core k.ue store a c.eb with
    | .denied => .fault s c i cAccess a
    | .dataErr => .fault s c i cDataErr a
    | .device => .device
    | .ok =>
      if store then
        let r := s.bytesOut k.core c a (leBytes c.eb (elem (c.getV vt) c.eb i))
        .whole r.1 r.2
      else .whole s (c.setV vt (setElem (c.getV vt) c.eb i (s.bytesIn k.core c a c.eb)))
  else if z && !store then .whole s (c.setV vt (setElem (c.getV vt) c.eb i 0))
  else .whole s c

/-- VLD, VST, VLDA and VSTA; the A forms advance rs1 when they complete. -/
def State.vMem (s : State) (k : At) (fn : Nat) (store adv : Bool) (vt rs1 : BitVec 5) (pg : BitVec 3) (z : Bool) :
    Host.Outcome State Fault Refusal :=
  s.vector k (encVm fn z pg vt rs1) anywhere fun s c =>
    let base := c.getX rs1
    resumeFrom k (64 / c.eb) (c.lanes k.core) (moveElem k pg z store vt base)
      (fun d => if adv then d.setX rs1 (base + BitVec.ofNat 64 (c.vl.toNat * c.eb)) else d) s c

/-- VLD. -/
def execVld (k : At) (vt rs1 : BitVec 5) (pg : BitVec 3) (z : Bool) (s : State) : Host.Outcome State Fault Refusal :=
  s.vMem k 0 false false vt rs1 pg z
/-- VST. -/
def execVst (k : At) (vt rs1 : BitVec 5) (pg : BitVec 3) (z : Bool) (s : State) : Host.Outcome State Fault Refusal :=
  s.vMem k 1 true false vt rs1 pg z
/-- VLDA. -/
def execVlda (k : At) (vt rs1 : BitVec 5) (pg : BitVec 3) (z : Bool) (s : State) : Host.Outcome State Fault Refusal :=
  s.vMem k 2 false true vt rs1 pg z
/-- VSTA. -/
def execVsta (k : At) (vt rs1 : BitVec 5) (pg : BitVec 3) (z : Bool) (s : State) : Host.Outcome State Fault Refusal :=
  s.vMem k 3 true true vt rs1 pg z

end Sys2Proof.Machine
end

