-- ==== Sys2Proof/Machine/ScaStream.lean ====
section
/-! DEFINITION. The stream instructions of an EC (13, Stream ports; R412-R414, R418) and the events of a core: interrupts, the
watchdog and the mask timeout (14 R435-R439). -/

namespace Sys2Proof.Machine

/-! ### Ports -/

/-- A port of the COMPUTE item that a core runs, with its stream. -/
structure Port where
  item : Item
  query : Query
  op   : OpDesc
  ref  : StreamRef
  st   : Stream

/-- What IN or OUT names at a port; none where it is unbound. -/
def State.portOf (s : State) (c : Core) (out : Bool) (n : BitVec 3) : Option Port :=
  match c.item.bind s.item? with
  | none => none
  | some i =>
    match (s.query? i.query).bind fun q => (q.opOf i.op).map (q, ·.2) with
    | none => none
    | some (q, o) =>
      match (if out then o.outs else o.ins)[n.toNat]? with
      | none => none
      | some k => if k = 0xFFFF then none else (s.streamOf q k).map fun st => ⟨i, q, o, q.stream k, st⟩

/-- Whether a port is the element port of its operator (R415). -/
def Port.isElem (p : Port) (n : BitVec 3) : Bool := p.op.p 6 1 == n.toNat

/-- Under what a port keeps its reading place. -/
def Port.readKey (p : Port) (n : BitVec 3) : Nat := if p.isElem n && p.st.framed then p.item.id else 0

def Port.place (p : Port) (n : BitVec 3) : PortIn :=
  AMap.get p.st.reads (p.readKey n) PortIn.none

/-! ### SPOP (R412, R417, R418) -/

/-- What SPOP works on: the stream, the port's place, the item, the destination, the elements delivered, and whether a frame it has
read whole breaks R190 to R194 (06 R196). -/
structure PopRun where
  st : Stream
  p  : PortIn
  it : Item
  v  : BitVec 2048
  i  : Nat
  bad : Bool

/-- Why SPOP goes no further: VL is reached, a partial word or the range ends, the stream is at END, or it waits. -/
inductive PopStop where
  | full | short | ended | wait
deriving DecidableEq, Repr

/-- A frame used up to its last byte leaves the stream; on the element port its rows are delivered. -/
def PopRun.closeFrame (r : PopRun) (elemPort : Bool) : PopRun :=
  if r.st.framed && r.st.frames.any (fun f => f.claim == some r.it.id && decide (f.popped = f.words)) then
    { r with
      st := ({ r.st with frames := r.st.frames.filter fun f => !(f.claim == some r.it.id && decide (f.popped = f.words)) } : Stream).settleRp
      it := if elemPort then { r.it with startRows := r.it.startRows + r.it.unitLen, unitLen := 0 } else r.it }
  else r

/-- The next word of a port, if its current one is used up. -/
def PopRun.word (r : PopRun) (elemPort : Bool) : PopRun × Option PopStop :=
  if r.p.off < r.p.cur.length then (r, none)
  else
    match r.st.popView r.it.id with
    | .word w vb =>
      let header := r.st.framed && ((r.st.frameFor r.it.id).any fun f => f.popped == 0)
      let st := r.st.popped r.it.id
      let broken (f : FramePos) : Bool := f.claim == some r.it.id && decide (f.popped = f.words) && (f.short || (readFrame f.got).isNone)
      ({ r with
        st := st
        p := r.p.load w vb
        bad := r.bad || (st.framed && st.frames.any broken)
        it := if elemPort && header then { r.it with unitLen := hdrRows (wordBytes w) } else r.it }, none)
    | .ended => (r, some .ended)
    | _ => (r, some .wait)

/-- The loop of SPOP. -/
def popRun (eb len : Nat) (elemPort : Bool) : Nat → PopRun → PopRun × PopStop
  | 0, r => (r, .full)
  | fuel + 1, r =>
    if len ≤ r.i then (r, .full)
    else if r.p.left = some 0 then (r, .short)
    else
      match r.word elemPort with
      | (r, some x) => (r, x)
      | (r, none) =>
        let n := Nat.min eb (Nat.min (r.p.cur.length - r.p.off) (r.p.left.getD 64))
        let r : PopRun := { r with
          v := setElem r.v eb r.i (leNat (slice r.p.cur r.p.off n))
          p := { r.p with off := r.p.off + n, left := r.p.left.map fun l => l - n }
          i := r.i + 1 }
        if r.p.off < r.p.cur.length then popRun eb len elemPort fuel r
        else
          let r := r.closeFrame elemPort
          if r.p.cur.length < 64 then (r, .short) else popRun eb len elemPort fuel r

/-- PROGRESS of an item by what completed pops of its element port have delivered (R418): elements of an unframed stream,
rows of a framed one. -/
def Port.progress (p : Port) (r : PopRun) : Nat :=
  if p.st.framed then r.it.startRows
  else (p.item.count * p.st.elem - r.p.left.getD 0) / p.st.elem

/-- SPOP. -/
def execSpop (k : At) (vt rd : BitVec 5) (ip : BitVec 3) (s : State) : Host.Outcome State Fault Refusal :=
  s.instr k.core (encSt 0 ip vt rd) true false (fun _ => k.core.isEc) fun s c =>
    match s.portOf c false ip with
    | none => .fault s c cStreamPort (ip.setWidth 64)
    | some p =>
      if (p.place ip).at_ % c.eb ≠ 0 then .fault s c cStreamAlign (ip.setWidth 64)
      else
        let len := c.lanes k.core
        let stop := c.stopAt k 1 len
        let (r, why) := popRun c.eb (stop.getD len) (p.isElem ip) (len + 1)
          { st := p.st, p := p.place ip, it := p.item, v := c.getV vt, i := c.vprog.toNat, bad := false }
        let place : PortIn := if why = .ended && r.p.left.isSome then { r.p with left := some 0 } else r.p
        let whole : Bool := why != .wait && !(why == .full && stop.isSome)
        let s := (s.setStream p.ref { r.st with reads := AMap.insert r.st.reads (p.readKey ip) place }).modItem p.item.id fun _ =>
          if whole && p.isElem ip then { r.it with progress := p.progress r } else r.it
        let s := if why = .wait then s.stallItem p.item.id else s.endStall p.item.id 0
        let s := if r.bad then s.badStream p.ref else s
        let s := (if r.st.rp ≠ r.st.rp2 then s.pointerMismatch p.ref else s).settle p.query.tag
        let d := c.setV vt r.v
        if whole then .done s (d.setX rd (BitVec.ofNat 64 r.i))
        else if why = .wait then .stay s { d with vprog := BitVec.ofNat 64 r.i }
        else .stop s { d with vprog := BitVec.ofNat 64 r.i }

/-! ### SPUSH, SCLOSE, SAVAIL (R412-R414) -/

/-- The key of the open word of an item on a stream. -/
def Port.openKey (p : Port) : Nat := if p.st.framed then p.item.id else 0

inductive PushEnd where
  | pushed (s : State)
  | wait (s : State)
  | bad (s : State)

/-- Bytes of whole stream elements pushed: the open word takes them, and is committed once full; a refused commit leaves the
stream as it was. A header word of a frame is checked (R196, R414). -/
def State.pushBytes (s : State) (p : Port) (bs : Bytes) : PushEnd :=
  match s.stream? p.ref with
  | none => .wait s
  | some st =>
    if st.st = .failed || (!st.framed && st.holder.any (· != p.item.id)) then .wait s
    else
      let all := AMap.get st.opens p.openKey [] ++ bs
      let st1 : Stream := if st.framed then st else { st with holder := some p.item.id }
      if all.length < 64 then .pushed (s.setStream p.ref { st1 with opens := AMap.insert st1.opens p.openKey all })
      else if st.framed && (st.openFrame p.item.id).isNone && !headerOk (all.take 64) then .bad (s.badStream p.ref)
      else
        let st2 : Stream := { st1 with opens := AMap.insert st1.opens p.openKey (all.drop 64) }
        let e := (s.setStream p.ref st2).commitWord p.ref p.item.id (bytesWord (all.take 64)) 64
        if e.2 = .landed then .pushed e.1
        else if e.2 = .refused then .wait (s.grow p.ref)
        else .wait e.1

/-- The groups of SPUSH from an element up. -/
def pushRun (p : Port) (v : BitVec 2048) (eb g len : Nat) : Nat → Nat → State → State × Nat × Bool
  | 0, i, s => (s, i, true)
  | fuel + 1, i, s =>
    if len ≤ i then (s, i, true)
    else
      let n := Nat.min (g - i % g) (len - i)
      match s.pushBytes p ((List.range n).flatMap fun j => leBytes eb (elem v eb (i + j))) with
      | .pushed s => pushRun p v eb g len fuel (i + n) s
      | .wait s => (s, i, false)
      | .bad s => (s, i, false)

/-- SPUSH; RD is 0. -/
def execSpush (k : At) (vt : BitVec 5) (op : BitVec 3) (s : State) : Host.Outcome State Fault Refusal :=
  s.instr k.core (encSt 1 op vt 0) true false (fun _ => k.core.isEc) fun s c =>
    match s.portOf c true op with
    | none => .fault s c cStreamPort (op.setWidth 64)
    | some p =>
      if c.vl.toNat * c.eb % p.st.elem ≠ 0 then .fault s c cStreamAlign (op.setWidth 64)
      else
        let g := Nat.max 1 (p.st.elem / c.eb)
        let len := c.lanes k.core
        let stop := c.stopAt k g len
        let r := pushRun p (c.getV vt) c.eb g (stop.getD len) (len + 1) c.vprog.toNat s
        let s := (if r.2.2 then r.1.endStall p.item.id 0 else r.1.stallItem p.item.id).settle p.query.tag
        if !r.2.2 then .stay s { c with vprog := BitVec.ofNat 64 r.2.1 }
        else if stop.isSome then .stop s { c with vprog := BitVec.ofNat 64 r.2.1 }
        else .done s c

/-- SCLOSE; VT and RD are 0. The open word is committed with VB its bytes (06 R187). -/
def execSclose (k : At) (op : BitVec 3) (s : State) : Host.Outcome State Fault Refusal :=
  s.instr k.core (encSt 2 op 0 0) false false (fun _ => k.core.isEc) fun s c =>
    match s.portOf c true op with
    | none => .fault s c cStreamPort (op.setWidth 64)
    | some p =>
      if p.st.framed then .done (s.badStream p.ref) c
      else if p.st.holder.any (· != p.item.id) then .done s c
      else
        let bs := AMap.get p.st.opens 0 []
        if bs.isEmpty then .done s c
        else
          let st : Stream := { p.st with opens := AMap.erase p.st.opens 0, holder := some p.item.id }
          let e := (s.setStream p.ref st).commitWord p.ref p.item.id (bytesWord bs) (BitVec.ofNat 7 bs.length)
          if e.2 = .landed then .done ((e.1.endStall p.item.id 0).settle p.query.tag) c
          else .stay ((if e.2 = .refused then s.grow p.ref else e.1).stallItem p.item.id) c

/-- Bytes that pops give without waiting. -/
def poppable (item : Nat) : Nat → Stream → Nat
  | 0, _ => 0
  | fuel + 1, st =>
    match st.popView item with
    | .word _ vb => vb.toNat + poppable item fuel (st.popped item)
    | _ => 0

/-- SAVAIL; VT is 0. -/
def execSavail (k : At) (rd : BitVec 5) (ip : BitVec 3) (s : State) : Host.Outcome State Fault Refusal :=
  s.instr k.core (encSt 3 ip 0 rd) false false (fun _ => k.core.isEc) fun s c =>
    match s.portOf c false ip with
    | none => .fault s c cStreamPort (ip.setWidth 64)
    | some p =>
      let place := p.place ip
      let n := place.cur.length - place.off + (poppable p.item.id p.st.words.length p.st - place.skip)
      let atEnd := n == 0 && p.st.popView p.item.id == .ended
      .done s (c.setX rd (if atEnd then BitVec.allOnes 64 else BitVec.ofNat 64 (Nat.min n (place.left.getD n))))

/-! ### Interrupts, the watchdog, the mask timeout (14 R425, R435-R439) -/

/-- The highest source that can be taken at the PC is taken. -/
def State.takeInterrupt (s : State) (k : CoreId) : State :=
  let c := s.core k
  if c.halted then s
  else
    match c.takeable k with
    | none => s
    | some a => s.takeAt k { c with waiting := false } a c.pc 0

/-- INTERRUPT (R438): a source becomes pending, where one is named that the core has, and the core takes what it can take. -/
def execInterrupt (core : CoreId) (raised : Option (AsyncSrc × BitVec 64)) (s : State) : Host.Outcome State Fault Refusal :=
  let s := match raised with
    | some (a, eval) => if a.on core then s.setCore core ((s.core core).pend a eval) else s
    | none => s
  .next (s.takeInterrupt core)

/-- WDOG (R439): the count has reached 0. -/
def execWdog (core : CoreId) (s : State) : Host.Outcome State Fault Refusal :=
  let c := s.core core
  if c.wdcnt = 0 then .next s else .next (s.setCore core (Core.pend { c with wdcnt := 0 } .wdog 0))

/-- The monitor of an offender: the lowest-numbered running MC other than it (R436). -/
def State.monitor (s : State) (offender : CoreId) : Option CoreId :=
  ([0, 1, 2, 3].map CoreId.mc).find? fun m => m != offender && !(s.core m).halted

/-- An EC leaves service with its item's query stopping (R437). -/
def State.outOfService (s : State) (core : CoreId) : State :=
  match core.runner with
  | none => s
  | some r =>
    let s1 := s.setRunner r { s.runner r with out := true }
    match s.running? r with
    | some i => s1.stopQuery i.query stInternal
    | none => s1

/-- MASK_TIMEOUT (R436, R437): the count of masked cycles exceeds MASKLIMIT; with no
monitor left the error is a device fatal one (20 R600). -/
def execMaskTimeout (core : CoreId) (s : State) : Host.Outcome State Fault Refusal :=
  let c := s.core core
  if c.halted || c.maskCount ≤ s.cores.masklimit.toNat then .next s
  else
    let s := (s.setCore core { c with halted := true }).outOfService core
    match s.monitor core with
    | some m => .next ((s.setCore m ((s.core m).pend .maskto core.number)).raiseDevice 2 0xFF core.number 0)
    | none => .next ((s.declareFatal Config.maskCause (Config.fatalIntact s.free) (Config.fatalDrained s.free)).tick)

end Sys2Proof.Machine
end

