-- ==== Sys2Proof/Machine/Dispatch.lean ====
section
/-! DEFINITION. What each command does: one arm per constructor of `Instr`, one direct call of its meaning. -/

namespace Sys2Proof.Machine

def exec (i : Instr) (s : State) : Host.Outcome State Fault Refusal :=
  match i with
  | .identify t acc => Sys2Proof.Machine.execIdentify t acc s
  | .getLog t acc => Sys2Proof.Machine.execGetLog t acc s
  | .setFeature t => Sys2Proof.Machine.execSetFeature t s
  | .getFeature t => Sys2Proof.Machine.execGetFeature t s
  | .createSq t => Sys2Proof.Machine.execCreateSq t s
  | .createCq t => Sys2Proof.Machine.execCreateCq t s
  | .deleteSq t stopped => Sys2Proof.Machine.execDeleteSq t stopped s
  | .deleteCq t => Sys2Proof.Machine.execDeleteCq t s
  | .resetQueue t stopped => Sys2Proof.Machine.execResetQueue t stopped s
  | .abort t succeeds => Sys2Proof.Machine.execAbort t succeeds s
  | .fwDownload t src => Sys2Proof.Machine.execFwDownload t src s
  | .fwActivate t => Sys2Proof.Machine.execFwActivate t s
  | .instanceCreate t => Sys2Proof.Machine.execInstanceCreate t s
  | .instanceResize t => Sys2Proof.Machine.execInstanceResize t s
  | .instanceQuiesce t => Sys2Proof.Machine.execInstanceQuiesce t s
  | .instanceReset t => Sys2Proof.Machine.execInstanceReset t s
  | .instanceDestroy t => Sys2Proof.Machine.execInstanceDestroy t s
  | .poolReport t acc => Sys2Proof.Machine.execPoolReport t acc s
  | .tableCreate t src => Sys2Proof.Machine.execTableCreate t src s
  | .tableDrop t => Sys2Proof.Machine.execTableDrop t s
  | .segmentWrite t vals vmap offs => Sys2Proof.Machine.execSegmentWrite t vals vmap offs s
  | .pagesPut t src => Sys2Proof.Machine.execPagesPut t src s
  | .segmentRead t acc => Sys2Proof.Machine.execSegmentRead t acc s
  | .segmentDelete t => Sys2Proof.Machine.execSegmentDelete t s
  | .flush t => Sys2Proof.Machine.execFlush t s
  | .imageLoad t src => Sys2Proof.Machine.execImageLoad t src s
  | .imageUnload t => Sys2Proof.Machine.execImageUnload t s
  | .querySubmit t csw => Sys2Proof.Machine.execQuerySubmit t csw s
  | .chainResume t links csw => Sys2Proof.Machine.execChainResume t links csw s
  | .sqDoorbell inst sqid w value => Sys2Proof.Machine.execSqDoorbell inst sqid w value s
  | .cqHeadDoorbell inst cqid w value => Sys2Proof.Machine.execCqHeadDoorbell inst cqid w value s
  | .admCtrlEnable inst value => Sys2Proof.Machine.execAdmCtrlEnable inst value s
  | .admCtrlDisable inst value => Sys2Proof.Machine.execAdmCtrlDisable inst value s
  | .poolEnable inst value => Sys2Proof.Machine.execPoolEnable inst value s
  | .poolDisable inst value => Sys2Proof.Machine.execPoolDisable inst value s
  | .retrain inst ch value => Sys2Proof.Machine.execRetrain inst ch value s
  | .rediscover inst value => Sys2Proof.Machine.execRediscover inst value s
  | .asaCascfgEnable inst value => Sys2Proof.Machine.execAsaCascfgEnable inst value s
  | .tDb writer page value => Sys2Proof.Machine.execTDb writer page value s
  | .mDb writer page value => Sys2Proof.Machine.execMDb writer page value s
  | .registerWrite inst bar offset size value => Sys2Proof.Machine.execRegisterWrite inst bar offset size value s
  | .sqScan inst sqid reads => Sys2Proof.Machine.execSqScan inst sqid reads s
  | .fetchToken inst sqid => Sys2Proof.Machine.execFetchToken inst sqid s
  | .completionPost inst cqid acc => Sys2Proof.Machine.execCompletionPost inst cqid acc s
  | .cqStalled inst cqid => Sys2Proof.Machine.execCqStalled inst cqid s
  | .adminQueueDelete inst => Sys2Proof.Machine.execAdminQueueDelete inst s
  | .writeCommit t => Sys2Proof.Machine.execWriteCommit t s
  | .writeDurable seq => Sys2Proof.Machine.execWriteDurable seq s
  | .stagingCopy t image => Sys2Proof.Machine.execStagingCopy t image s
  | .queryValidated t params xchain heads csw => Sys2Proof.Machine.execQueryValidated t params xchain heads csw s
  | .queryAdmit t csw => Sys2Proof.Machine.execQueryAdmit t csw s
  | .queryFinish t csw => Sys2Proof.Machine.execQueryFinish t csw s
  | .queryStopped t csw => Sys2Proof.Machine.execQueryStopped t csw s
  | .linkRead t lr csw => Sys2Proof.Machine.execLinkRead t lr csw s
  | .itemGenerate t op flow => Sys2Proof.Machine.execItemGenerate t op flow s
  | .slotFill r item => Sys2Proof.Machine.execSlotFill r item s
  | .itemTake r => Sys2Proof.Machine.execItemTake r s
  | .recall r forItem => Sys2Proof.Machine.execRecall r forItem s
  | .preemption r forItem => Sys2Proof.Machine.execPreemption r forItem s
  | .itemEnd r => Sys2Proof.Machine.execItemEnd r s
  | .itemPark r cause => Sys2Proof.Machine.execItemPark r cause s
  | .itemUnpark item => Sys2Proof.Machine.execItemUnpark item s
  | .stallYield r cause => Sys2Proof.Machine.execStallYield r cause s
  | .deadlineSweep t => Sys2Proof.Machine.execDeadlineSweep t s
  | .wordCommit r flaw => Sys2Proof.Machine.execWordCommit r flaw s
  | .wordPop r port flaw host => Sys2Proof.Machine.execWordPop r port flaw host s
  | .headRefill sref => Sys2Proof.Machine.execHeadRefill sref s
  | .codeSetBuild t op entry pred slot => Sys2Proof.Machine.execCodeSetBuild t op entry pred slot s
  | .handleFramePush t op => Sys2Proof.Machine.execHandleFramePush t op s
  | .buildPartition t op => Sys2Proof.Machine.execBuildPartition t op s
  | .unmatchedBuildPass t op => Sys2Proof.Machine.execUnmatchedBuildPass t op s
  | .partitionEmit t op part => Sys2Proof.Machine.execPartitionEmit t op part s
  | .mergeFlowStart t op => Sys2Proof.Machine.execMergeFlowStart t op s
  | .hurdleRelease t op => Sys2Proof.Machine.execHurdleRelease t op s
  | .resultBlockWrite r acc => Sys2Proof.Machine.execResultBlockWrite r acc s
  | .unitWrite r acc => Sys2Proof.Machine.execUnitWrite r acc s
  | .decodeJob engine job => Sys2Proof.Machine.execDecodeJob engine job s
  | .encodeJob engine job => Sys2Proof.Machine.execEncodeJob engine job s
  | .podLoad pod shadowLost => Sys2Proof.Machine.execPodLoad pod shadowLost s
  | .podClear pod => Sys2Proof.Machine.execPodClear pod s
  | .asaSearch pod key mask tagFlaw => Sys2Proof.Machine.execAsaSearch pod key mask tagFlaw s
  | .parityScan pod slot upset => Sys2Proof.Machine.execParityScan pod slot upset s
  | .parityReload pod entry shadowLost => Sys2Proof.Machine.execParityReload pod entry shadowLost s
  | .asaStepEvaluation => Sys2Proof.Machine.execAsaStepEvaluation s
  | .cascadePhaseTraining => Sys2Proof.Machine.execCascadePhaseTraining s
  | .asaKey m => Sys2Proof.Machine.execAsaKey m s
  | .cascadeResultWord w => Sys2Proof.Machine.execCascadeResultWord w s
  | .asaRegister m => Sys2Proof.Machine.execAsaRegister m s
  | .asaReady m => Sys2Proof.Machine.execAsaReady m s
  | .asaClose m => Sys2Proof.Machine.execAsaClose m s
  | .xchData m => Sys2Proof.Machine.execXchData m s
  | .xchCredit m => Sys2Proof.Machine.execXchCredit m s
  | .xchRegister m => Sys2Proof.Machine.execXchRegister m s
  | .xchEnd m => Sys2Proof.Machine.execXchEnd m s
  | .xchStop m => Sys2Proof.Machine.execXchStop m s
  | .pageRequestResponse k a => Sys2Proof.Machine.execPageRequestResponse k a s
  | .priTimeout k => Sys2Proof.Machine.execPriTimeout k s
  | .atsInvalidateRequest inst pasid page => Sys2Proof.Machine.execAtsInvalidateRequest inst pasid page s
  | .spillBlock inst => Sys2Proof.Machine.execSpillBlock inst s
  | .powerFailure drained => Sys2Proof.Machine.execPowerFailure drained s
  | .resetNFall drained => Sys2Proof.Machine.execResetNFall drained s
  | .coldStart straps fits links => Sys2Proof.Machine.execColdStart straps fits links s
  | .warmStart straps links badChannels => Sys2Proof.Machine.execWarmStart straps links badChannels s
  | .sensorEvaluation readings drained => Sys2Proof.Machine.execSensorEvaluation readings drained s
  | .throttleNChange low => Sys2Proof.Machine.execThrottleNChange low s
  | .leaveRequest op inst prio items => Sys2Proof.Machine.execLeaveRequest op inst prio items s
  | .leaveGrant => Sys2Proof.Machine.execLeaveGrant s
  | .leaveRelease op => Sys2Proof.Machine.execLeaveRelease op s
  | .clusterWakeDone c => Sys2Proof.Machine.execClusterWakeDone c s
  | .sprintIdle c => Sys2Proof.Machine.execSprintIdle c s
  | .warmupIdle c => Sys2Proof.Machine.execWarmupIdle c s
  | .sortUnitIdle unit => Sys2Proof.Machine.execSortUnitIdle unit s
  | .patrolScrub ch rank line finding => Sys2Proof.Machine.execPatrolScrub ch rank line finding s
  | .refreshDue ch rank queue => Sys2Proof.Machine.execRefreshDue ch rank queue s
  | .driftCheck ch rank steps => Sys2Proof.Machine.execDriftCheck ch rank steps s
  | .channelRetraining ch works => Sys2Proof.Machine.execChannelRetraining ch works s
  | .migrationLineCopy ch source spare => Sys2Proof.Machine.execMigrationLineCopy ch source spare s
  | .deviceFatal cause aoIntact drained => Sys2Proof.Machine.execDeviceFatal cause aoIntact drained s
  | .flr inst committed => Sys2Proof.Machine.execFlr inst committed s
  | .bmeClear inst committed => Sys2Proof.Machine.execBmeClear inst committed s
  | .bmeSet inst => Sys2Proof.Machine.execBmeSet inst s
  | .vfEnableClear port numVfs committed => Sys2Proof.Machine.execVfEnableClear port numVfs committed s
  | .perstAssert port committed => Sys2Proof.Machine.execPerstAssert port committed s
  | .perstDeassert port => Sys2Proof.Machine.execPerstDeassert port s
  | .hostLinkDown port committed => Sys2Proof.Machine.execHostLinkDown port committed s
  | .hostLinkUp port status flit => Sys2Proof.Machine.execHostLinkUp port status flit s
  | .hostAer port bit kind victim => Sys2Proof.Machine.execHostAer port bit kind victim s
  | .d3hotEntry inst pmeEn => Sys2Proof.Machine.execD3hotEntry inst pmeEn s
  | .d0Return inst => Sys2Proof.Machine.execD0Return inst s
  | .priEnableClear inst => Sys2Proof.Machine.execPriEnableClear inst s
  | .atsEnableClear inst => Sys2Proof.Machine.execAtsEnableClear inst s
  | .vectorUnmask inst vector => Sys2Proof.Machine.execVectorUnmask inst vector s
  | .moderationTimer inst vector => Sys2Proof.Machine.execModerationTimer inst vector s
  | .quiesceGraceEnd inst committed => Sys2Proof.Machine.execQuiesceGraceEnd inst committed s
  | .managerTransfer => Sys2Proof.Machine.execManagerTransfer s
  | .fwLivePause => Sys2Proof.Machine.execFwLivePause s
  | .fwLiveHandover ok => Sys2Proof.Machine.execFwLiveHandover ok s
  | .heartbeat m => Sys2Proof.Machine.execHeartbeat m s
  | .heartbeatSend => Sys2Proof.Machine.execHeartbeatSend s
  | .peerLost => Sys2Proof.Machine.execPeerLost s
  | .fenceDelay => Sys2Proof.Machine.execFenceDelay s
  | .pairTakeover => Sys2Proof.Machine.execPairTakeover s
  | .pairFenceLow => Sys2Proof.Machine.execPairFenceLow s
  | .peerAliveToggle => Sys2Proof.Machine.execPeerAliveToggle s
  | .peerAliveLoss => Sys2Proof.Machine.execPeerAliveLoss s
  | .joiningTimeout => Sys2Proof.Machine.execJoiningTimeout s
  | .relayLinkDown port => Sys2Proof.Machine.execRelayLinkDown port s
  | .ident m => Sys2Proof.Machine.execIdent m s
  | .mirrorCommit m => Sys2Proof.Machine.execMirrorCommit m s
  | .mirrorApplied m => Sys2Proof.Machine.execMirrorApplied m s
  | .mirrorDurable m => Sys2Proof.Machine.execMirrorDurable m s
  | .forward m => Sys2Proof.Machine.execForward m s
  | .directoryRequest m => Sys2Proof.Machine.execDirectoryRequest m s
  | .directoryAdmit m => Sys2Proof.Machine.execDirectoryAdmit m s
  | .directoryRefuse m => Sys2Proof.Machine.execDirectoryRefuse m s
  | .directoryRelease m => Sys2Proof.Machine.execDirectoryRelease m s
  | .fetchReq m => Sys2Proof.Machine.execFetchReq m s
  | .fetchData m => Sys2Proof.Machine.execFetchData m s
  | .batonStart => Sys2Proof.Machine.execBatonStart s
  | .batonOut m => Sys2Proof.Machine.execBatonOut m s
  | .batonBack m => Sys2Proof.Machine.execBatonBack m s
  | .batonVisited m => Sys2Proof.Machine.execBatonVisited m s
  | .batonConflict m => Sys2Proof.Machine.execBatonConflict m s
  | .batonTimeout => Sys2Proof.Machine.execBatonTimeout s
  | .discEnd m => Sys2Proof.Machine.execDiscEnd m s
  | .conflict m => Sys2Proof.Machine.execConflict m s
  | .interrupt core raised => Sys2Proof.Machine.execInterrupt core raised s
  | .wdog core => Sys2Proof.Machine.execWdog core s
  | .maskTimeout core => Sys2Proof.Machine.execMaskTimeout core s
  | .setManager port => Sys2Proof.Machine.execSetManager port s
  | .getState => Sys2Proof.Machine.execGetState s
  | .pldmSensorRead sensor => Sys2Proof.Machine.execPldmSensorRead sensor s
  | .pldmFirmwareUpdate offset bs => Sys2Proof.Machine.execPldmFirmwareUpdate offset bs s
  | .activateFirmware selfContained => Sys2Proof.Machine.execActivateFirmware selfContained s
  | .getDigests => Sys2Proof.Machine.execGetDigests s
  | .getCertificate slot offset len => Sys2Proof.Machine.execGetCertificate slot offset len s
  | .challenge nonce => Sys2Proof.Machine.execChallenge nonce s
  | .getMeasurements index => Sys2Proof.Machine.execGetMeasurements index s
  | .add k rd rs1 rs2 => Sys2Proof.Machine.execAdd k rd rs1 rs2 s
  | .sub k rd rs1 rs2 => Sys2Proof.Machine.execSub k rd rs1 rs2 s
  | .and k rd rs1 rs2 => Sys2Proof.Machine.execAnd k rd rs1 rs2 s
  | .or k rd rs1 rs2 => Sys2Proof.Machine.execOr k rd rs1 rs2 s
  | .xor k rd rs1 rs2 => Sys2Proof.Machine.execXor k rd rs1 rs2 s
  | .sll k rd rs1 rs2 => Sys2Proof.Machine.execSll k rd rs1 rs2 s
  | .srl k rd rs1 rs2 => Sys2Proof.Machine.execSrl k rd rs1 rs2 s
  | .sra k rd rs1 rs2 => Sys2Proof.Machine.execSra k rd rs1 rs2 s
  | .slt k rd rs1 rs2 => Sys2Proof.Machine.execSlt k rd rs1 rs2 s
  | .sltu k rd rs1 rs2 => Sys2Proof.Machine.execSltu k rd rs1 rs2 s
  | .mul k rd rs1 rs2 => Sys2Proof.Machine.execMul k rd rs1 rs2 s
  | .mulh k rd rs1 rs2 => Sys2Proof.Machine.execMulh k rd rs1 rs2 s
  | .mulhu k rd rs1 rs2 => Sys2Proof.Machine.execMulhu k rd rs1 rs2 s
  | .div k rd rs1 rs2 => Sys2Proof.Machine.execDiv k rd rs1 rs2 s
  | .divu k rd rs1 rs2 => Sys2Proof.Machine.execDivu k rd rs1 rs2 s
  | .rem k rd rs1 rs2 => Sys2Proof.Machine.execRem k rd rs1 rs2 s
  | .remu k rd rs1 rs2 => Sys2Proof.Machine.execRemu k rd rs1 rs2 s
  | .min k rd rs1 rs2 => Sys2Proof.Machine.execMin k rd rs1 rs2 s
  | .max k rd rs1 rs2 => Sys2Proof.Machine.execMax k rd rs1 rs2 s
  | .minu k rd rs1 rs2 => Sys2Proof.Machine.execMinu k rd rs1 rs2 s
  | .maxu k rd rs1 rs2 => Sys2Proof.Machine.execMaxu k rd rs1 rs2 s
  | .clz k rd rs1 => Sys2Proof.Machine.execClz k rd rs1 s
  | .ctz k rd rs1 => Sys2Proof.Machine.execCtz k rd rs1 s
  | .popc k rd rs1 => Sys2Proof.Machine.execPopc k rd rs1 s
  | .bswap k rd rs1 => Sys2Proof.Machine.execBswap k rd rs1 s
  | .addw k rd rs1 rs2 => Sys2Proof.Machine.execAddw k rd rs1 rs2 s
  | .subw k rd rs1 rs2 => Sys2Proof.Machine.execSubw k rd rs1 rs2 s
  | .addi k rd rs1 imm => Sys2Proof.Machine.execAddi k rd rs1 imm s
  | .andi k rd rs1 imm => Sys2Proof.Machine.execAndi k rd rs1 imm s
  | .ori k rd rs1 imm => Sys2Proof.Machine.execOri k rd rs1 imm s
  | .xori k rd rs1 imm => Sys2Proof.Machine.execXori k rd rs1 imm s
  | .slli k rd rs1 sh => Sys2Proof.Machine.execSlli k rd rs1 sh s
  | .srli k rd rs1 sh => Sys2Proof.Machine.execSrli k rd rs1 sh s
  | .srai k rd rs1 sh => Sys2Proof.Machine.execSrai k rd rs1 sh s
  | .slti k rd rs1 imm => Sys2Proof.Machine.execSlti k rd rs1 imm s
  | .lup k rd imm => Sys2Proof.Machine.execLup k rd imm s
  | .pcup k rd imm => Sys2Proof.Machine.execPcup k rd imm s
  | .lb k rt rs1 imm => Sys2Proof.Machine.execLb k rt rs1 imm s
  | .lh k rt rs1 imm => Sys2Proof.Machine.execLh k rt rs1 imm s
  | .lw k rt rs1 imm => Sys2Proof.Machine.execLw k rt rs1 imm s
  | .ld k rt rs1 imm => Sys2Proof.Machine.execLd k rt rs1 imm s
  | .lbu k rt rs1 imm => Sys2Proof.Machine.execLbu k rt rs1 imm s
  | .lhu k rt rs1 imm => Sys2Proof.Machine.execLhu k rt rs1 imm s
  | .lwu k rt rs1 imm => Sys2Proof.Machine.execLwu k rt rs1 imm s
  | .sb k rt rs1 imm => Sys2Proof.Machine.execSb k rt rs1 imm s
  | .sh k rt rs1 imm => Sys2Proof.Machine.execSh k rt rs1 imm s
  | .sw k rt rs1 imm => Sys2Proof.Machine.execSw k rt rs1 imm s
  | .sd k rt rs1 imm => Sys2Proof.Machine.execSd k rt rs1 imm s
  | .beq k rs1 rs2 off => Sys2Proof.Machine.execBeq k rs1 rs2 off s
  | .bne k rs1 rs2 off => Sys2Proof.Machine.execBne k rs1 rs2 off s
  | .blt k rs1 rs2 off => Sys2Proof.Machine.execBlt k rs1 rs2 off s
  | .bge k rs1 rs2 off => Sys2Proof.Machine.execBge k rs1 rs2 off s
  | .bltu k rs1 rs2 off => Sys2Proof.Machine.execBltu k rs1 rs2 off s
  | .bgeu k rs1 rs2 off => Sys2Proof.Machine.execBgeu k rs1 rs2 off s
  | .j k off => Sys2Proof.Machine.execJ k off s
  | .call k rd off => Sys2Proof.Machine.execCall k rd off s
  | .jr k rs1 imm => Sys2Proof.Machine.execJr k rs1 imm s
  | .callr k rd rs1 imm => Sys2Proof.Machine.execCallr k rd rs1 imm s
  | .ret k rs1 => Sys2Proof.Machine.execRet k rs1 s
  | .loop k lvl rs1 off => Sys2Proof.Machine.execLoop k lvl rs1 off s
  | .scopy k rd rs1 rs2 => Sys2Proof.Machine.execScopy k rd rs1 rs2 s
  | .csrget k rd csr => Sys2Proof.Machine.execCsrget k rd csr s
  | .csrput k csr rs1 => Sys2Proof.Machine.execCsrput k csr rs1 s
  | .csrputm k csr rs1 rm => Sys2Proof.Machine.execCsrputm k csr rs1 rm s
  | .callk k => Sys2Proof.Machine.execCallk k s
  | .retk k => Sys2Proof.Machine.execRetk k s
  | .fence k => Sys2Proof.Machine.execFence k s
  | .wfe k => Sys2Proof.Machine.execWfe k s
  | .brk k => Sys2Proof.Machine.execBrk k s
  | .fadd k d fd fs1 fs2 => Sys2Proof.Machine.execFadd k d fd fs1 fs2 s
  | .fsub k d fd fs1 fs2 => Sys2Proof.Machine.execFsub k d fd fs1 fs2 s
  | .fmul k d fd fs1 fs2 => Sys2Proof.Machine.execFmul k d fd fs1 fs2 s
  | .fdiv k d fd fs1 fs2 => Sys2Proof.Machine.execFdiv k d fd fs1 fs2 s
  | .fsqrt k d fd fs1 => Sys2Proof.Machine.execFsqrt k d fd fs1 s
  | .fmin k d fd fs1 fs2 => Sys2Proof.Machine.execFmin k d fd fs1 fs2 s
  | .fmax k d fd fs1 fs2 => Sys2Proof.Machine.execFmax k d fd fs1 fs2 s
  | .fmacc k d fd fs1 fs2 => Sys2Proof.Machine.execFmacc k d fd fs1 fs2 s
  | .feq k d rd fs1 fs2 => Sys2Proof.Machine.execFeq k d rd fs1 fs2 s
  | .flt k d rd fs1 fs2 => Sys2Proof.Machine.execFlt k d rd fs1 fs2 s
  | .fle k d rd fs1 fs2 => Sys2Proof.Machine.execFle k d rd fs1 fs2 s
  | .fcvtxf k d rd fs1 => Sys2Proof.Machine.execFcvtxf k d rd fs1 s
  | .fcvtfx k d fd rs1 => Sys2Proof.Machine.execFcvtfx k d fd rs1 s
  | .fmvxf k d rd fs1 => Sys2Proof.Machine.execFmvxf k d rd fs1 s
  | .fmvfx k d fd rs1 => Sys2Proof.Machine.execFmvfx k d fd rs1 s
  | .fcvtp k d fd fs1 => Sys2Proof.Machine.execFcvtp k d fd fs1 s
  | .flw k fd rs1 imm => Sys2Proof.Machine.execFlw k fd rs1 imm s
  | .fld k fd rs1 imm => Sys2Proof.Machine.execFld k fd rs1 imm s
  | .fsw k fs rs1 imm => Sys2Proof.Machine.execFsw k fs rs1 imm s
  | .fsd k fs rs1 imm => Sys2Proof.Machine.execFsd k fs rs1 imm s
  | .setvl k rd rs1 sew => Sys2Proof.Machine.execSetvl k rd rs1 sew s
  | .setvlmax k rd sew => Sys2Proof.Machine.execSetvlmax k rd sew s
  | .vadd k vd vs1 s2 pg z => Sys2Proof.Machine.execVadd k vd vs1 s2 pg z s
  | .vsub k vd vs1 s2 pg z => Sys2Proof.Machine.execVsub k vd vs1 s2 pg z s
  | .vand k vd vs1 s2 pg z => Sys2Proof.Machine.execVand k vd vs1 s2 pg z s
  | .vor k vd vs1 s2 pg z => Sys2Proof.Machine.execVor k vd vs1 s2 pg z s
  | .vxor k vd vs1 s2 pg z => Sys2Proof.Machine.execVxor k vd vs1 s2 pg z s
  | .vsll k vd vs1 s2 pg z => Sys2Proof.Machine.execVsll k vd vs1 s2 pg z s
  | .vsrl k vd vs1 s2 pg z => Sys2Proof.Machine.execVsrl k vd vs1 s2 pg z s
  | .vsra k vd vs1 s2 pg z => Sys2Proof.Machine.execVsra k vd vs1 s2 pg z s
  | .vmul k vd vs1 s2 pg z => Sys2Proof.Machine.execVmul k vd vs1 s2 pg z s
  | .vmulh k vd vs1 s2 pg z => Sys2Proof.Machine.execVmulh k vd vs1 s2 pg z s
  | .vmin k vd vs1 s2 pg z => Sys2Proof.Machine.execVmin k vd vs1 s2 pg z s
  | .vmax k vd vs1 s2 pg z => Sys2Proof.Machine.execVmax k vd vs1 s2 pg z s
  | .vminu k vd vs1 s2 pg z => Sys2Proof.Machine.execVminu k vd vs1 s2 pg z s
  | .vmaxu k vd vs1 s2 pg z => Sys2Proof.Machine.execVmaxu k vd vs1 s2 pg z s
  | .vsaddu k vd vs1 s2 pg z => Sys2Proof.Machine.execVsaddu k vd vs1 s2 pg z s
  | .vmacc k vd vs1 s2 pg z => Sys2Proof.Machine.execVmacc k vd vs1 s2 pg z s
  | .vfadd k vd vs1 s2 pg z => Sys2Proof.Machine.execVfadd k vd vs1 s2 pg z s
  | .vfsub k vd vs1 s2 pg z => Sys2Proof.Machine.execVfsub k vd vs1 s2 pg z s
  | .vfmul k vd vs1 s2 pg z => Sys2Proof.Machine.execVfmul k vd vs1 s2 pg z s
  | .vfdiv k vd vs1 s2 pg z => Sys2Proof.Machine.execVfdiv k vd vs1 s2 pg z s
  | .vfmin k vd vs1 s2 pg z => Sys2Proof.Machine.execVfmin k vd vs1 s2 pg z s
  | .vfmax k vd vs1 s2 pg z => Sys2Proof.Machine.execVfmax k vd vs1 s2 pg z s
  | .vfmacc k vd vs1 s2 pg z => Sys2Proof.Machine.execVfmacc k vd vs1 s2 pg z s
  | .vfnmsac k vd vs1 s2 pg z => Sys2Proof.Machine.execVfnmsac k vd vs1 s2 pg z s
  | .vfsqrt k vd vs1 pg z => Sys2Proof.Machine.execVfsqrt k vd vs1 pg z s
  | .vfabs k vd vs1 pg z => Sys2Proof.Machine.execVfabs k vd vs1 pg z s
  | .vfneg k vd vs1 pg z => Sys2Proof.Machine.execVfneg k vd vs1 pg z s
  | .vfcvtxf k vd vs1 pg z => Sys2Proof.Machine.execVfcvtxf k vd vs1 pg z s
  | .vfcvtfx k vd vs1 pg z => Sys2Proof.Machine.execVfcvtfx k vd vs1 pg z s
  | .vceq k pd vs1 s2 pg z => Sys2Proof.Machine.execVceq k pd vs1 s2 pg z s
  | .vcne k pd vs1 s2 pg z => Sys2Proof.Machine.execVcne k pd vs1 s2 pg z s
  | .vclt k pd vs1 s2 pg z => Sys2Proof.Machine.execVclt k pd vs1 s2 pg z s
  | .vcle k pd vs1 s2 pg z => Sys2Proof.Machine.execVcle k pd vs1 s2 pg z s
  | .vcltu k pd vs1 s2 pg z => Sys2Proof.Machine.execVcltu k pd vs1 s2 pg z s
  | .vcleu k pd vs1 s2 pg z => Sys2Proof.Machine.execVcleu k pd vs1 s2 pg z s
  | .vcgt k pd vs1 s2 pg z => Sys2Proof.Machine.execVcgt k pd vs1 s2 pg z s
  | .vcgtu k pd vs1 s2 pg z => Sys2Proof.Machine.execVcgtu k pd vs1 s2 pg z s
  | .vfceq k pd vs1 s2 pg z => Sys2Proof.Machine.execVfceq k pd vs1 s2 pg z s
  | .vfclt k pd vs1 s2 pg z => Sys2Proof.Machine.execVfclt k pd vs1 s2 pg z s
  | .vfcle k pd vs1 s2 pg z => Sys2Proof.Machine.execVfcle k pd vs1 s2 pg z s
  | .pand k pd ps1 ps2 => Sys2Proof.Machine.execPand k pd ps1 ps2 s
  | .por k pd ps1 ps2 => Sys2Proof.Machine.execPor k pd ps1 ps2 s
  | .pandn k pd ps1 ps2 => Sys2Proof.Machine.execPandn k pd ps1 ps2 s
  | .vcompress k vd vs1 pg z => Sys2Proof.Machine.execVcompress k vd vs1 pg z s
  | .vslidedn k vd vs1 s2 pg z => Sys2Proof.Machine.execVslidedn k vd vs1 s2 pg z s
  | .vslideup k vd vs1 s2 pg z => Sys2Proof.Machine.execVslideup k vd vs1 s2 pg z s
  | .vmv k vd s2 pg z => Sys2Proof.Machine.execVmv k vd s2 pg z s
  | .vext k rd vs1 idx => Sys2Proof.Machine.execVext k rd vs1 idx s
  | .vins k vd rs idx => Sys2Proof.Machine.execVins k vd rs idx s
  | .vredsum k vd vs1 pg z => Sys2Proof.Machine.execVredsum k vd vs1 pg z s
  | .vredmin k vd vs1 pg z => Sys2Proof.Machine.execVredmin k vd vs1 pg z s
  | .vredmax k vd vs1 pg z => Sys2Proof.Machine.execVredmax k vd vs1 pg z s
  | .vfredsum k vd vs1 pg z => Sys2Proof.Machine.execVfredsum k vd vs1 pg z s
  | .pcnt k rd ps pg z => Sys2Proof.Machine.execPcnt k rd ps pg z s
  | .pfirst k rd ps pg z => Sys2Proof.Machine.execPfirst k rd ps pg z s
  | .vgather k vd vs1 vidx pg z => Sys2Proof.Machine.execVgather k vd vs1 vidx pg z s
  | .vld k vt rs1 pg z => Sys2Proof.Machine.execVld k vt rs1 pg z s
  | .vst k vt rs1 pg z => Sys2Proof.Machine.execVst k vt rs1 pg z s
  | .vlda k vt rs1 pg z => Sys2Proof.Machine.execVlda k vt rs1 pg z s
  | .vsta k vt rs1 pg z => Sys2Proof.Machine.execVsta k vt rs1 pg z s
  | .spop k vt rd ip => Sys2Proof.Machine.execSpop k vt rd ip s
  | .spush k vt op => Sys2Proof.Machine.execSpush k vt op s
  | .sclose k op => Sys2Proof.Machine.execSclose k op s
  | .savail k rd ip => Sys2Proof.Machine.execSavail k rd ip s
  | .vfEnableSet port numVfs => Sys2Proof.Machine.execVfEnableSet port numVfs s
  | .priEnableSet inst => Sys2Proof.Machine.execPriEnableSet inst s
  | .outstandingPageRequestAllocation inst n => Sys2Proof.Machine.execOutstandingPageRequestAllocation inst n s
  | .completionTimeout inst owner => Sys2Proof.Machine.execCompletionTimeout inst owner s
  | .registerRead inst bar offset size => Sys2Proof.Machine.execRegisterRead inst bar offset size s

end Sys2Proof.Machine
end

