-- ==== Sys2Proof/Safety.lean ====
section
/-! DEFINITION. The words in which claims about the engine are stated: what a safe run is, when a core executes the
instruction at its PC, and what completing an instruction leaves. -/

namespace Sys2Proof.Machine

/-- The commands that wait can all be carried out from a state: none stops with a fault or a refusal. -/
def State.safeFor : State → Nat → Prop
  | _, 0 => True
  | s, k + 1 => ∃ t, step s = .next t ∧ t.safeFor k

end Sys2Proof.Machine

namespace Sys2Proof.Claims

open Sys2Proof.Machine

/-! ### Cores (13, 14) -/

/-- A core executes the instruction at its PC: it is neither halted (14 R436) nor waiting, it is not at the address at which a
kernel item ends (14 R431), its mode may fetch there (14 R423), and a kernel's code holds an instruction there (13 R409). -/
structure Ready (s : State) (k : CoreId) : Prop where
  running : (s.core k).halted = false
  awake   : (s.core k).waiting = false
  inside  : ¬((s.core k).mode = 0 ∧ (s.core k).pc = 0xFFFFFFFFFFFFFFF0)
  fetched : (s.core k).mayFetch k (s.core k).pc.toNat = true
  listed  : (s.core k).strayWord k = none

/-- A core that is ready and resumes no instruction: VPROG is 0 (14 R443). -/
structure Fresh (s : State) (k : CoreId) : Prop extends Ready s k where
  whole : (s.core k).vprog = 0

/-- From one state to the next nothing differs but one core and the counter of free values. -/
def OnlyCore (s t : State) (k : CoreId) : Prop :=
  t = { s with cores := { s.cores with cores := t.cores.cores }, free := t.free } ∧ ∀ j, j ≠ k → t.core j = s.core j

/-- From one state to the next nothing differs but one core, the Local Store and pool memory that cores see, and the counter of
free values. -/
def OnlyCoreAndMemory (s t : State) (k : CoreId) : Prop :=
  t = { s with cores := { s.cores with cores := t.cores.cores, ls := t.cores.ls, pool := t.cores.pool }, free := t.free } ∧
  ∀ j, j ≠ k → t.core j = s.core j

/-- Core cycles pass on a core: CYCLE counts them, the watchdog counts them down, and may become pending (14 R439), which a
core that waits for an event may meet; the count of masked cycles (14 R436) counts them. Nothing else differs. -/
def Elapsed (c d : Core) : Prop :=
  d = { c with cycle := d.cycle, wdcnt := d.wdcnt, ipend := d.ipend, ievals := d.ievals, maskCount := d.maskCount,
               waiting := d.waiting } ∧
  (d.ipend = c.ipend ∨ d.ipend = c.ipend ||| 4) ∧
  (c.wdcnt = 0 → d.wdcnt = 0 ∧ d.ipend = c.ipend ∧ d.ievals = c.ievals ∧ d.waiting = c.waiting)

/-- What the loop-end step after the instruction at `a` leaves of a core whose PC is past it (13, Pseudocode, `loop_end`): level 1
first; a level with iterations left goes to its LSTART, and only then is level 0 left as it is. -/
def LoopStep (a : BitVec 64) (c d : Core) : Prop :=
  let ends1 : Prop := c.lcount1 ≠ 0 ∧ a = c.lend1
  let ends0 : Prop := c.lcount0 ≠ 0 ∧ a = c.lend0
  if ends1 ∧ c.lcount1 ≠ 1 then d = { c with lcount1 := c.lcount1 - 1, pc := pcOf c.lstart1 }
  else if ends0 then
    d = { c with
      lcount1 := if ends1 then 0 else c.lcount1
      lcount0 := c.lcount0 - 1
      pc := if c.lcount0 = 1 then c.pc else pcOf c.lstart0 }
  else d = { c with lcount1 := if ends1 then 0 else c.lcount1 }

/-- A core completes the instruction at its PC with an effect `e` on its registers: the command answers a next state, in which
the core has the effect, its PC is past the instruction but for a loop end, VPROG is 0, INSTRET counts it (13 R399, R400), and
`Rest` holds of the states before and after. -/
def CompletesWith (Rest : State → State → CoreId → Prop) (s : State) (k : CoreId) (i : Instr) (e : Core) : Prop :=
  ∃ t, exec i s = .next t ∧ Rest s t k ∧
    ∃ d, LoopStep (s.core k).pc { e with pc := (s.core k).pc + 4, vprog := 0, instret := (s.core k).instret + 1 } d ∧
      Elapsed d (t.core k)

/-- An instruction that touches nothing but its core completes with an effect. -/
def Completes (s : State) (k : CoreId) (i : Instr) (e : Core) : Prop := CompletesWith OnlyCore s k i e

/-- A control instruction completes with an effect `e` that holds the next PC (14 R434). -/
def JumpsWith (Rest : State → State → CoreId → Prop) (s : State) (k : CoreId) (i : Instr) (e : Core) : Prop :=
  ∃ t, exec i s = .next t ∧ Rest s t k ∧ Elapsed { e with instret := (s.core k).instret + 1 } (t.core k)

/-- A control instruction that touches nothing but its core. -/
def Jumps (s : State) (k : CoreId) (i : Instr) (e : Core) : Prop := JumpsWith OnlyCore s k i e

/-- What a trap into the trap mode leaves of a core (14 R425): from a lower mode x30 and KENTRY_SP exchange values and the shadow
stack registers are those of the trap mode (14 R424). -/
def Trapped (k : CoreId) (c d : Core) (cause eval epc : BitVec 64) : Prop :=
  d.klinkPc = epc ∧ d.klinkStatus = BitVec.ofNat 64 (c.mode.toNat + (if c.gm then 4 else 0)) ∧ d.klinkVprog = c.vprog ∧
  d.vprog = 0 ∧ d.cause = (if c.gm then cause ||| 0x100 else cause) ∧ d.eval = eval ∧
  d.mode = k.trapMode ∧ d.gm = true ∧ d.pc = pcOf c.kentryPc ∧ d.kentryPc = c.kentryPc ∧
  (∀ r, r ≠ 30 → d.getX r = c.getX r) ∧
  (if c.mode = k.trapMode then
    d.getX 30 = c.getX 30 ∧ d.kentrySp = c.kentrySp ∧
    d.ssp = c.ssp ∧ d.ssbase = c.ssbase ∧ d.sslimit = c.sslimit ∧
    d.lssp = c.lssp ∧ d.lssbase = c.lssbase ∧ d.lsslimit = c.lsslimit
  else
    d.getX 30 = c.kentrySp ∧ d.kentrySp = c.getX 30 ∧
    d.ssp = c.lssp ∧ d.ssbase = c.lssbase ∧ d.sslimit = c.lsslimit ∧
    d.lssp = c.ssp ∧ d.lssbase = c.ssbase ∧ d.lsslimit = c.sslimit) ∧
  d = { c with
    klinkPc := d.klinkPc, klinkStatus := d.klinkStatus, klinkVprog := d.klinkVprog, vprog := d.vprog
    cause := d.cause, eval := d.eval, mode := d.mode, gm := d.gm, pc := d.pc, x := d.x, kentrySp := d.kentrySp
    ssp := d.ssp, ssbase := d.ssbase, sslimit := d.sslimit, lssp := d.lssp, lssbase := d.lssbase, lsslimit := d.lsslimit }

/-- A core raises a cause at the instruction at its PC: the command answers a next state in which the core has trapped. -/
def Raises (s : State) (k : CoreId) (i : Instr) (code eval : BitVec 64) : Prop :=
  ∃ t d, exec i s = .next t ∧ OnlyCore s t k ∧ Trapped k (s.core k) d code eval (s.core k).pc ∧ Elapsed d (t.core k)

/-- Element `j` of a vector register at an element width (13 R397): bits 8·eb·j and up, 8·eb of them. -/
def lane (sew : BitVec 2) (v : BitVec 2048) (j : Nat) : Nat :=
  (v.extractLsb' (8 * 2 ^ sew.toNat * j) (8 * 2 ^ sew.toNat)).toNat

/-- What a vector instruction leaves of its destination (13 R401, R402; 14 R443): from VPROG to VL, which no register exceeds, an
active element holds `f`, an inactive one is as it was or, with Z, 0; every other element is as it was. -/
def LanesWritten (c : Core) (k : CoreId) (pg : BitVec 3) (z : Bool) (old new : BitVec 2048) (f : Nat → Nat) : Prop :=
  ∀ j, (j + 1) * 2 ^ c.sew.toNat ≤ 256 →
    lane c.sew new j =
      if c.vprog.toNat ≤ j ∧ j < c.vl.toNat ∧ (j + 1) * 2 ^ c.sew.toNat ≤ k.vlenb then
        if (c.getP k pg).getLsbD (j * 2 ^ c.sew.toNat) then f j else if z then 0 else lane c.sew old j
      else lane c.sew old j

/-- FFLAGS after a vector instruction (13 R400, R405): a flag is set where it was, or where the operation on some active element
from VPROG to VL sets it. -/
def FlagsGained (c : Core) (k : CoreId) (pg : BitVec 3) (new : BitVec 5) (f : Nat → BitVec 5) : Prop :=
  ∀ n, new.getLsbD n = true ↔
    c.fflags.getLsbD n = true ∨
    ∃ j, c.vprog.toNat ≤ j ∧ j < c.vl.toNat ∧ (j + 1) * 2 ^ c.sew.toNat ≤ k.vlenb ∧
      (c.getP k pg).getLsbD (j * 2 ^ c.sew.toNat) = true ∧ (f j).getLsbD n = true

/-! ### Commands of the queues (03) -/

/-- A command may be executed under its opcode now: it is outstanding and has not finished, the engine is READY, no page request
holds it (15 R456), no command fetched before it is still to begin (03 R76), it is in no batch, none of its jobs waits at a compression
engine (12 R382), it was not fetched during an activation (20 R608), and its SQ and CQ exist. -/
structure Due (s : State) (t : Tag) (op : Nat) (c : Cmd) : Prop where
  found   : s.cmd? t = some c
  pending : c.stage ≠ .finished
  named   : c.opcode = op
  ready   : s.glb.phase = .ready
  free    : s.waitsFor (.cmd t) = false
  turn    : c.stage = .begun ∨ ∀ d, d ∈ s.rings.cmds → d.stage = .fetched → c.no ≤ d.no
  single  : c.batch = none
  jobs    : s.jobsWait t = false
  alone   : t ∉ s.fw.late
  queues  : ∃ q cq, s.sq t.inst t.sqid = some q ∧ s.cq t.inst q.cqid = some cq

/-- The checks that come before a command's own pass: a manager-only opcode comes from the manager (03 R108), and FUA is set only
where it is permitted (03 R68). -/
def Permitted (s : State) (c : Cmd) : Prop :=
  (c.opcode ∈ managerOpcodes → s.glb.manager = some c.tag.inst) ∧ (c.fua = true → c.opcode ∈ fuaOpcodes)

/-- A command that is due and passes those checks. -/
structure Runs (s : State) (t : Tag) (op : Nat) (c : Cmd) : Prop extends Due s t op c where
  permitted : Permitted s c

/-- A command of tag `t` has ended with a status and a RESULT (03 R79): over the state `e` its stage is finished, its completion is the
last ready one of its CQ, written after those of the tags `after` (04 R143), and nothing else differs. -/
structure Ended (e : State) (t : Tag) (status : BitVec 15) (result : BitVec 64) (after : List Tag) (new : State) : Prop where
  rest : new = { e with rings := { e.rings with cmds := new.rings.cmds, cqs := new.rings.cqs } }
  cmds : ∀ u, new.cmd? u = if u = t then (e.cmd? u).map (fun c => { c with stage := CmdStage.finished }) else e.cmd? u
  cqs  : ∃ q cq, e.sq t.inst t.sqid = some q ∧ e.cq t.inst q.cqid = some cq ∧
    ∀ i k, new.cq i k =
      if i = t.inst ∧ k = q.cqid then
        some { cq with ready := cq.ready ++ [(
          { sqid := t.sqid, cid := t.cid, status := status, result := result, batch := false, sqhead := none, covers := [t.cid],
            after := after } : Cpl)] }
      else e.cq i k

/-- Executing a command ends it, with the state `e` as its effect. -/
def Ends (s : State) (i : Instr) (t : Tag) (status : BitVec 15) (result : BitVec 64) (e : State) : Prop :=
  ∃ new, exec i s = .next new ∧ Ended e t status result [] new

/-! ### Writes to host memory (15 R448, R467) -/

/-- How bytes that the engine writes to host memory go out, as data and as a CSW or a CQ entry: as requests that follow one another, none across a
4 KiB boundary (R448); none has No Snoop or ID-Based Ordering, and data alone may have Relaxed Ordering, where the function's enable is set; what
is ordered goes out, where data before it went as the other kind of request, after a zero-length read of the last of that data (R467). -/
def GoesOutInOrder (s : State) (i : BitVec 8) (pasid : Option (BitVec 20)) (addr : BitVec 64) (bs : Bytes) : Prop :=
  let f := s.fn i
  let data := s.dataWrite i pasid addr bs
  let ordered := s.orderedWrite i pasid addr bs
  let last (u : State) (ats : Bool) : Option (Option (BitVec 20) × BitVec 64) := AMap.find? u.xlat.lastData (i, ats)
  let whole (l : List (BitVec 64 × Bytes)) : Prop := l.flatMap (·.2) = bs ∧ ∀ k a b, l[k]? = some (a, b) →
    a = addr + BitVec.ofNat 64 ((l.take k).map (·.2.length)).sum ∧ a.toNat % 4096 + b.length ≤ 4096
  let sent (relaxed : BitVec 64 → Bool) (l : List (BitVec 64 × Bytes)) : List Sent := l.map fun e =>
    .hostWrite i pasid e.1 e.2 { relaxed := relaxed e.1, noSnoop := false, ido := false, translated := f.ats }
  (data = { s with xlat := data.xlat, out := data.out } ∧ ordered = { s with xlat := ordered.xlat, out := ordered.out }) ∧
  (bs = [] → data.out = s.out) ∧
  (bs ≠ [] → ∃ l, whole l ∧ data.out = (sent (fun a => f.relaxedEn && Config.relaxes a) l).reverse ++ s.out ∧
    last data f.ats = some (pasid, addr + BitVec.ofNat 64 (bs.length - 1))) ∧
  ∃ l, whole l ∧
    (last s (!f.ats) = none → ordered.out = (sent (fun _ => false) l).reverse ++ s.out) ∧
    (∀ d, last s (!f.ats) = some d → ordered.out = (sent (fun _ => false) l).reverse ++ .zeroRead i d.1 d.2 :: s.out ∧ last ordered (!f.ats) = none)

/-! ### Relay messages (18 R532-R537, R556) -/

/-- A Relay message is one this engine acts on: the engine has not saved its state (04 R133) nor declared a fatal error (20 R600), its link is UP, its payload's length is a multiple of 16 of at most 65,536, its class may
use the port (18 R535), and it is for this engine (18 R533). -/
structure Heard (s : State) (m : RelayMsg) (cls : Nat) : Prop where
  on    : s.glb.phase ≠ .saved ∧ s.glb.phase ≠ .fatal
  up    : s.linkUp m.port = true
  block : m.payload.length % 16 = 0
  short : m.payload.length ≤ 65536
  may   : classOn cls m.port = true
  mine  : m.dst = 0xFFFF ∨ m.dst = s.srcNode

/-- A fragment of a logical payload that continues what its link holds of it (18 R537): its header keeps the layout, it starts where the
fragments before it ended, `got`, with the same length of the whole, and LAST is set where the payload ends with it. -/
structure Continues (s : State) (m : RelayMsg) (cls : BitVec 8) (got : Bytes) : Prop where
  heard  : Heard s m cls.toNat
  header : 16 ≤ m.payload.length ∧ fld m.payload 10 2 ≤ 1 ∧ fld m.payload 12 4 = 0 ∧ fld m.payload 0 4 % 16 = 0
  data   : 1 ≤ fld m.payload 8 2 ∧ fld m.payload 8 2 ≤ 65520 ∧ m.payload.length = 16 + roundUp (fld m.payload 8 2) 16 ∧
    allZero (m.payload.drop (16 + fld m.payload 8 2)) = true
  whole  : 1 ≤ fld m.payload 4 4 ∧ fld m.payload 4 4 ≤ 16777280 ∧ fld m.payload 0 4 + fld m.payload 8 2 ≤ fld m.payload 4 4
  offset : fld m.payload 0 4 = got.length
  held   : match (s.link m.port).frags.find? fun f => f.cls == cls && f.src == m.src && f.tag == m.tag with
    | some f => f.got = got ∧ f.total = fld m.payload 4 4
    | none => got = []
  last   : fld m.payload 10 2 = 1 ↔ fld m.payload 0 4 + fld m.payload 8 2 = fld m.payload 4 4

/-- The last fragment of a logical payload has come: the payload is `bs`. -/
def Assembled (s : State) (m : RelayMsg) (cls : BitVec 8) (bs : Bytes) : Prop :=
  ∃ got, Continues s m cls got ∧ fld m.payload 10 2 = 1 ∧ bs = got ++ slice m.payload 16 (fld m.payload 8 2)

/-! ### What every step keeps -/

/-- Every core's PC is a multiple of 4 and its mode one of its kind's two (14 R422), the memories keep their canonical form, and MASKLIMIT is
in its range (14 R424). -/
structure Inv (s : State) : Prop where
  aligned : ∀ k, (s.core k).pc.toNat % 4 = 0
  modes   : ∀ k : CoreId, (s.core k).mode = k.low ∨ (s.core k).mode = k.trapMode
  scratch : ∀ k, (s.core k).scratch.wf = true
  shared  : s.cores.ls.wf = true ∧ s.cores.runtime.wf = true ∧ s.cores.pool.wf = true
  limit   : 256 ≤ s.cores.masklimit.toNat ∧ s.cores.masklimit.toNat ≤ 1048576

end Sys2Proof.Claims
end

