-- ==== Sys2Proof/Certificates/Slice0/Obligations.lean ====
section
/-! DEFINITION. The statements for the provers. -/

section

open Sys2Proof Sys2Proof.Machine Sys2Proof.Claims

/-! ### The queue, reset and what every step keeps -/

/-- A step takes the command at the front of the queue and executes it on the state with the queue's rest; with no command waiting the time
base counts one tick (the model's choice, log 1), whatever the state (19 R562). -/
def Obligations.StepRunsTheFrontCommand : Prop :=
  ∀ (s : State) (c : Instr) (rest : List Instr),
    step { s with pending := c :: rest } = exec c { s with pending := rest } ∧
    (s.pending = [] → ∃ t, step s = .next t ∧ t = { s with time := s.time + 1 })

/-- The values that the register map gives at reset (21 R622-R634; 14 R400, R424; 18 R559, R560; 19 R577-R580): what each register reads
after reset, before a start has run. -/
def Obligations.ResetGivesTheRegistersTheirValues : Prop :=
  let r := State.reset
  (∀ i : BitVec 8,
    r.readReg i .admSqBase = 0 ∧ r.readReg i .admCqBase = 0 ∧ r.readReg i .admCtrl = 0 ∧ r.readReg i .admSts = 0 ∧
    (∀ j, j < 16 → r.readReg i (.evtPend j) = 0) ∧ (∀ n, n < 1024 → r.readReg i (.evtRoute n) = 0) ∧ r.readReg i .glbTime = 0 ∧
    (∀ n, n < 256 → r.readReg i (.instState n) = 0) ∧
    r.readReg i .dramCtrl = 0 ∧ r.readReg i .dramScrub = 24 ∧ r.readReg i .dramCestorm = 0x03E80100 ∧
    (∀ n, n < 12 → r.readReg i (.dramChctl n) = 0 ∧ r.readReg i (.dramChsts n) = 0xFFF000) ∧ (∀ n, n < 16 → r.readReg i (.dramMap n) = 0) ∧
    r.readReg i .peerCtrl = 0x700 ∧ r.readReg i .pwrBudget = 420 ∧
    r.readReg i .pwrCfg = 20 + 1000 * 2 ^ 8 + 115 * 2 ^ 20 + 5 * 2 ^ 28 ∧
    r.readReg i .asaScancfg = 10 ∧ r.readReg i .asaCascfg = 0x100 ∧ r.readReg i .asaSts = 0 ∧ (∀ o, r.readReg i (.ras o) = 0) ∧
    ∀ j, j < 32 → r.readReg i (.pba j) = 0) ∧
  r.pending = [] ∧ r.rings.sqs = [] ∧ r.rings.cqs = [] ∧ r.rings.cmds = [] ∧ r.store.tables = [] ∧ r.queries = [] ∧ r.cores.masklimit = 8192 ∧
  ∀ k : CoreId,
    let c := r.core k
    c.mode = k.trapMode ∧ c.gm = true ∧ c.vl = 0 ∧ c.sew = 0 ∧ c.vprog = 0 ∧ c.fflags = 0 ∧ c.lcount0 = 0 ∧ c.lcount1 = 0 ∧ c.cycle = 0 ∧
    c.instret = 0 ∧ (∀ a, (c.scratch.read a) = 0)

/-- The machine after reset meets what every step keeps. -/
def Obligations.ResetMeetsTheInvariant : Prop := Inv State.reset

/-- Every step keeps the invariant of `Inv`, for every command in front or for none, and changes the queue only by taking its front. -/
def Obligations.StepsKeepTheInvariant : Prop :=
  ∀ s t : State, step s = .next t → t.pending = s.pending.tail ∧ (Inv s → Inv t)

/-! ### The cores: registers (13 R397, R398) -/

/-- x0 reads 0 and keeps nothing; a written x register reads the value and no other register changes; p0 reads all ones of its
VLENB bits and keeps nothing; f n is bits 63:0 of v n, and a scalar FP result clears the bits above it. -/
def Obligations.RegisterFilesReadAndWrite : Prop :=
  ∀ (c : Core) (k : CoreId) (r q : BitVec 5) (w : BitVec 64) (p o : BitVec 3) (m : BitVec 256) (n : Nat),
    c.getX 0 = 0 ∧ c.setX 0 w = c ∧ (r ≠ 0 → (c.setX r w).getX r = w) ∧ (q ≠ r → (c.setX r w).getX q = c.getX q) ∧
    c.setX r w = { c with x := (c.setX r w).x } ∧
    c.getP k 0 = BitVec.ofNat 256 (2 ^ k.vlenb - 1) ∧ c.setP 0 m = c ∧ (p ≠ 0 → (c.setP p m).getP k p = m) ∧
    (o ≠ p → (c.setP p m).getP k o = c.getP k o) ∧ c.setP p m = { c with p := (c.setP p m).p } ∧
    c.getF .double r = (c.getV r).toNat % 2 ^ 64 ∧ c.getF .single r = (c.getV r).toNat % 2 ^ 32 ∧
    (c.setF .double r n).getV r = BitVec.ofNat 2048 (n % 2 ^ 64) ∧
    (c.setF .single r n).getV r = BitVec.ofNat 2048 (n % 2 ^ 32) ∧
    (∀ d, (q ≠ r → (c.setF d r n).getV q = c.getV q) ∧ c.setF d r n = { c with v := (c.setF d r n).v })

/-! ### Scalar integer instructions (13, Scalar integer) -/

/-- ADD to SUBW: rd takes the result of the table, and nothing else of the core changes but the PC, INSTRET and time. -/
def Obligations.IntegerRegisterResults : Prop :=
  ∀ (s : State) (k : At) (rd rs1 rs2 : BitVec 5), Fresh s k.core →
    let c := s.core k.core
    let a := c.getX rs1
    let b := c.getX rs2
    let gives (i : Instr) (w : BitVec 64) : Prop := Completes s k.core i (c.setX rd w)
    gives (.add k rd rs1 rs2) (a + b) ∧ gives (.sub k rd rs1 rs2) (a - b) ∧
    gives (.and k rd rs1 rs2) (a &&& b) ∧ gives (.or k rd rs1 rs2) (a ||| b) ∧ gives (.xor k rd rs1 rs2) (a ^^^ b) ∧
    gives (.sll k rd rs1 rs2) (a <<< (b.toNat % 64)) ∧ gives (.srl k rd rs1 rs2) (a >>> (b.toNat % 64)) ∧
    gives (.sra k rd rs1 rs2) (a.sshiftRight (b.toNat % 64)) ∧
    gives (.slt k rd rs1 rs2) (if a.toInt < b.toInt then 1 else 0) ∧
    gives (.sltu k rd rs1 rs2) (if a.toNat < b.toNat then 1 else 0) ∧
    gives (.mul k rd rs1 rs2) (a * b) ∧
    gives (.mulh k rd rs1 rs2) (BitVec.ofInt 64 (a.toInt * b.toInt / 2 ^ 64)) ∧
    gives (.mulhu k rd rs1 rs2) (BitVec.ofNat 64 (a.toNat * b.toNat / 2 ^ 64)) ∧
    gives (.div k rd rs1 rs2) (if b = 0 then BitVec.allOnes 64 else BitVec.ofInt 64 (a.toInt.tdiv b.toInt)) ∧
    gives (.divu k rd rs1 rs2) (if b = 0 then BitVec.allOnes 64 else BitVec.ofNat 64 (a.toNat / b.toNat)) ∧
    gives (.rem k rd rs1 rs2) (if b = 0 then a else BitVec.ofInt 64 (a.toInt.tmod b.toInt)) ∧
    gives (.remu k rd rs1 rs2) (if b = 0 then a else BitVec.ofNat 64 (a.toNat % b.toNat)) ∧
    gives (.min k rd rs1 rs2) (BitVec.ofInt 64 (Min.min a.toInt b.toInt)) ∧
    gives (.max k rd rs1 rs2) (BitVec.ofInt 64 (Max.max a.toInt b.toInt)) ∧
    gives (.minu k rd rs1 rs2) (BitVec.ofNat 64 (Min.min a.toNat b.toNat)) ∧
    gives (.maxu k rd rs1 rs2) (BitVec.ofNat 64 (Max.max a.toNat b.toNat)) ∧
    gives (.addw k rd rs1 rs2) (((a + b).setWidth 32).signExtend 64) ∧
    gives (.subw k rd rs1 rs2) (((a - b).setWidth 32).signExtend 64)

/-- CLZ, CTZ, POPC and BSWAP: the counts and the reversal, said bit by bit. -/
def Obligations.IntegerBitCounts : Prop :=
  ∀ (s : State) (k : At) (rd rs1 : BitVec 5), Fresh s k.core →
    let c := s.core k.core
    let a := c.getX rs1
    (∃ n, n ≤ 64 ∧ Completes s k.core (.clz k rd rs1) (c.setX rd (BitVec.ofNat 64 n)) ∧
      (∀ i, i < n → a.getLsbD (63 - i) = false) ∧ (n < 64 → a.getLsbD (63 - n) = true)) ∧
    (∃ n, n ≤ 64 ∧ Completes s k.core (.ctz k rd rs1) (c.setX rd (BitVec.ofNat 64 n)) ∧
      (∀ i, i < n → a.getLsbD i = false) ∧ (n < 64 → a.getLsbD n = true)) ∧
    Completes s k.core (.popc k rd rs1)
      (c.setX rd (BitVec.ofNat 64 ((List.range 64).filter fun i => a.getLsbD i).length)) ∧
    (∃ w : BitVec 64, Completes s k.core (.bswap k rd rs1) (c.setX rd w) ∧
      ∀ j, j < 8 → w.extractLsb' (8 * j) 8 = a.extractLsb' (8 * (7 - j)) 8)

/-- ADDI to SRAI, LUP and PCUP. -/
def Obligations.IntegerImmediateResults : Prop :=
  ∀ (s : State) (k : At) (rd rs1 : BitVec 5) (imm : BitVec 12) (sh : BitVec 6) (up : BitVec 20), Fresh s k.core →
    let c := s.core k.core
    let a := c.getX rs1
    let b : BitVec 64 := imm.signExtend 64
    let gives (i : Instr) (w : BitVec 64) : Prop := Completes s k.core i (c.setX rd w)
    gives (.addi k rd rs1 imm) (a + b) ∧ gives (.andi k rd rs1 imm) (a &&& b) ∧
    gives (.ori k rd rs1 imm) (a ||| b) ∧ gives (.xori k rd rs1 imm) (a ^^^ b) ∧
    gives (.slti k rd rs1 imm) (if a.toInt < imm.toInt then 1 else 0) ∧
    gives (.slli k rd rs1 sh) (a <<< sh.toNat) ∧ gives (.srli k rd rs1 sh) (a >>> sh.toNat) ∧
    gives (.srai k rd rs1 sh) (a.sshiftRight sh.toNat) ∧
    gives (.lup k rd up) (BitVec.ofInt 64 (up.toInt * 4096)) ∧
    gives (.pcup k rd up) (c.pc + BitVec.ofInt 64 (up.toInt * 4096))

/-! ### Control flow (13, Scalar memory and control; 14 R429-R434) -/

/-- The branches, J and JR: the next PC is the target or the next instruction, and nothing else changes; a JR to an address with
bits 1:0 set raises MISALIGN with the target; the same instructions at the LEND of an active level raise ILLEGAL (R411). -/
def Obligations.BranchesAndJumps : Prop :=
  ∀ (s : State) (k : At) (rs1 rs2 : BitVec 5) (off imm : BitVec 12) (far : BitVec 20), Fresh s k.core →
    let c := s.core k.core
    let a := c.getX rs1
    let b := c.getX rs2
    let ends : Prop := c.atLend c.pc = true
    let goes (i : Instr) (taken : Bool) : Prop :=
      if ends then ∃ e, Raises s k.core i 0x01 e
      else Jumps s k.core i { c with pc := if taken then c.pc + BitVec.ofInt 64 (4 * off.toInt) else c.pc + 4 }
    let target := a + imm.signExtend 64
    goes (.beq k rs1 rs2 off) (a == b) ∧ goes (.bne k rs1 rs2 off) (a != b) ∧
    goes (.blt k rs1 rs2 off) (decide (a.toInt < b.toInt)) ∧ goes (.bge k rs1 rs2 off) (decide (b.toInt ≤ a.toInt)) ∧
    goes (.bltu k rs1 rs2 off) (decide (a.toNat < b.toNat)) ∧ goes (.bgeu k rs1 rs2 off) (decide (b.toNat ≤ a.toNat)) ∧
    (¬ends → Jumps s k.core (.j k far) { c with pc := c.pc + BitVec.ofInt 64 (4 * far.toInt) }) ∧
    (¬ends → if target.toNat % 4 = 0 then Jumps s k.core (.jr k rs1 imm) { c with pc := target }
      else Raises s k.core (.jr k rs1 imm) 0x03 target)

/-- CALL and CALLR store the return address at SSP, add 8 to SSP, write rd and branch; SSOVF where the entry does not fit (14 R429);
RET goes to x[rs1] where it equals the entry at SSP - 8, and raises CFI, changing nothing else, where it does not or the stack is
empty (14 R430); LOOP sets its level, or skips its body where the count is 0 (R411). -/
def Obligations.CallsReturnsAndLoops : Prop :=
  ∀ (s : State) (k : At) (rd rs1 : BitVec 5) (imm : BitVec 12) (far : BitVec 20) (lvl : BitVec 1) (off : BitVec 15),
    Fresh s k.core → (s.core k.core).atLend (s.core k.core).pc = false →
    let c := s.core k.core
    let top := if k.core.isEc then 0x40000 else 0x100000
    let entry : Core := { c with scratch := c.scratch.writeBytes c.ssp.toNat (leBytes 8 (c.pc + 4).toNat) }
    let calls (i : Instr) (target : BitVec 64) : Prop :=
      if c.sslimit.toNat < c.ssp.toNat + 8 then Raises s k.core i 0x05 c.ssp
      else target.toNat % 4 = 0 → c.ssp.toNat + 8 ≤ top →
        Jumps s k.core i { (entry.setX rd (c.pc + 4)) with ssp := c.ssp + 8, pc := target }
    calls (.call k rd far) (c.pc + BitVec.ofInt 64 (4 * far.toInt)) ∧
    calls (.callr k rd rs1 imm) (c.getX rs1 + imm.signExtend 64) ∧
    (if c.ssp = c.ssbase then Raises s k.core (.ret k rs1) 0x04 (c.getX rs1)
      else 8 ≤ c.ssp.toNat → c.ssp.toNat ≤ top → k.ue = none →
        if leNat (c.scratch.readBytes (c.ssp.toNat - 8) 8) = (c.getX rs1).toNat then
          Jumps s k.core (.ret k rs1) { c with ssp := c.ssp - 8, pc := pcOf (c.getX rs1) }
        else Raises s k.core (.ret k rs1) 0x04 (c.getX rs1)) ∧
    (if off = 0 then ∃ e, Raises s k.core (.loop k lvl rs1 off) 0x01 e
      else
        let last := c.pc + BitVec.ofNat 64 (4 * off.toNat)
        Jumps s k.core (.loop k lvl rs1 off)
          (if c.getX rs1 = 0 then { c with pc := last + 4 }
          else if lvl = 0 then { c with lstart0 := c.pc + 4, lend0 := last, lcount0 := c.getX rs1, pc := c.pc + 4 }
          else { c with lstart1 := c.pc + 4, lend1 := last, lcount1 := c.getX rs1, pc := c.pc + 4 }))

/-! ### Memory (13 R407; 14 R423) -/

/-- The scalar loads, FLW and FLD: from an aligned address that the mode reaches, rt takes the bytes sign- or zero-extended, f n as
R398 says; a misaligned one raises MISALIGN, one out of reach ACCESS, with the address. No byte of memory changes. -/
def Obligations.ScalarLoads : Prop :=
  ∀ (s : State) (k : At) (rt rs1 : BitVec 5) (imm : BitVec 12), Fresh s k.core →
    let c := s.core k.core
    let a := c.getX rs1 + imm.signExtend 64
    let value (n : Nat) : Nat := leNat ((List.range n).map fun j => s.byteIn k.core c ((a.toNat + j) % 2 ^ 64))
    let does (i : Instr) (n : Nat) (e : Core) : Prop :=
      if a.toNat % n ≠ 0 then Raises s k.core i 0x03 a
      else match c.access k.core k.ue false a n with
        | .ok => Completes s k.core i e
        | .denied => Raises s k.core i 0x02 a
        | .dataErr => Raises s k.core i 0x0B a
        | .device => exec i s = .refused .deviceWindow
    does (.lb k rt rs1 imm) 1 (c.setX rt ((BitVec.ofNat 8 (value 1)).signExtend 64)) ∧
    does (.lh k rt rs1 imm) 2 (c.setX rt ((BitVec.ofNat 16 (value 2)).signExtend 64)) ∧
    does (.lw k rt rs1 imm) 4 (c.setX rt ((BitVec.ofNat 32 (value 4)).signExtend 64)) ∧
    does (.ld k rt rs1 imm) 8 (c.setX rt (BitVec.ofNat 64 (value 8))) ∧
    does (.lbu k rt rs1 imm) 1 (c.setX rt (BitVec.ofNat 64 (value 1))) ∧
    does (.lhu k rt rs1 imm) 2 (c.setX rt (BitVec.ofNat 64 (value 2))) ∧
    does (.lwu k rt rs1 imm) 4 (c.setX rt (BitVec.ofNat 64 (value 4))) ∧
    does (.flw k rt rs1 imm) 4 (c.setV rt (BitVec.ofNat 2048 (value 4))) ∧
    does (.fld k rt rs1 imm) 8 (c.setV rt (BitVec.ofNat 2048 (value 8)))

/-- A core completes a store of the bytes of `v` at `a`: a byte of them reads as stored, every other byte that the core reads is as
before, and but for scratch its registers are. -/
def Obligations.ScalarStores : Prop :=
  ∀ (s : State) (k : At) (rt rs1 : BitVec 5) (imm : BitVec 12), Fresh s k.core →
    let c := s.core k.core
    let a := c.getX rs1 + imm.signExtend 64
    let does (i : Instr) (n v : Nat) : Prop :=
      if a.toNat % n ≠ 0 then Raises s k.core i 0x03 a
      else match c.access k.core k.ue true a n with
        | .ok => ∃ t e, exec i s = .next t ∧ CompletesWith OnlyCoreAndMemory s k.core i e ∧
            e = { c with scratch := (t.core k.core).scratch } ∧
            (∀ j, j < n → t.byteIn k.core (t.core k.core) (a.toNat + j) = BitVec.ofNat 8 (v / 256 ^ j)) ∧
            ∀ b, (∀ j, j < n → b ≠ a.toNat + j) → t.byteIn k.core (t.core k.core) b = s.byteIn k.core c b
        | .denied => Raises s k.core i 0x02 a
        | .dataErr => False
        | .device => exec i s = .refused .deviceWindow
    does (.sb k rt rs1 imm) 1 (c.getX rt).toNat ∧ does (.sh k rt rs1 imm) 2 (c.getX rt).toNat ∧
    does (.sw k rt rs1 imm) 4 (c.getX rt).toNat ∧ does (.sd k rt rs1 imm) 8 (c.getX rt).toNat ∧
    does (.fsw k rt rs1 imm) 4 (c.getF .single rt) ∧ does (.fsd k rt rs1 imm) 8 (c.getF .double rt)

/-! ### Control and status registers (13 R400, R410; 14 R424, R428, R432) -/

/-- CSRGET: rd takes the register of the address where the mode may read it; else, and at every other address, ILLEGAL. -/
def Obligations.CsrReads : Prop :=
  ∀ (s : State) (k : At) (rd : BitVec 5), Fresh s k.core → (s.core k.core).mode = k.core.low ∨ (s.core k.core).mode = k.core.trapMode →
    let c := s.core k.core
    let listed : List (Nat × Bool × BitVec 64) :=
      let notU := c.mode != 0
      let top := c.mode == k.core.trapMode
      [(0x800, true, c.vl), (0x801, true, c.sew.setWidth 64), (0x802, true, if k.core.isEc then 256 else 16),
       (0x804, true, c.fflags.setWidth 64), (0x810, true, c.lcount0), (0x811, true, c.lstart0), (0x812, true, c.lend0),
       (0x813, true, c.lcount1), (0x814, true, c.lstart1), (0x815, true, c.lend1),
       (0x820, true, if k.core.isEc then 0x101 else 0x102), (0x821, true, k.core.number), (0x830, true, c.cycle),
       (0x831, true, s.time), (0x832, true, c.instret), (0x840, true, c.itemOrigin), (0x841, true, c.itemCount),
       (0xC00, notU, BitVec.ofNat 64 (c.mode.toNat + (if c.gm then 4 else 0))), (0xC01, top, c.cause), (0xC02, top, c.eval),
       (0xC04, top, c.kentryPc), (0xC05, top, c.kentrySp), (0xC06, top, c.klinkPc), (0xC07, top, c.klinkStatus),
       (0xC08, top, c.klinkVprog), (0xC10, notU, c.ssp), (0xC11, notU, c.ssbase), (0xC12, notU, c.sslimit),
       (0xC14, top, c.lssp), (0xC15, top, c.lssbase), (0xC16, top, c.lsslimit), (0xC20, top, c.inten.setWidth 64),
       (0xC21, notU, c.ipend.setWidth 64), (0xC22, notU, s.cores.masklimit), (0xC23, top, c.wdcnt),
       (0xC30, !k.core.isEc && top, c.kbase), (0xC40, k.core.isEc && top, c.kitem.extractLsb' 0 64),
       (0xC41, k.core.isEc && top, c.kitem.extractLsb' 64 64), (0xC42, k.core.isEc && top, c.kitem.extractLsb' 128 64),
       (0xC43, k.core.isEc && top, c.kitem.extractLsb' 192 64)]
    (∀ e, e ∈ listed → if e.2.1 then Completes s k.core (.csrget k rd (BitVec.ofNat 12 e.1)) (c.setX rd e.2.2)
      else ∃ v, Raises s k.core (.csrget k rd (BitVec.ofNat 12 e.1)) 0x01 v) ∧
    ∀ a : BitVec 12, a.toNat ∉ listed.map (·.1) → ∃ v, Raises s k.core (.csrget k rd a) 0x01 v

/-- CSRPUT to the registers but STATUS and MASKLIMIT: the register takes x[rs1] where the mode may write it and the value keeps the
rules of its fields, else ILLEGAL and nothing is written; CSRPUTM of the same registers writes the bits that x[RD] masks, and a zero
mask writes nothing. -/
def Obligations.CsrWrites : Prop :=
  ∀ (s : State) (k : At) (rs1 rm : BitVec 5), Fresh s k.core → (s.core k.core).mode = k.core.low ∨ (s.core k.core).mode = k.core.trapMode →
    let c := s.core k.core
    let notU := c.mode != 0
    let top := c.mode == k.core.trapMode
    let puts (a : BitVec 12) (mayRead mayWrite : Bool) (old : BitVec 64) (keeps : BitVec 64 → Prop) (e : BitVec 64 → Core) : Prop :=
      let i := Instr.csrput k a rs1
      let j := Instr.csrputm k a rs1 rm
      let w := c.getX rs1
      let m := c.getX rm
      let v := (old &&& ~~~m) ||| (w &&& m)
      (mayWrite = true → keeps w → Completes s k.core i (e w)) ∧
      ((mayWrite = false ∨ ¬keeps w) → ∃ x, Raises s k.core i 0x01 x) ∧
      (mayRead = true → m = 0 → Completes s k.core j c) ∧
      (mayRead = true → m ≠ 0 → mayWrite = true → keeps v → Completes s k.core j (e v)) ∧
      ((mayRead = false ∨ (m ≠ 0 ∧ (mayWrite = false ∨ ¬keeps v))) → ∃ x, Raises s k.core j 0x01 x)
    let always (_ : BitVec 64) : Prop := True
    let eights (p b l : BitVec 64) : Prop :=
      p.toNat % 8 = 0 ∧ b.toNat % 8 = 0 ∧ l.toNat % 8 = 0 ∧ b.toNat ≤ p.toNat ∧ p.toNat ≤ l.toNat ∧
      l.toNat ≤ if k.core.isEc then 0x40000 else 0x100000
    puts 0x800 true notU c.vl (fun w => w.toNat * c.eb ≤ k.core.vlenb) (fun w => { c with vl := w }) ∧
    puts 0x801 true notU (c.sew.setWidth 64) (fun w => w.toNat < 4) (fun w => { c with sew := w.setWidth 2 }) ∧
    puts 0x802 true false (BitVec.ofNat 64 k.core.vlenb) always (fun _ => c) ∧
    puts 0x804 true true (c.fflags.setWidth 64) always (fun w => { c with fflags := w.setWidth 5 }) ∧
    puts 0x810 true true c.lcount0 always (fun w => { c with lcount0 := w }) ∧
    puts 0x811 true true c.lstart0 always (fun w => { c with lstart0 := w }) ∧
    puts 0x812 true true c.lend0 always (fun w => { c with lend0 := w }) ∧
    puts 0x813 true true c.lcount1 always (fun w => { c with lcount1 := w }) ∧
    puts 0x814 true true c.lstart1 always (fun w => { c with lstart1 := w }) ∧
    puts 0x815 true true c.lend1 always (fun w => { c with lend1 := w }) ∧
    puts 0x820 true false (if k.core.isEc then 0x101 else 0x102) always (fun _ => c) ∧
    puts 0x821 true false k.core.number always (fun _ => c) ∧ puts 0x830 true false c.cycle always (fun _ => c) ∧
    puts 0x831 true false s.time always (fun _ => c) ∧ puts 0x832 true false c.instret always (fun _ => c) ∧
    puts 0x840 true false c.itemOrigin always (fun _ => c) ∧ puts 0x841 true false c.itemCount always (fun _ => c) ∧
    puts 0xC01 top top c.cause always (fun w => { c with cause := w &&& 0x80000000000001FF }) ∧
    puts 0xC02 top top c.eval always (fun w => { c with eval := w }) ∧
    puts 0xC04 top top c.kentryPc always (fun w => { c with kentryPc := w }) ∧
    puts 0xC05 top top c.kentrySp always (fun w => { c with kentrySp := w }) ∧
    puts 0xC06 top top c.klinkPc always (fun w => { c with klinkPc := w }) ∧
    puts 0xC07 top top c.klinkStatus always (fun w => { c with klinkStatus := w }) ∧
    puts 0xC08 top top c.klinkVprog always (fun w => { c with klinkVprog := w }) ∧
    puts 0xC10 notU notU c.ssp (fun w => eights w c.ssbase c.sslimit) (fun w => { c with ssp := w }) ∧
    puts 0xC11 notU notU c.ssbase (fun w => eights c.ssp w c.sslimit) (fun w => { c with ssbase := w }) ∧
    puts 0xC12 notU notU c.sslimit (fun w => eights c.ssp c.ssbase w) (fun w => { c with sslimit := w }) ∧
    puts 0xC14 top top c.lssp (fun w => eights w c.lssbase c.lsslimit) (fun w => { c with lssp := w }) ∧
    puts 0xC15 top top c.lssbase (fun w => eights c.lssp w c.lsslimit) (fun w => { c with lssbase := w }) ∧
    puts 0xC16 top top c.lsslimit (fun w => eights c.lssp c.lssbase w) (fun w => { c with lsslimit := w }) ∧
    puts 0xC20 top top (c.inten.setWidth 64) always (fun w => { c with inten := w.setWidth 7 }) ∧
    puts 0xC21 notU false (c.ipend.setWidth 64) always (fun _ => c) ∧
    puts 0xC23 top top c.wdcnt always (fun w => { c with wdcnt := w }) ∧
    puts 0xC30 (!k.core.isEc && top) (!k.core.isEc && top) c.kbase always (fun w => { c with kbase := w }) ∧
    puts 0xC40 (k.core.isEc && top) false (c.kitem.extractLsb' 0 64) always (fun _ => c) ∧
    puts 0xC41 (k.core.isEc && top) false (c.kitem.extractLsb' 64 64) always (fun _ => c) ∧
    puts 0xC42 (k.core.isEc && top) false (c.kitem.extractLsb' 128 64) always (fun _ => c) ∧
    puts 0xC43 (k.core.isEc && top) false (c.kitem.extractLsb' 192 64) always (fun _ => c)

/-- A write of STATUS (14 R424, R432): MODE may stay or fall to the core's lower mode, GM may change, the reserved bits stay 0, and
MODE = U with GM = 1 is refused, as is every other value, with ILLEGAL and nothing written; with no enabled source pending the next
instruction runs under the new STATUS, and a change of mode brings that mode's shadow stack registers (14 R428). A write of MASKLIMIT
in F sets it for every core, from 256 to 1,048,576. -/
def Obligations.StatusAndMaskLimitWrites : Prop :=
  ∀ (s : State) (k : At) (rs1 : BitVec 5), Fresh s k.core →
    let c := s.core k.core
    let w := c.getX rs1
    let m : BitVec 2 := w.setWidth 2
    let legal : Prop := c.mode ≠ 0 ∧ w.toNat < 8 ∧ (m = k.core.low ∨ m = k.core.trapMode) ∧ m.toNat ≤ c.mode.toNat ∧
      ¬(m = 0 ∧ w.getLsbD 2 = true)
    (c.mode = k.core.low ∨ c.mode = k.core.trapMode) →
    (legal → c.ipend &&& c.inten = 0 → c.wdcnt = 0 →
      Completes s k.core (.csrput k 0xC00 rs1)
        (if m = c.mode then { c with gm := w.getLsbD 2 }
        else { c with
          mode := m, gm := w.getLsbD 2
          ssp := c.lssp, ssbase := c.lssbase, sslimit := c.lsslimit, lssp := c.ssp, lssbase := c.ssbase, lsslimit := c.sslimit })) ∧
    (¬legal → ∃ x, Raises s k.core (.csrput k 0xC00 rs1) 0x01 x) ∧
    (c.mode = 2 → 256 ≤ w.toNat → w.toNat ≤ 1048576 →
      CompletesWith (fun s t j => OnlyCore { s with cores := { s.cores with masklimit := w } } t j) s k.core (.csrput k 0xC22 rs1) c) ∧
    (c.mode ≠ 2 ∨ w.toNat < 256 ∨ 1048576 < w.toNat → ∃ x, Raises s k.core (.csrput k 0xC22 rs1) 0x01 x)

/-! ### Modes, traps and waiting (14 R425-R427, R431, R423) -/

/-- CALLK is a trap with cause KCALL and EPC past it, from the lower mode alone; RETK in the trap mode restores STATUS, VPROG and PC
from the link, and trades x30 with KENTRY_SP where the mode changes, or raises ILLEGAL where KLINK_STATUS names a mode the core lacks or
U with GM = 1; BREAK raises BREAK; FENCE completes; WFE, not in U, completes and waits until an enabled source is pending. -/
def Obligations.ModesAndWaiting : Prop :=
  ∀ (s : State) (k : At), Fresh s k.core → (s.core k.core).atLend (s.core k.core).pc = false →
    let c := s.core k.core
    let m : BitVec 2 := c.klinkStatus.setWidth 2
    let gm := c.klinkStatus.getLsbD 2
    let returns : Prop := c.mode = k.core.trapMode ∧ (m = k.core.low ∨ m = k.core.trapMode) ∧ ¬(m = 0 ∧ gm = true)
    let trades : Core := { (c.setX 30 c.kentrySp) with
      kentrySp := c.getX 30, mode := m
      ssp := c.lssp, ssbase := c.lssbase, sslimit := c.lsslimit, lssp := c.ssp, lssbase := c.ssbase, lsslimit := c.sslimit }
    (if c.mode = k.core.low then ∃ e, Trapped k.core c e 0x09 0 (c.pc + 4) ∧ Jumps s k.core (.callk k) e
      else ∃ x, Raises s k.core (.callk k) 0x01 x) ∧
    (returns → (gm = true ∨ (c.ipend &&& c.inten = 0 ∧ c.wdcnt = 0)) →
      Jumps s k.core (.retk k) { (if m = c.mode then c else trades) with gm := gm, vprog := c.klinkVprog, pc := pcOf c.klinkPc }) ∧
    (¬returns → ∃ x, Raises s k.core (.retk k) 0x01 x) ∧
    Raises s k.core (.brk k) 0x08 0 ∧
    Completes s k.core (.fence k) c ∧
    (if c.mode ≠ 0 then Completes s k.core (.wfe k) { c with waiting := decide (c.ipend &&& c.inten = 0) }
      else ∃ x, Raises s k.core (.wfe k) 0x01 x)

/-- Before any instruction: a core that is halted or waits does nothing; a U-mode fetch at the address where a kernel item ends raises
KRET, a fetch out of the mode's reach ACCESS with the address, a word of a kernel's code that is no instruction ILLEGAL with that word,
and VPROG other than 0 before an instruction that is not resumable ILLEGAL with its word; said of ADD. -/
def Obligations.FetchChecks : Prop :=
  ∀ (s : State) (k : At) (rd rs1 rs2 : BitVec 5),
    let c := s.core k.core
    let i := Instr.add k rd rs1 rs2
    let ends : Prop := c.mode = 0 ∧ c.pc = 0xFFFFFFFFFFFFFFF0
    ((c.halted = true ∨ c.waiting = true) → exec i s = .next { s with free := s.free + 1 }) ∧
    (c.halted = false → c.waiting = false →
      (ends → Raises s k.core i 0x0A 0) ∧
      (¬ends → c.mayFetch k.core c.pc.toNat = false → Raises s k.core i 0x02 c.pc) ∧
      (∀ w, ¬ends → c.mayFetch k.core c.pc.toNat = true → c.strayWord k.core = some w → Raises s k.core i 0x01 (w.setWidth 64)) ∧
      (¬ends → c.mayFetch k.core c.pc.toNat = true → c.strayWord k.core = none → c.vprog ≠ 0 →
        Raises s k.core i 0x01 (BitVec.ofNat 64 (0x01 + 2 ^ 7 * rd.toNat + 2 ^ 12 * rs1.toNat + 2 ^ 17 * rs2.toNat))))

/-- What a mode reaches (14 R423): as data, to read and to write, and to fetch. -/
def Obligations.ModesReach : Prop :=
  ∀ (c : Core) (k : CoreId) (a : Nat) (write : Bool), c.mode = k.low ∨ c.mode = k.trapMode →
    let scratch := if k.isEc then a < 0x40000 else a < 0x100000
    let code := k.isEc = true ∧ c.item.isSome = true ∧ 0x100000000 ≤ a ∧ a < 0x100000000 + c.code.length
    let ls := 0x200000000 ≤ a ∧ a ≤ 0x20BFFFFFF
    let runtime := k.isEc = true ∧ 0x300000000 ≤ a ∧ a ≤ 0x30007FFFF
    let pool := 0x100000000000 ≤ a ∧ a ≤ 0x15FFFFFFFFFF
    let device := 0x20000000000 ≤ a ∧ a ≤ 0x20000FFFFFF
    c.code.length ≤ 0x100000000 →
    (c.mayData k write a = true ↔
      match c.mode.toNat, k.isEc with
      | 0, _ => scratch ∧ a < 1024 * c.scratchKib
      | 1, true => scratch ∨ (write = false ∧ (code ∨ runtime)) ∨ ls
      | 1, false => (scratch ∧ c.kbase.toNat ≤ a) ∨ ls
      | _, _ => scratch ∨ ls ∨ pool ∨ device) ∧
    (c.mayFetch k a = true ↔
      match c.mode.toNat, k.isEc with
      | 0, _ => code
      | 1, true => runtime
      | 1, false => scratch ∧ c.kbase.toNat ≤ a
      | _, _ => scratch)

/-- The arithmetic of R405: a result that is a NaN is the canonical quiet NaN; a compare with a NaN is false; FMIN and FMAX give the
operand that is no NaN; a NaN becomes the integer 0. -/
def Obligations.FloatingPointNaNs : Prop :=
  ∀ (d : Prec) (a b c : Nat), a < 2 * d.fmt.signBit → b < 2 * d.fmt.signBit →
    let f := d.fmt
    let quiet := match d with | .single => 0x7FC00000 | .double => 0x7FF8000000000000
    let canonical (n : Nat) : Prop := (f.unpack n).isNan = true → n = quiet
    canonical (f.add a b).1 ∧ canonical (f.sub a b).1 ∧ canonical (f.mul a b).1 ∧ canonical (f.div a b).1 ∧
    canonical (f.sqrt a).1 ∧ canonical (f.fma a b c).1 ∧ canonical (f.convert (otherPrec d).fmt c).1 ∧
    ((f.unpack a).isNan = true ∨ (f.unpack b).isNan = true → ∀ p, (f.compare p a b).1 = false) ∧
    (∀ m, (f.unpack a).isNan = true → (f.unpack b).isNan = false → (f.minMax m a b).1 = b ∧ (f.minMax m b a).1 = b) ∧
    ((f.unpack a).isNan = true → ∀ w, (f.toInt w a).1 = 0)

/-- The scalar FP instructions: fd or rd takes the result, rounded once, FFLAGS keeps its flags and gains those of the operation. -/
def Obligations.ScalarFloatingPointResults : Prop :=
  ∀ (s : State) (k : At) (d : Prec) (r1 r2 r3 : BitVec 5), Fresh s k.core →
    let c := s.core k.core
    let f := d.fmt
    let a := c.getF d r2
    let b := c.getF d r3
    let toF (i : Instr) (r : Nat × BitVec 5) : Prop :=
      Completes s k.core i { (c.setF d r1 r.1) with fflags := c.fflags ||| r.2 }
    let toX (i : Instr) (w : BitVec 64) (fl : BitVec 5) : Prop :=
      Completes s k.core i { (c.setX r1 w) with fflags := c.fflags ||| fl }
    let holds (i : Instr) (r : Bool × BitVec 5) : Prop := toX i (if r.1 then 1 else 0) r.2
    toF (.fadd k d r1 r2 r3) (f.add a b) ∧ toF (.fsub k d r1 r2 r3) (f.sub a b) ∧ toF (.fmul k d r1 r2 r3) (f.mul a b) ∧
    toF (.fdiv k d r1 r2 r3) (f.div a b) ∧ toF (.fsqrt k d r1 r2) (f.sqrt a) ∧
    toF (.fmin k d r1 r2 r3) (f.minMax false a b) ∧ toF (.fmax k d r1 r2 r3) (f.minMax true a b) ∧
    toF (.fmacc k d r1 r2 r3) (f.fma a b (c.getF d r1)) ∧
    holds (.feq k d r1 r2 r3) (f.compare .eq a b) ∧ holds (.flt k d r1 r2 r3) (f.compare .lt a b) ∧
    holds (.fle k d r1 r2 r3) (f.compare .le a b) ∧
    toX (.fcvtxf k d r1 r2) (BitVec.ofNat 64 (f.toInt 64 a).1) (f.toInt 64 a).2 ∧
    toF (.fcvtfx k d r1 r2) (f.ofInt (c.getX r2).toInt) ∧
    toX (.fmvxf k d r1 r2) (match d with | .single => (BitVec.ofNat 32 a).signExtend 64 | .double => BitVec.ofNat 64 a) 0 ∧
    toF (.fmvfx k d r1 r2) ((c.getX r2).toNat, 0) ∧
    toF (.fcvtp k d r1 r2) (f.convert (otherPrec d).fmt (c.getF (otherPrec d) r2))

/-! ### Vector instructions (13 R401-R405, R407; 14 R441-R443) -/

/-- VADD to VMACC from VPROG on: every active element takes the result of its kind modulo its width, an inactive one is left or, with
Z, cleared, an element at or past VL is left, no other register changes; a vf form is ILLEGAL. -/
def Obligations.VectorIntegerResults : Prop :=
  ∀ (s : State) (k : At) (vd vs1 : BitVec 5) (s2 : VSrc) (pg : BitVec 3) (z : Bool), Ready s k.core → k.stop = none →
    let c := s.core k.core
    let w := 8 * 2 ^ c.sew.toNat
    let old (j : Nat) : Nat := lane c.sew (c.getV vd) j
    let a (j : Nat) : Nat := lane c.sew (c.getV vs1) j
    let b (shift : Bool) (j : Nat) : Nat := match s2 with
      | .vv r => lane c.sew (c.getV r) j
      | .vx r => (c.getX r).toNat % 2 ^ w
      | .vi n => if shift then n.toNat else (BitVec.ofInt w n.toInt).toNat
      | .vf _ => 0
    let int (n : Nat) : Int := (BitVec.ofNat w n).toInt
    let does (i : Instr) (f : Nat → Int) : Prop :=
      if s2.isVf then ∃ x, Raises s k.core i 0x01 x
      else ∃ e, Completes s k.core i e ∧ e = { c with v := e.v } ∧ (∀ r, r ≠ vd → e.getV r = c.getV r) ∧
        LanesWritten c k.core pg z (c.getV vd) (e.getV vd) (fun j => BitVec.toNat (BitVec.ofInt w (f j)))
    does (.vadd k vd vs1 s2 pg z) (fun j => a j + b false j) ∧ does (.vsub k vd vs1 s2 pg z) (fun j => (a j : Int) - b false j) ∧
    does (.vand k vd vs1 s2 pg z) (fun j => (a j &&& b false j : Nat)) ∧ does (.vor k vd vs1 s2 pg z) (fun j => (a j ||| b false j : Nat)) ∧
    does (.vxor k vd vs1 s2 pg z) (fun j => (a j ^^^ b false j : Nat)) ∧
    does (.vsll k vd vs1 s2 pg z) (fun j => a j * 2 ^ (b true j % w)) ∧
    does (.vsrl k vd vs1 s2 pg z) (fun j => (a j / 2 ^ (b true j % w) : Nat)) ∧
    does (.vsra k vd vs1 s2 pg z) (fun j => int (a j) / 2 ^ (b true j % w)) ∧
    does (.vmul k vd vs1 s2 pg z) (fun j => a j * b false j) ∧
    does (.vmulh k vd vs1 s2 pg z) (fun j => int (a j) * int (b false j) / 2 ^ w) ∧
    does (.vmin k vd vs1 s2 pg z) (fun j => Min.min (int (a j)) (int (b false j))) ∧
    does (.vmax k vd vs1 s2 pg z) (fun j => Max.max (int (a j)) (int (b false j))) ∧
    does (.vminu k vd vs1 s2 pg z) (fun j => (Min.min (a j) (b false j) : Nat)) ∧
    does (.vmaxu k vd vs1 s2 pg z) (fun j => (Max.max (a j) (b false j) : Nat)) ∧
    does (.vsaddu k vd vs1 s2 pg z) (fun j => (Min.min (a j + b false j) (2 ^ w - 1) : Nat)) ∧
    does (.vmacc k vd vs1 s2 pg z) (fun j => old j + a j * b false j)

/-- VFADD to VFNEG and VMV: the elements as above; FP with SEW 0 or 1 is ILLEGAL, and so is a vx or vi form of an FP instruction. -/
def Obligations.VectorFloatingPointAndMoves : Prop :=
  ∀ (s : State) (k : At) (vd vs1 : BitVec 5) (s2 : VSrc) (pg : BitVec 3) (z : Bool), Ready s k.core → k.stop = none →
    let c := s.core k.core
    let m := if c.sew = 2 then f32 else f64
    let w := 8 * 2 ^ c.sew.toNat
    let old (j : Nat) : Nat := lane c.sew (c.getV vd) j
    let a (j : Nat) : Nat := lane c.sew (c.getV vs1) j
    let b (j : Nat) : Nat := match s2 with
      | .vv r => lane c.sew (c.getV r) j
      | .vf r => lane c.sew (c.getV r) 0
      | .vx r => (c.getX r).toNat % 2 ^ w
      | .vi n => (BitVec.ofInt w n.toInt).toNat
    let done (i : Instr) (f : Nat → Nat × BitVec 5) : Prop :=
      ∃ e, Completes s k.core i e ∧ e = { c with v := e.v, fflags := e.fflags } ∧ (∀ r, r ≠ vd → e.getV r = c.getV r) ∧
        LanesWritten c k.core pg z (c.getV vd) (e.getV vd) (fun j => (f j).1) ∧ FlagsGained c k.core pg e.fflags (fun j => (f j).2)
    let does1 (i : Instr) (f : Nat → Nat × BitVec 5) : Prop :=
      if c.vl ≠ 0 ∧ c.sew.toNat < 2 then ∃ x, Raises s k.core i 0x01 x else done i f
    let does2 (i : Instr) (f : Nat → Nat × BitVec 5) : Prop :=
      if s2.isVx ∨ s2.isVi then ∃ x, Raises s k.core i 0x01 x else does1 i f
    does2 (.vfadd k vd vs1 s2 pg z) (fun j => m.add (a j) (b j)) ∧ does2 (.vfsub k vd vs1 s2 pg z) (fun j => m.sub (a j) (b j)) ∧
    does2 (.vfmul k vd vs1 s2 pg z) (fun j => m.mul (a j) (b j)) ∧ does2 (.vfdiv k vd vs1 s2 pg z) (fun j => m.div (a j) (b j)) ∧
    does2 (.vfmin k vd vs1 s2 pg z) (fun j => m.minMax false (a j) (b j)) ∧
    does2 (.vfmax k vd vs1 s2 pg z) (fun j => m.minMax true (a j) (b j)) ∧
    does2 (.vfmacc k vd vs1 s2 pg z) (fun j => m.fma (a j) (b j) (old j)) ∧
    does2 (.vfnmsac k vd vs1 s2 pg z) (fun j => m.fma (m.negate (a j)) (b j) (old j)) ∧
    does1 (.vfsqrt k vd vs1 pg z) (fun j => m.sqrt (a j)) ∧ does1 (.vfcvtxf k vd vs1 pg z) (fun j => m.toInt w (a j)) ∧
    does1 (.vfcvtfx k vd vs1 pg z) (fun j => m.ofInt (BitVec.ofNat w (a j)).toInt) ∧
    does1 (.vfabs k vd vs1 pg z) (fun j => (m.absVal (a j), 0)) ∧ does1 (.vfneg k vd vs1 pg z) (fun j => (m.negVal (a j), 0)) ∧
    done (.vmv k vd s2 pg z) (fun j => (b j, 0))

/-- The compares and predicate logic: a compare writes every bit of an active element's place in pd, leaves or, with Z, clears an
inactive one's, and leaves the bits at and past VL (R403); pd 0, or a field of a predicate above 7, is ILLEGAL; PAND, POR and PANDN
work on all bits, unless VL is 0. -/
def Obligations.CompareAndPredicateResults : Prop :=
  ∀ (s : State) (k : At) (pd vs1 ps2 : BitVec 5) (s2 : VSrc) (pg : BitVec 3) (z : Bool), Ready s k.core → k.stop = none →
    let c := s.core k.core
    let m := if c.sew = 2 then f32 else f64
    let w := 8 * 2 ^ c.sew.toNat
    let eb := 2 ^ c.sew.toNat
    let p : BitVec 3 := pd.setWidth 3
    let a (j : Nat) : Nat := lane c.sew (c.getV vs1) j
    let b (j : Nat) : Nat := match s2 with
      | .vv r => lane c.sew (c.getV r) j
      | .vf r => lane c.sew (c.getV r) 0
      | .vx r => (c.getX r).toNat % 2 ^ w
      | .vi n => (BitVec.ofInt w n.toInt).toNat
    let int (n : Nat) : Int := (BitVec.ofNat w n).toInt
    let named (q : BitVec 5) : Prop := 0 < q.toNat ∧ q.toNat < 8
    let done (i : Instr) (f : Nat → Bool × BitVec 5) : Prop :=
      ∃ e, Completes s k.core i e ∧ e = { c with p := e.p, fflags := e.fflags } ∧ (∀ r, r ≠ p → e.getP k.core r = c.getP k.core r) ∧
        FlagsGained c k.core pg e.fflags (fun j => (f j).2) ∧
        ∀ n, n < 256 → (e.getP k.core p).getLsbD n =
          (if n / eb < c.vprog.toNat ∨ ¬(n / eb < c.vl.toNat ∧ (n / eb) * eb < k.core.vlenb) then (c.getP k.core p).getLsbD n
          else if (c.getP k.core pg).getLsbD (n / eb * eb) then (f (n / eb)).1
          else if z then false else (c.getP k.core p).getLsbD n)
    let compares (i : Instr) (f : Nat → Nat → Bool) : Prop :=
      if s2.isVf = true ∨ ¬named pd then ∃ x, Raises s k.core i 0x01 x else done i fun j => (f (a j) (b j), 0)
    let fpCompares (i : Instr) (q : FCmp) : Prop :=
      if s2.isVx ∨ s2.isVi ∨ (c.vl ≠ 0 ∧ c.sew.toNat < 2) ∨ ¬named pd then ∃ x, Raises s k.core i 0x01 x
      else done i fun j => m.compare q (a j) (b j)
    let logic (i : Instr) (f : Bool → Bool → Bool) : Prop :=
      if ¬named pd ∨ 8 ≤ vs1.toNat ∨ 8 ≤ ps2.toNat then ∃ x, Raises s k.core i 0x01 x
      else if c.vl = 0 then Completes s k.core i c
      else ∃ e, Completes s k.core i e ∧ e = { c with p := e.p } ∧ (∀ r, r ≠ p → e.getP k.core r = c.getP k.core r) ∧
        ∀ n, n < 256 → (e.getP k.core p).getLsbD n =
          f ((c.getP k.core (vs1.setWidth 3)).getLsbD n) ((c.getP k.core (ps2.setWidth 3)).getLsbD n)
    compares (.vceq k pd vs1 s2 pg z) (fun x y => x == y) ∧ compares (.vcne k pd vs1 s2 pg z) (fun x y => x != y) ∧
    compares (.vclt k pd vs1 s2 pg z) (fun x y => decide (int x < int y)) ∧
    compares (.vcle k pd vs1 s2 pg z) (fun x y => decide (int x ≤ int y)) ∧
    compares (.vcltu k pd vs1 s2 pg z) (fun x y => decide (x < y)) ∧ compares (.vcleu k pd vs1 s2 pg z) (fun x y => decide (x ≤ y)) ∧
    compares (.vcgt k pd vs1 s2 pg z) (fun x y => decide (int y < int x)) ∧
    compares (.vcgtu k pd vs1 s2 pg z) (fun x y => decide (y < x)) ∧
    fpCompares (.vfceq k pd vs1 s2 pg z) .eq ∧ fpCompares (.vfclt k pd vs1 s2 pg z) .lt ∧ fpCompares (.vfcle k pd vs1 s2 pg z) .le ∧
    logic (.pand k pd vs1 ps2) (fun x y => x && y) ∧ logic (.por k pd vs1 ps2) (fun x y => x || y) ∧
    logic (.pandn k pd vs1 ps2) (fun x y => x && !y)

/-- SETVL and SETVLMAX: SEW is set, VL and rd take the least of the length asked for and VLMAX (13 R401, `setvl`). -/
def Obligations.VectorLengthIsSet : Prop :=
  ∀ (s : State) (k : At) (rd rs1 : BitVec 5) (sew : BitVec 2), Fresh s k.core →
    let c := s.core k.core
    let vlmax := k.core.vlenb / 2 ^ sew.toNat
    let sets (n : Nat) : Core := { (c.setX rd (BitVec.ofNat 64 n)) with sew := sew, vl := BitVec.ofNat 64 n }
    Completes s k.core (.setvl k rd rs1 sew) (sets (Min.min (c.getX rs1).toNat vlmax)) ∧
    Completes s k.core (.setvlmax k rd sew) (sets vlmax)

/-- VCOMPRESS, the slides, VGATHER, VEXT and VINS (13, Vector); a destination that is a source is ILLEGAL, as is a form not listed;
with VL 0 none has an effect. -/
def Obligations.VectorPermutes : Prop :=
  ∀ (s : State) (k : At) (vd vs1 rs : BitVec 5) (s2 : VSrc) (pg : BitVec 3) (z : Bool), Ready s k.core → k.stop = none →
    let c := s.core k.core
    let w := 8 * 2 ^ c.sew.toNat
    let vlmax := k.core.vlenb / 2 ^ c.sew.toNat
    let from_ (j : Nat) : Nat := lane c.sew (c.getV vs1) j
    let n : Nat := match s2 with
      | .vx r => (c.getX r).toNat % 2 ^ w
      | .vi m => (BitVec.ofInt w m.toInt).toNat
      | _ => 0
    let idx (j : Nat) : Nat := lane c.sew (c.getV rs) j
    let act (j : Nat) : Bool := decide (j < c.vl.toNat) && decide (j < vlmax) && (c.getP k.core pg).getLsbD (j * 2 ^ c.sew.toNat)
    let packed (j : Nat) : Nat := ((List.range j).filter act).length
    let only (i : Instr) (e : Core) : Prop := Completes s k.core i e ∧ e = { c with v := e.v } ∧ ∀ r, r ≠ vd → e.getV r = c.getV r
    let illegal (i : Instr) : Prop := ∃ x, Raises s k.core i 0x01 x
    let slides (i : Instr) (f : Nat → Nat) : Prop :=
      if vd = vs1 ∨ s2.isVv ∨ s2.isVf then illegal i
      else ∃ e, only i e ∧ LanesWritten c k.core pg z (c.getV vd) (e.getV vd) f
    slides (.vslidedn k vd vs1 s2 pg z) (fun j => if j + n < vlmax then from_ (j + n) else 0) ∧
    slides (.vslideup k vd vs1 s2 pg z) (fun j => if n ≤ j then from_ (j - n) else lane c.sew (c.getV vd) j) ∧
    (if vd = vs1 ∨ vd = rs then illegal (.vgather k vd vs1 rs pg z)
      else ∃ e, only (.vgather k vd vs1 rs pg z) e ∧
        LanesWritten c k.core pg z (c.getV vd) (e.getV vd) (fun j => if idx j < vlmax then from_ (idx j) else 0)) ∧
    (if vd = vs1 then illegal (.vcompress k vd vs1 pg z)
      else ∃ e, only (.vcompress k vd vs1 pg z) e ∧
        (∀ j, c.vprog.toNat ≤ j → act j = true → lane c.sew (e.getV vd) (packed j) = from_ j) ∧
        (∀ j, packed vlmax ≤ j → j < vlmax → j < c.vl.toNat →
          lane c.sew (e.getV vd) j = if z then 0 else lane c.sew (c.getV vd) j) ∧
        (∀ j, j < packed c.vprog.toNat → lane c.sew (e.getV vd) j = lane c.sew (c.getV vd) j) ∧
        ∀ j, c.vl.toNat ≤ j → (j + 1) * 2 ^ c.sew.toNat ≤ 256 → lane c.sew (e.getV vd) j = lane c.sew (c.getV vd) j) ∧
    (if s2.isVv ∨ s2.isVf then illegal (.vext k vd vs1 s2)
      else Completes s k.core (.vext k vd vs1 s2)
        (if c.vl = 0 then c
        else c.setX vd (if n < vlmax then BitVec.ofInt 64 (BitVec.ofNat w (from_ n)).toInt else 0))) ∧
    (if s2.isVv ∨ s2.isVf then illegal (.vins k vd rs s2)
      else ∃ e, only (.vins k vd rs s2) e ∧ ∀ j, (j + 1) * 2 ^ c.sew.toNat ≤ 256 →
        lane c.sew (e.getV vd) j =
          if c.vl ≠ 0 ∧ n < vlmax ∧ j = n then (c.getX rs).toNat % 2 ^ w else lane c.sew (c.getV vd) j)

/-- VREDSUM, VREDMIN, VREDMAX and VFREDSUM write element 0 of vd alone; PCNT and PFIRST read a predicate (13, Vector). -/
def Obligations.ReductionsAndCounts : Prop :=
  ∀ (s : State) (k : At) (vd vs1 : BitVec 5) (pg : BitVec 3) (z : Bool), Ready s k.core → (s.core k.core).vl ≠ 0 →
    let c := s.core k.core
    let w := 8 * 2 ^ c.sew.toNat
    let vlmax := k.core.vlenb / 2 ^ c.sew.toNat
    let below : List Nat := (List.range vlmax).filter fun j => decide (j < c.vl.toNat)
    let vals : List Nat :=
      (below.filter fun j => (c.getP k.core pg).getLsbD (j * 2 ^ c.sew.toNat)).map fun j => lane c.sew (c.getV vs1) j
    let int (n : Nat) : Int := (BitVec.ofNat w n).toInt
    let m := if c.sew = 2 then f32 else f64
    let leaves (i : Instr) (P : Nat → Prop) (flags : BitVec 5) : Prop :=
      ∃ e, Completes s k.core i e ∧ e = { c with v := e.v, fflags := c.fflags ||| flags } ∧ (∀ r, r ≠ vd → e.getV r = c.getV r) ∧
        (∀ j, 0 < j → (j + 1) * 2 ^ c.sew.toNat ≤ 256 → lane c.sew (e.getV vd) j = lane c.sew (c.getV vd) j) ∧
        P (lane c.sew (e.getV vd) 0)
    let fp := vals.foldl (fun (t : Nat × BitVec 5) x => ((m.add t.1 x).1, t.2 ||| (m.add t.1 x).2)) (0, 0)
    let set : List Nat := below.filter fun j => (c.getP k.core (vs1.setWidth 3)).getLsbD (j * 2 ^ c.sew.toNat)
    leaves (.vredsum k vd vs1 pg z) (fun r => r = vals.sum % 2 ^ w) 0 ∧
    leaves (.vredmin k vd vs1 pg z) (fun r => if vals = [] then r = 0 else r ∈ vals ∧ ∀ x ∈ vals, int r ≤ int x) 0 ∧
    leaves (.vredmax k vd vs1 pg z) (fun r => if vals = [] then r = 0 else r ∈ vals ∧ ∀ x ∈ vals, int x ≤ int r) 0 ∧
    (if c.sew.toNat < 2 then ∃ x, Raises s k.core (.vfredsum k vd vs1 pg z) 0x01 x
      else leaves (.vfredsum k vd vs1 pg z) (fun r => r = fp.1) fp.2) ∧
    (if 8 ≤ vs1.toNat then ∃ x, Raises s k.core (.pcnt k vd vs1 pg z) 0x01 x
      else Completes s k.core (.pcnt k vd vs1 pg z) (c.setX vd (BitVec.ofNat 64 set.length))) ∧
    (if 8 ≤ vs1.toNat then ∃ x, Raises s k.core (.pfirst k vd vs1 pg z) 0x01 x
      else Completes s k.core (.pfirst k vd vs1 pg z)
        (c.setX vd (match set with | [] => BitVec.allOnes 64 | j :: _ => BitVec.ofNat 64 j)))

/-- VLD, VST, VLDA and VSTA where the mode reaches every active element from VPROG on: a load writes the elements and no memory; a
store writes the bytes of the active elements and no other; the A forms advance rs1 by VL elements (13 R407, `vmem`). -/
def Obligations.VectorLoadsAndStores : Prop :=
  ∀ (s : State) (k : At) (vt rs1 : BitVec 5) (pg : BitVec 3) (z : Bool), Ready s k.core → k.stop = none →
    let c := s.core k.core
    let eb := 2 ^ c.sew.toNat
    let base := c.getX rs1
    let at_ (j : Nat) : BitVec 64 := base + BitVec.ofNat 64 (j * eb)
    let act (j : Nat) : Bool := (decide (c.vprog.toNat ≤ j) && decide (j < c.vl.toNat) && decide ((j + 1) * eb ≤ k.core.vlenb)) &&
      (c.getP k.core pg).getLsbD (j * eb)
    let reached (write : Bool) : Prop := ∀ j, act j = true → c.access k.core k.ue write (at_ j) eb = .ok
    let moved (adv : Bool) (d : Core) : Core := if adv = true ∧ c.vl ≠ 0 then d.setX rs1 (base + BitVec.ofNat 64 (c.vl.toNat * eb)) else d
    let loads (i : Instr) (adv : Bool) : Prop :=
      reached false → ∃ e, Completes s k.core i (moved adv e) ∧ e = { c with v := e.v } ∧ (∀ r, r ≠ vt → e.getV r = c.getV r) ∧
        LanesWritten c k.core pg z (c.getV vt) (e.getV vt)
          (fun j => leNat ((List.range eb).map fun n => s.byteIn k.core c (((at_ j).toNat + n) % 2 ^ 64)))
    let stores (i : Instr) (adv : Bool) : Prop :=
      reached true → ∃ t e, exec i s = .next t ∧ CompletesWith OnlyCoreAndMemory s k.core i (moved adv e) ∧
        e = { c with scratch := (t.core k.core).scratch } ∧
        (∀ j, act j = true → ∀ n, n < eb →
          t.byteIn k.core (t.core k.core) (((at_ j).toNat + n) % 2 ^ 64) = BitVec.ofNat 8 (lane c.sew (c.getV vt) j / 256 ^ n)) ∧
        ∀ b, (∀ j, act j = true → ∀ n, n < eb → b ≠ ((at_ j).toNat + n) % 2 ^ 64) →
          t.byteIn k.core (t.core k.core) b = s.byteIn k.core c b
    loads (.vld k vt rs1 pg z) false ∧ loads (.vlda k vt rs1 pg z) true ∧
    stores (.vst k vt rs1 pg z) false ∧ stores (.vsta k vt rs1 pg z) true

/-- SCOPY where the mode reaches both regions from byte VPROG on: it completes; where the regions do not overlap, every byte of the
destination from VPROG on reads as the source did; no byte outside the destination changes (13 R411, `scopy`). -/
def Obligations.ScopyCopiesBytes : Prop :=
  ∀ (s : State) (k : At) (rd rs1 rs2 : BitVec 5), Ready s k.core → k.stop = none →
    let c := s.core k.core
    let len := (c.getX rs2).toNat
    let dst := c.getX rd
    let src := c.getX rs1
    dst.toNat + len ≤ 2 ^ 64 → src.toNat + len ≤ 2 ^ 64 →
    (∀ j, c.vprog.toNat ≤ j → j < len →
      c.access k.core k.ue false (src + BitVec.ofNat 64 j) 1 = .ok ∧ c.access k.core k.ue true (dst + BitVec.ofNat 64 j) 1 = .ok) →
    ∃ t e, exec (.scopy k rd rs1 rs2) s = .next t ∧ CompletesWith OnlyCoreAndMemory s k.core (.scopy k rd rs1 rs2) e ∧
      e = { c with scratch := (t.core k.core).scratch } ∧
      (dst.toNat + len ≤ src.toNat ∨ src.toNat + len ≤ dst.toNat →
        ∀ j, c.vprog.toNat ≤ j → j < len →
          t.byteIn k.core (t.core k.core) (dst.toNat + j) = s.byteIn k.core c (src.toNat + j)) ∧
      ∀ b, ¬(dst.toNat + c.vprog.toNat ≤ b ∧ b < dst.toNat + len) → t.byteIn k.core (t.core k.core) b = s.byteIn k.core c b

/-- Inside a vector instruction, said of VADD and VLD (14 R438, R442, R443): an interrupt taken at the boundary of an element group
leaves the elements below it done, and the link names the instruction and the elements done; a fault at an element does the same, and
the elements from it on are as they were. -/
def Obligations.VectorTrapsKeepProgress : Prop :=
  ∀ (s : State) (k : At) (vd vs1 r : BitVec 5) (pg : BitVec 3) (z : Bool) (n : Nat), Ready s k.core →
    let c := s.core k.core
    let eb := 2 ^ c.sew.toNat
    let upto (f : Nat → Nat) (d : Core) : Prop :=
      d = { c with v := d.v, vprog := BitVec.ofNat 64 n } ∧ (∀ q, q ≠ vd → d.getV q = c.getV q) ∧
      LanesWritten { c with vl := BitVec.ofNat 64 n } k.core pg z (c.getV vd) (d.getV vd) f
    let base := c.getX vs1
    let at_ (j : Nat) : BitVec 64 := base + BitVec.ofNat 64 (j * eb)
    let act (j : Nat) : Bool := (c.getP k.core pg).getLsbD (j * eb)
    c.vprog.toNat ≤ n → n < c.vl.toNat → (n + 1) * eb ≤ k.core.vlenb →
    (∀ a, c.takeable k.core = some a → a ≠ .mcheck → k.stop = some (BitVec.ofNat 64 n) → c.vprog.toNat < n → n % (64 / eb) = 0 →
      ∃ t d e, exec (.vadd k vd vs1 (.vv r) pg z) s = .next t ∧ OnlyCore s t k.core ∧
        upto (fun j => (lane c.sew (c.getV vs1) j + lane c.sew (c.getV r) j) % 2 ^ (8 * eb)) d ∧
        Trapped k.core { d with ipend := c.ipend &&& ~~~(1#7 <<< a.bit), ievals := AMap.erase c.ievals a } e
          (BitVec.ofNat 64 (2 ^ 63 + 0x20 + a.bit)) (AMap.get c.ievals a 0) c.pc ∧ Elapsed e (t.core k.core)) ∧
    (k.stop = none → (∀ j, c.vprog.toNat ≤ j → j < n → act j = true → c.access k.core k.ue false (at_ j) eb = .ok) →
      act n = true → c.access k.core k.ue false (at_ n) eb = .denied →
      ∃ t d e, exec (.vld k vd vs1 pg z) s = .next t ∧ OnlyCore s t k.core ∧
        upto (fun j => leNat ((List.range eb).map fun i => s.byteIn k.core c (((at_ j).toNat + i) % 2 ^ 64))) d ∧
        Trapped k.core d e 0x02 (at_ n) c.pc ∧ Elapsed e (t.core k.core))

/-- A source that becomes pending (14 R435, R438): it is taken at once where GM is 0, it is enabled and no higher one can be taken, or
where it is MASKTO; the core traps with the cause 0x20 + its bit, its value and EPC its PC, and a waiting core goes on; else it stays
pending. The watchdog's end (R439) makes WDOG pending and no more. -/
def Obligations.InterruptsAndWatchdog : Prop :=
  ∀ (s : State) (k : CoreId) (a : AsyncSrc) (eval : BitVec 64),
    let c := s.core k
    let p : Core := { c with
      ipend := c.ipend ||| (1#7 <<< a.bit), ievals := AMap.insert c.ievals a eval
      waiting := c.waiting && !(c.inten.getLsbD a.bit) }
    let i := Instr.interrupt k (some (a, eval))
    (a.on k = false → c.ipend &&& c.inten = 0 → exec i s = .next s) ∧
    (a.on k = true → c.halted = false → a ≠ .mcheck → (c.gm = false ∨ a = .maskto) → c.inten.getLsbD a.bit = true →
      c.ipend &&& c.inten = 0 →
      ∃ t d, exec i s = .next t ∧ OnlyCore s t k ∧
        Trapped k { c with waiting := false, ievals := AMap.erase p.ievals a, ipend := p.ipend &&& ~~~(1#7 <<< a.bit) } d
          (BitVec.ofNat 64 (2 ^ 63 + 0x20 + a.bit)) eval c.pc ∧ Elapsed d (t.core k)) ∧
    (a.on k = true → c.gm = true → a ≠ .maskto → c.ipend.getLsbD 6 = false →
      ∃ t, exec i s = .next t ∧ OnlyCore s t k ∧ t.core k = p) ∧
    (c.wdcnt ≠ 0 → ∃ t, exec (.wdog k) s = .next t ∧ OnlyCore s t k ∧
      t.core k = { c with
        wdcnt := 0, ipend := c.ipend ||| 4, ievals := AMap.insert c.ievals .wdog 0
        waiting := c.waiting && !(c.inten.getLsbD 2) })

/-! ### Commands of the queues (03, 17, 20) -/

/-- A manager-only command of another function ends NOT_AUTHORIZED, and any command with FUA where it is not permitted FIELD_INVALID,
before any other check and with no other effect (03 R68, R108). -/
def Obligations.CommandsAreCheckedFirst : Prop :=
  ∀ (s : State) (t : Tag) (c : Cmd) (op : Nat) (i : Instr), Due s t op c →
    (op, i) ∈ [(0x18, Instr.instanceCreate t), (0x19, Instr.instanceResize t), (0x1A, Instr.instanceQuiesce t),
      (0x1B, Instr.instanceReset t), (0x1C, Instr.instanceDestroy t), (0x11, Instr.fwActivate t), (0x05, Instr.createSq t),
      (0x06, Instr.createCq t), (0x08, Instr.deleteCq t), (0x03, Instr.setFeature t), (0x04, Instr.getFeature t)] →
    (op ∈ [0x10, 0x11, 0x18, 0x19, 0x1A, 0x1B, 0x1C] → s.glb.manager ≠ some t.inst → Ends s i t 0x0803 0 s) ∧
    ((op ∉ [0x10, 0x11, 0x18, 0x19, 0x1A, 0x1B, 0x1C] ∨ s.glb.manager = some t.inst) → c.fua = true → Ends s i t 0x0801 0 s)

/-- CREATE_SQ, CREATE_CQ and DELETE_CQ with a body that R103 allows: the queue exists as the body names it, empty on pass 0, or is
gone; one more than the instance's limit ends QUOTA. -/
def Obligations.QueuesAreCreatedAndDeleted : Prop :=
  ∀ (s : State) (t : Tag) (c : Cmd),
    let f := c.f
    let qid := f 16 2
    let id : BitVec 12 := BitVec.ofNat 12 qid
    let pasid := if f 24 4 < 2 ^ 31 then none else some (BitVec.ofNat 20 (f 24 4))
    let body : Prop := c.clean [(8, 8), (16, 4), (20, 1), (24, 4)] = true ∧ f 24 4 % 2 ^ 31 < 2 ^ 20 ∧
      (2 ^ 31 ≤ f 24 4 → (s.fn t.inst).pasidEn = true) ∧ 1 ≤ qid ∧ qid ≤ 4095 ∧ 1 ≤ f 20 1 % 32 ∧ f 20 1 % 32 ≤ 16 ∧ f 8 8 % 4096 = 0
    (Runs s t 0x05 c → body → f 20 1 < 32 → s.sq t.inst id = none → 1 ≤ f 18 2 → f 18 2 ≤ 4095 →
      (s.cq t.inst (BitVec.ofNat 12 (f 18 2))).isSome = true →
      let made : Sq :=
        { base := BitVec.ofNat 64 (f 8 8), pasid := pasid, log2 := f 20 1, cqid := BitVec.ofNat 12 (f 18 2), head := 0, pass := 0
          st := .active, drain := none, scanDue := false, scanning := false, latchSlot := 0, latchReason := 0, openBatch := none, tokens := 16 }
      if s.ioSqs t.inst < (s.inst t.inst).sqLimit.toNat then Ends s (.createSq t) t 0 0 (s.setSq t.inst id made)
      else Ends s (.createSq t) t 0x1801 0 s) ∧
    (Runs s t 0x06 c → body → f 20 1 < 64 → s.cq t.inst id = none → (32 ≤ f 20 1 → f 18 2 < msixCount t.inst) →
      let made : Cq :=
        { base := BitVec.ofNat 64 (f 8 8), pasid := pasid, log2 := f 20 1 % 32, vector := BitVec.ofNat 16 (f 18 2), ien := decide (32 ≤ f 20 1)
          tail := 0, pass := 0, head := 0, unreturned := 0, ready := [], stallRaised := false, faulted := false }
      if s.ioCqs t.inst < (s.inst t.inst).cqLimit.toNat then Ends s (.createCq t) t 0 0 (s.setCq t.inst id made)
      else Ends s (.createCq t) t 0x1801 0 s) ∧
    (Runs s t 0x08 c → c.clean [(16, 2)] = true → 1 ≤ qid → qid ≤ 4095 → (s.cq t.inst id).isSome = true →
      (∀ e, e ∈ s.rings.sqs → e.1.1 = t.inst → e.2.cqid ≠ id) →
      ∃ e, Ends s (.deleteCq t) t 0 0 e ∧ e.waitsFor (.cqWrite t.inst id) = false ∧ e = { s.dropCq t.inst id with
        xlat := { s.xlat with reqs := e.xlat.reqs, waiting := e.xlat.waiting } })

/-- DELETE_SQ and RESET_QUEUE (03 R95, R97): an SQ with nothing outstanding is freed, or is ACTIVE on pass 0, at once, and no read of its
ring waits for a page any more; else it is DRAINING until its last completion is written. ABORT (03 R104; 04 R141-R144): it completes; RESULT 0
where the target is not outstanding, is an ABORT, or is not caught, then after the target's completion; a command that is caught, said of
IMAGE_LOAD, SEGMENT_READ and the write commands before their commit, has no effect, ends ABORTED, and the ABORT's completion with RESULT 1
follows its own. -/
def Obligations.QueuesDrainAndCommandsAbort : Prop :=
  ∀ (s : State) (t : Tag) (c : Cmd) (q : Sq),
    let qid := c.f 16 2
    let id : BitVec 12 := BitVec.ofNat 12 qid
    let target : Tag := ⟨t.inst, id, BitVec.ofNat 16 (c.f 18 2)⟩
    let queue : Prop := c.clean [(16, 2)] = true ∧ 1 ≤ qid ∧ qid ≤ 4095 ∧ s.sq t.inst id = some q ∧ q.st ≠ .draining ∧ q.openBatch = none
    let idle (i : Instr) (u : State) : Prop := s.sqBusy t.inst id = false → ∃ e, Ends s i t 0 0 e ∧ e.waitsFor (.sqFetch t.inst id) = false ∧
      e = { u with xlat := { s.xlat with reqs := e.xlat.reqs, waiting := e.xlat.waiting } }
    let drains (i : Instr) (d : Drain) : Prop := s.sqBusy t.inst id = true →
      ∃ new, exec i s = .next new ∧ new.sq t.inst id = some { q with st := .draining, drain := some d, scanDue := false, scanning := false } ∧
        (∀ u, u ≠ t → new.cmd? u = s.cmd? u) ∧ new.rings.cqs = s.rings.cqs
    (Runs s t 0x07 c → queue → idle (.deleteSq t []) (s.dropSq t.inst id) ∧
      drains (.deleteSq t []) (.delete t)) ∧
    (Runs s t 0x09 c → queue → idle (.resetQueue t []) (s.setSq t.inst id { q with
        st := .active, drain := none, head := 0, pass := 0, latchSlot := 0, latchReason := 0, scanDue := false, scanning := false }) ∧
      drains (.resetQueue t []) (.reset t)) ∧
    (Runs s t 0x0A c → c.clean [(16, 4)] = true → qid ≤ 4095 → (s.sq t.inst id).isSome = true →
      (s.cmd? target = none → Ends s (.abort t true) t 0 0 s) ∧
      (∀ d, s.cmd? target = some d →
        (d.opcode = 0x0A → ∀ stopped, Ends s (.abort t stopped) t 0 0 s) ∧
        (d.opcode ≠ 0x0A → ∃ new, exec (.abort t false) s = .next new ∧ Ended s t 0 0 [target] new) ∧
        (∀ x cq tq tcq, d.opcode ∈ [0x4A, 0x50] ∨ (d.opcode ∈ [0x40, 0x41, 0x48, 0x49, 0x4B] ∧
            ∀ w, w ∈ s.store.writes → w.tag = some target → w.phase = .built ∨ w.phase = .admitting) →
          d.stage ≠ .finished → d.batch = none → s.sq t.inst id = some x → s.cq t.inst x.cqid = some cq → s.sq t.inst t.sqid = some tq →
          s.cq t.inst tq.cqid = some tcq → ∃ new ncq mcq a b, exec (.abort t true) s = .next new ∧ new.store.tables = s.store.tables ∧
            new.cq t.inst x.cqid = some ncq ∧ new.cq t.inst tq.cqid = some mcq ∧ a ∈ ncq.ready ∧ a.sqid = id ∧ a.cid = target.cid ∧
            a.status = 0x2001 ∧ a.after = [] ∧ b ∈ mcq.ready ∧ b.sqid = t.sqid ∧ b.cid = t.cid ∧ b.status = 0 ∧ b.result = 1 ∧
            b.after = [target] ∧ (∀ u, u ≠ t → u ≠ target → new.cmd? u = s.cmd? u) ∧ ∀ w, w ∈ new.store.writes ↔ w ∈ s.store.writes ∧ w.tag ≠ some target)))

/-- SET_FEATURE stores a feature and GET_FEATURE answers with what is stored, each FID in its range (17 R529; 20 R593; 15 R452, 16 R488):
GAP and CE_THRESHOLD are the manager's to set. -/
def Obligations.FeaturesAreSetAndRead : Prop :=
  ∀ (s : State) (t : Tag) (c : Cmd),
    let v := c.f 24 8
    let vec : BitVec 11 := BitVec.ofNat 11 v
    let old := (s.fn t.inst).vec vec
    let set := Instr.setFeature t
    let get := Instr.getFeature t
    (Runs s t 0x03 c → c.clean [(16, 1), (24, 8)] = true →
      (c.f 16 1 = 0x01 ∨ c.f 16 1 = 0x11 → s.glb.manager ≠ some t.inst → Ends s set t 0x0803 0 s) ∧
      (c.f 16 1 = 0x01 → s.glb.manager = some t.inst →
        if 1 ≤ v ∧ v ≤ 16 then Ends s set t 0 0 { s with disp := { s.disp with gap := BitVec.ofNat 5 v } }
        else Ends s set t 0x0801 0 s) ∧
      (c.f 16 1 = 0x11 → s.glb.manager = some t.inst →
        if v < 65536 then Ends s set t 0 0 { s with ras := { s.ras with ceThresh := BitVec.ofNat 16 v } } else Ends s set t 0x0801 0 s) ∧
      (c.f 16 1 = 0x02 →
        if 1 ≤ v ∧ v ≤ 60000 then Ends s set t 0 0 (s.modInst t.inst fun x => { x with priTimeout := BitVec.ofNat 16 v })
        else Ends s set t 0x0801 0 s) ∧
      (c.f 16 1 = 0x10 →
        if v / 2 ^ 11 % 2 = 0 ∧ v < 2 ^ 30 ∧ v % 2 ^ 11 < msixCount t.inst then
          Ends s set t 0 0 (s.modFn t.inst fun f =>
            { f with vectors := AMap.insert f.vectors vec { old with count := v / 2 ^ 12 % 256 + 1, time := v / 2 ^ 20 % 1024 } })
        else Ends s set t 0x0801 0 s) ∧
      (c.f 16 1 ∉ [0x01, 0x02, 0x10, 0x11] → Ends s set t 0x0801 0 s)) ∧
    (Runs s t 0x04 c →
      (c.clean [(16, 1)] = true →
        (c.f 16 1 = 0x01 → Ends s get t 0 (s.disp.gap.setWidth 64) s) ∧
        (c.f 16 1 = 0x02 → Ends s get t 0 ((s.inst t.inst).priTimeout.setWidth 64) s) ∧
        (c.f 16 1 ∉ [0x01, 0x02, 0x10, 0x11] → Ends s get t 0x0801 0 s)) ∧
      (c.clean [(16, 1), (24, 8)] = true →
        (c.f 16 1 = 0x11 → Ends s get t 0 (s.ras.ceThresh.setWidth 64) s) ∧
        (c.f 16 1 = 0x10 →
          if v % 2 ^ 11 < msixCount t.inst then
            Ends s get t 0 (BitVec.ofNat 64 (v % 2 ^ 11 + (old.count - 1) * 2 ^ 12 + old.time * 2 ^ 20)) s
          else Ends s get t 0x0801 0 s)))

/-- IDENTIFY, POOL_REPORT and GET_LOG write their structure to the host buffer, let through by translation, and end (17 R528, R530;
20 R594, R595): nothing else differs but what the write itself leaves, and RAS_LOG_WRAP is rearmed (20 R598). A log without bytes from OFFSET is not
written. How the bytes of any write go out: `GoesOutInOrder` (15 R448, R467; that the engine uses Relaxed Ordering or not is free where it may: the
model's choice, log 296). -/
def Obligations.ReportsAreWritten : Prop :=
  (∀ s i pasid addr bs, GoesOutInOrder s i pasid addr bs) ∧
  ∀ (s : State) (t : Tag) (c : Cmd) (acc : HostAcc), s.accOf t.inst acc = .ok →
    let wrote (addr : Nat) (bs : Bytes) : State := s.dataWrite t.inst none (BitVec.ofNat 64 addr) bs
    let mgr := s.isManager t.inst
    let subject : BitVec 8 := BitVec.ofNat 8 (c.f 24 1)
    let named : BitVec 8 := BitVec.ofNat 8 (c.f 17 1)
    (Runs s t 0x01 c → c.clean [(16, 8)] = true → c.f 16 8 % 64 = 0 →
      Ends s (.identify t acc) t 0 0 (wrote (c.f 16 8) (s.identity t.inst)) ∧ (s.identity t.inst).length = 4096 ∧
      ∀ off n x, (off, n, x) ∈ [(0, 2, 0x1F6A), (2, 2, if t.inst.toNat % 64 = 0 then 0x9640 else 0x9641), (4, 1, 0xB1), (5, 1, t.inst.toNat),
          (8, 4, s.fw.running.toNat), (14, 2, 256), (16, 16, Config.serial.toNat), (40, 2, (s.inst t.inst).maxSq.toNat),
          (42, 2, (s.inst t.inst).maxCq.toNat), (44, 4, (s.inst t.inst).maxFlows.toNat), (48, 2, msixCount t.inst)] →
        leNat (((s.identity t.inst).drop off).take n) = x) ∧
    (Runs s t 0x1D c → c.clean [(16, 8), (24, 1)] = true → c.f 16 8 % 64 = 0 →
      if mgr = true ∨ subject = t.inst then
        Ends s (.poolReport t acc) t 0 0 (wrote (c.f 16 8) (s.report subject mgr)) ∧
        (mgr = false → (s.report subject mgr).take 32 = List.replicate 32 0)
      else Ends s (.poolReport t acc) t 0x0801 0 s) ∧
    (Runs s t 0x02 c → c.clean [(16, 6), (24, 16)] = true → c.f 24 8 % 64 = 0 → c.f 32 4 % 64 = 0 → 64 ≤ c.f 32 4 → c.f 32 4 ≤ 1048576 →
      c.f 36 4 % 64 = 0 →
      (mgr = false → named ≠ t.inst → Ends s (.getLog t acc) t 0x0801 0 s) ∧
      (mgr = true ∨ named = t.inst → c.f 18 4 = 0 → c.f 16 1 = 0x01 → s.logOf c = some ((s.fn named).evtLog.flatMap EvRec.bytes)) ∧
      (mgr = true → c.f 18 4 = 0 → c.f 16 1 = 0x05 → s.logOf c = some (s.ras.log.flatMap RasRec.bytes)) ∧
      ∀ log, s.logOf c = some log →
        let part := (log.drop (c.f 36 4)).take (c.f 32 4)
        let e := if part = [] then s else wrote (c.f 24 8) part
        Ends s (.getLog t acc) t 0 (BitVec.ofNat 64 (part.length + 2 ^ 32 * log.length))
          (if c.f 16 1 = 5 then { e with ras := { e.ras with wrapped := false } } else e))

/-- Doorbells, the stall event, the fetch rate and the admin queue (03 R72, R73, R81-R84, R99, R100; 17 R512; 21 R625, R626, R637): what each
command leaves of the queue it names, and where it is ignored. -/
def Obligations.DoorbellsAndTheAdminQueue : Prop :=
  ∀ (s : State) (inst : BitVec 8) (sqid cqid : BitVec 12) (w : DbWidth) (value : BitVec 64) (ctl : BitVec 32),
    let serving : Prop := s.glb.phase = .ready ∧ (s.inst inst).st = .serving
    let v := if w = .low then value &&& 0xFFFFFFFF else value
    (∀ q, s.sq inst sqid = some q →
      (serving → q.st = .active → w ≠ .high → exec (.sqDoorbell inst sqid w value) s = .next (s.setSq inst sqid { q with scanDue := true })) ∧
      (¬serving ∨ q.st ≠ .active ∨ w = .high → exec (.sqDoorbell inst sqid w value) s = .next s) ∧
      ((s.inst inst).fetchRate ≠ 0 → sqid ≠ 0 → ∃ new, exec (.fetchToken inst sqid) s = .next new ∧
        new = s.setSq inst sqid { q with tokens := if q.tokens < 16 then q.tokens + 1 else 16 })) ∧
    (∀ cq, s.cq inst cqid = some cq →
      let size := 2 ^ cq.log2
      let new := v.toNat % 65536
      let d := if new = cq.head ∧ size ≤ cq.unreturned then size else (new + size - cq.head) % size
      (serving → w ≠ .high → exec (.cqHeadDoorbell inst cqid w value) s = .next (
        if new < size ∧ d ≤ cq.unreturned then
          s.setCq inst cqid { cq with
            head := new, unreturned := cq.unreturned - d, faulted := false
            stallRaised := if d = 0 ∧ cq.faulted = false then cq.stallRaised else false }
        else s.raiseInst 513 inst (cqid.setWidth 64) v)) ∧
      (¬serving ∨ w = .high → exec (.cqHeadDoorbell inst cqid w value) s = .next s) ∧
      (size ≤ cq.unreturned ∨ cq.faulted = true → (s.fn inst).d3hot = false → exec (.cqStalled inst cqid) s = .next (
        if cq.stallRaised then s else (s.setCq inst cqid { cq with stallRaised := true }).raiseInst 512 inst (cqid.setWidth 64) 0))) ∧
    (s.glb.phase = .ready → (s.fn inst).present = true →
      let f := s.fn inst
      let g := if f.admEn then f else { f with sqLog2 := ctl.extractLsb' 8 4, cqLog2 := ctl.extractLsb' 16 4 }
      let sound : Prop := 1 ≤ g.sqLog2.toNat ∧ g.sqLog2.toNat ≤ 12 ∧ 1 ≤ g.cqLog2.toNat ∧ g.cqLog2.toNat ≤ 12 ∧ g.admSqBase ≠ 0 ∧ g.admCqBase ≠ 0
      (s.sq inst 0 = none → (s.inst inst).st ≠ .absent → ∃ new, exec (.admCtrlEnable inst ctl) s = .next new ∧
        (¬sound → new.fn inst = { g with admEn := false, cfgErr := true } ∧ new.sq inst 0 = none) ∧
        (sound → new.fn inst = { g with admEn := true, cfgErr := false, admSlot := 0, admReason := 0 } ∧
          ((s.inst inst).st = .serving →
            (∃ q, new.sq inst 0 = some q ∧ q.base = g.admSqBase ∧ q.pasid = none ∧ q.log2 = g.sqLog2.toNat ∧ q.cqid = 0 ∧ q.head = 0 ∧ q.pass = 0 ∧
              q.st = .active) ∧
            ∃ cq, new.cq inst 0 = some cq ∧ cq.base = g.admCqBase ∧ cq.pasid = none ∧ cq.log2 = g.cqLog2.toNat ∧ cq.vector = 0 ∧ cq.ien = true ∧
              cq.tail = 0 ∧ cq.pass = 0 ∧ cq.unreturned = 0 ∧ cq.ready = [])) ∧
        (∀ i k, i ≠ inst ∨ k ≠ 0 → new.sq i k = s.sq i k ∧ new.cq i k = s.cq i k) ∧ (∀ i, i ≠ inst → new.fn i = s.fn i) ∧
        new = { s with fns := new.fns, rings := { s.rings with sqs := new.rings.sqs, cqs := new.rings.cqs } }) ∧
      (∀ q, s.sq inst 0 = some q → q.openBatch = none → ∃ new, exec (.admCtrlDisable inst ctl) s = .next new ∧
        (new.fn inst).admEn = false ∧ new.sq inst 0 = some { q with st := .draining, drain := some .disable, scanDue := false, scanning := false } ∧
        (∀ i k, i ≠ inst ∨ k ≠ 0 → new.sq i k = s.sq i k) ∧ (∀ i, i ≠ inst → new.fn i = s.fn i) ∧
        new = { s with fns := new.fns, rings := { s.rings with sqs := new.rings.sqs } })) ∧
    (∀ q, s.sq inst 0 = some q → q.drain = some .disable →
      (s.sqBusy inst 0 = true → exec (.adminQueueDelete inst) s = .next s) ∧
      (s.sqBusy inst 0 = false → ∃ new, exec (.adminQueueDelete inst) s = .next new ∧
        new = { (s.dropSq inst 0).dropCq inst 0 with xlat := { s.xlat with reqs := new.xlat.reqs, waiting := new.xlat.waiting } } ∧
        new.waitsFor (.sqFetch inst 0) = false ∧ new.waitsFor (.cqWrite inst 0) = false))

/-- A scan reads the entry in the head slot when it is the SQ's turn (03 R69, R72, R76, R77, R86, R92-R94; 17 R512): one the engine does not own
ends it; an owned one is fetched, and the head advances, a FLUSH notes the writes it covers (04 R128), an FW_ACTIVATE that an activation is in
progress (20 R608); a malformed one latches and puts the SQ in ERROR. A ready completion is written into the next slot of
its CQ, and its tags are no longer outstanding (03 R67, R79, R83). -/
def Obligations.EntriesAreFetchedAndCompletionsPosted : Prop :=
  ∀ (s : State) (inst : BitVec 8) (sqid cqid : BitVec 12) (e : BitVec 512),
    (∀ q, s.sq inst sqid = some q → s.mayFetch inst sqid q = true → (q.scanning = true ∨ q.scanDue = true) →
      let i := Instr.sqScan inst sqid [.entry e]
      let due : Bool := q.scanning && q.scanDue
      let size := 2 ^ q.log2
      let mine : Prop := (e.getLsbD 0 = true ↔ q.pass % 2 = 0) ∧ ef e 4 2 = (q.pass * size + q.head) % 65536
      let cid : BitVec 16 := BitVec.ofNat 16 (ef e 2 2)
      let t : Tag := ⟨inst, sqid, cid⟩
      let read (new : State) : State := State.accessed { s with rings := { s.rings with served := new.rings.served } } inst q.pasid
        (q.base + BitVec.ofNat 64 (64 * q.head)) 64 false
      let others : Prop := ∃ x, x ∈ s.rings.sqs ∧ x.1 ≠ (inst, sqid) ∧ x.1 ∉ s.rings.served ∧ s.mayFetch x.1.1 x.1.2 x.2 = true ∧
        (x.2.scanning = true ∨ x.2.scanDue = true) ∧ ((s.inst x.1.1).fetchRate = 0 ∨ x.1.2 = 0 ∨ x.2.tokens ≠ 0)
      let turn : Prop := (inst, sqid) ∉ s.rings.served ∨ ¬others
      (¬turn → exec i s = .next s) ∧
      (turn → ∀ new, exec i s = .next new → (inst, sqid) ∈ new.rings.served) ∧
      (turn → ¬mine → ∃ new, exec i s = .next new ∧ new = (read new).setSq inst sqid { q with scanning := false, scanDue := due }) ∧
      (turn → mine → s.malformed inst sqid e = none → ((s.inst inst).fetchRate = 0 ∨ sqid = 0 ∨ 0 < q.tokens) → ∃ new d p, exec i s = .next new ∧
        new.cmd? t = some d ∧ d.entry = e ∧ d.stage = .fetched ∧ d.no = s.rings.nextCmd ∧ d.time = s.time ∧
        (∀ u, u ≠ t → new.cmd? u = s.cmd? u) ∧ new.rings.nextCmd = s.rings.nextCmd + 1 ∧ new.rings.cqs = s.rings.cqs ∧
        new.sq inst sqid = some p ∧
        p = { q with
          scanning := true, scanDue := due, openBatch := p.openBatch, tokens := p.tokens
          head := if q.head + 1 < size then q.head + 1 else 0
          pass := if q.head + 1 < size then q.pass else q.pass + 1 } ∧
        p.tokens = (if (s.inst inst).fetchRate = 0 ∨ sqid = 0 then q.tokens else q.tokens - 1) ∧
        (∀ i k, i ≠ inst ∨ k ≠ sqid → new.sq i k = s.sq i k) ∧
        (e.getLsbD 1 = false → e.getLsbD 2 = false → d.batch = none ∧ new.rings.batches = s.rings.batches ∧ p.openBatch = q.openBatch) ∧
        (e.getLsbD 1 = true ∨ e.getLsbD 2 = true → ∃ n b, d.batch = some n ∧ new.batch? n = some b ∧ cid ∈ b.members ∧
          b.closed = e.getLsbD 2 ∧ p.openBatch = if e.getLsbD 2 then none else some n) ∧
        (ef e 1 1 ≠ 0x4C → new.store.flushes = s.store.flushes) ∧
        (ef e 1 1 = 0x4C → ∃ l, AMap.find? new.store.flushes t = some l ∧ ∀ k, k ∈ l ↔ ∃ w, w ∈ s.store.writes ∧ w.no = k ∧ w.inst = inst ∧
          w.completed = true ∧ w.tag ≠ none ∧ ¬(w.localDurable = true ∧ w.partnerDurable = true)) ∧
        new.fw.late = (if ef e 1 1 = 0x11 ∧ s.fw.act ≠ none then t :: s.fw.late else s.fw.late) ∧
        new = { read new with
          rings := new.rings, store := { s.store with flushes := new.store.flushes }, fw := { s.fw with late := new.fw.late } }) ∧
      (∀ why, turn → mine → s.malformed inst sqid e = some why → ∃ new p, exec i s = .next new ∧ new.sq inst sqid = some p ∧
        p.st = .error ∧ p.head = q.head ∧ p.pass = q.pass ∧ p.latchSlot = BitVec.ofNat 16 q.head ∧ p.latchReason = why ∧
        (∀ cq, q.openBatch = none → s.cq inst q.cqid = some cq → ∃ x, new.cq inst q.cqid = some { cq with ready := cq.ready ++ [x] } ∧
          x.sqid = sqid ∧ x.cid = cid ∧ x.status = 0x0802 ∧ x.result = BitVec.ofNat 64 (q.head + 65536 * why.toNat) ∧ x.batch = false))) ∧
    (∀ cq x acc, s.cq inst cqid = some cq → s.mayPost inst = true → cq.unreturned < 2 ^ cq.log2 → cq.faulted = false →
      s.waitsFor (.cqWrite inst cqid) = false → cq.ready.find? (s.postable inst) = some x → s.accOf inst acc = .ok → cq.base.toNat % 4096 = 0 →
      ∃ new bs p a, exec (.completionPost inst cqid acc) s = .next new ∧
        Sent.hostWrite inst cq.pasid (cq.base + BitVec.ofNat 64 (16 * cq.tail)) bs a ∈ new.out ∧ a.relaxed = false ∧
        bs.length = 16 ∧ leNat (bs.take 8) = x.result.toNat ∧
        (∀ q, x.sqhead = none → s.sq inst x.sqid = some q → leNat ((bs.drop 8).take 2) = q.head % 65536) ∧
        (∀ h, x.sqhead = some h → leNat ((bs.drop 8).take 2) = h.toNat) ∧
        leNat ((bs.drop 10).take 2) = x.sqid.toNat + (if x.batch then 0x1000 else 0) ∧
        leNat ((bs.drop 12).take 2) = x.cid.toNat ∧ leNat (bs.drop 14) = x.status.toNat + (if cq.pass % 2 = 0 then 0x8000 else 0) ∧
        new.cq inst cqid = some p ∧ p.unreturned = cq.unreturned + 1 ∧ p.head = cq.head ∧
        p.tail = (if cq.tail + 1 < 2 ^ cq.log2 then cq.tail + 1 else 0) ∧ p.pass = (if cq.tail + 1 < 2 ^ cq.log2 then cq.pass else cq.pass + 1) ∧
        (∀ cid, cid ∈ x.covers → new.cmd? ⟨inst, x.sqid, cid⟩ = none) ∧
        ((s.inst inst).st = .serving → (∀ q, s.sq inst x.sqid = some q → q.st ≠ .draining) →
          p.ready = cq.ready.erase x ∧ (∀ u, (u.inst ≠ inst ∨ u.sqid ≠ x.sqid ∨ u.cid ∉ x.covers) → new.cmd? u = s.cmd? u) ∧
          new.rings.sqs = s.rings.sqs ∧ new.insts = s.insts))

/-- The manager's commands on instances (17 R505, R507-R513, R515, R518, R519): what they leave of the instance, and the statuses of those the
rules turn away. -/
def Obligations.ManagerCommandsOnInstances : Prop :=
  ∀ (s : State) (t : Tag) (c : Cmd),
    let f := c.f
    let i : BitVec 8 := BitVec.ofNat 8 (f 16 1)
    let v := s.inst i
    let fits (sel : Nat → Prop) (maxSq maxCq : Nat) : Prop :=
      (sel 0 → f 28 2 ≤ maxSq) ∧ (sel 1 → f 30 2 ≤ maxCq) ∧ (sel 2 → f 32 4 ≤ s.poolPages) ∧ (sel 3 → f 36 4 ≤ s.poolPages) ∧
      (sel 4 → f 40 4 ≤ s.poolPages) ∧ (sel 5 → 16 ≤ f 44 2 ∧ f 44 2 ≤ 2560) ∧ (sel 6 → 1 ≤ f 46 1) ∧
      (sel 7 → 1 ≤ f 47 1 ∧ f 47 1 ≤ 100) ∧ (sel 8 → f 48 4 ≤ 16777215)
    (Runs s t 0x18 c → c.clean [(16, 1), (20, 32)] = true → f 20 2 ≤ 4095 → f 22 2 ≤ 4095 → 1 ≤ f 24 4 → f 24 4 ≤ 65536 →
      fits (fun _ => True) (f 20 2) (f 22 2) →
      if v.st ≠ .absent then Ends s (.instanceCreate t) t 0x0801 0 s
      else if s.sqDrawn + f 20 2 + 1 ≤ 4096 ∧ s.cqDrawn + f 22 2 + 1 ≤ 4096 ∧ s.flowsDrawn + f 24 4 ≤ 65536 ∧
          s.pagesDrawn + f 32 4 + f 36 4 + f 40 4 ≤ s.poolPages ∧ s.lsDrawn + f 44 2 ≤ 2560 then
        Ends s (.instanceCreate t) t 0 0 (s.setInst i { Inst.absent with
          st := if (s.fn i).present then .serving else .detached
          maxSq := BitVec.ofNat 16 (f 20 2), maxCq := BitVec.ofNat 16 (f 22 2), maxFlows := BitVec.ofNat 32 (f 24 4)
          sqLimit := BitVec.ofNat 16 (f 28 2), cqLimit := BitVec.ofNat 16 (f 30 2), tablePages := BitVec.ofNat 32 (f 32 4)
          spillPages := BitVec.ofNat 32 (f 36 4), sspillPages := BitVec.ofNat 32 (f 40 4), lsUnits := BitVec.ofNat 16 (f 44 2)
          weight := BitVec.ofNat 8 (f 46 1), pacerPct := BitVec.ofNat 8 (f 47 1), fetchRate := BitVec.ofNat 32 (f 48 4) })
      else Ends s (.instanceCreate t) t 0x1801 0 s) ∧
    (Runs s t 0x19 c → c.clean [(16, 1), (18, 2), (28, 24)] = true → f 18 2 < 512 → v.st ≠ .absent →
      let sel (k : Nat) : Prop := f 18 2 / 2 ^ k % 2 = 1
      (∀ k off n, (k, off, n) ∈ [(0, 28, 2), (1, 30, 2), (2, 32, 4), (3, 36, 4), (4, 40, 4), (5, 44, 2), (6, 46, 1), (7, 47, 1), (8, 48, 4)] →
        ¬sel k → f off n = 0) →
      fits sel v.maxSq.toNat v.maxCq.toNat →
      (∀ k off n use, (k, off, n, use) ∈ [(0, 28, 2, s.ioSqs i), (1, 30, 2, s.ioCqs i), (2, 32, 4, s.tableUse i), (3, 36, 4, s.spillUse i),
        (4, 40, 4, s.sspillUse i), (5, 44, 2, s.lsUse i)] → sel k → use ≤ f off n) →
      let pick (k off n old : Nat) : Nat := if f 18 2 / 2 ^ k % 2 = 1 then f off n else old
      let tp := pick 2 32 4 v.tablePages.toNat
      let sp := pick 3 36 4 v.spillPages.toNat
      let ssp := pick 4 40 4 v.sspillPages.toNat
      let ls := pick 5 44 2 v.lsUnits.toNat
      let held := v.tablePages.toNat + v.spillPages.toNat + v.sspillPages.toNat
      let made : Inst := { v with
        sqLimit := BitVec.ofNat 16 (pick 0 28 2 v.sqLimit.toNat), cqLimit := BitVec.ofNat 16 (pick 1 30 2 v.cqLimit.toNat)
        tablePages := BitVec.ofNat 32 tp, spillPages := BitVec.ofNat 32 sp, sspillPages := BitVec.ofNat 32 ssp, lsUnits := BitVec.ofNat 16 ls
        weight := BitVec.ofNat 8 (pick 6 46 1 v.weight.toNat), pacerPct := BitVec.ofNat 8 (pick 7 47 1 v.pacerPct.toNat)
        fetchRate := BitVec.ofNat 32 (pick 8 48 4 v.fetchRate.toNat) }
      let short : Prop := (held < tp + sp + ssp ∧ s.poolPages < s.pagesDrawn - held + tp + sp + ssp) ∨
        (v.lsUnits.toNat < ls ∧ 2560 < s.lsDrawn - v.lsUnits.toNat + ls)
      (short → Ends s (.instanceResize t) t 0x1801 0 s) ∧
      (¬short → (sp ≤ v.spillPages.toNat ∨ ∀ x, x ∈ s.disp.items → x.query.inst = i → x.cause ≠ some .spill) →
        let put := s.setInst i made
        let full := if f 18 2 / 2 ^ 8 % 2 = 1 then { put with rings := { put.rings with
            sqs := put.rings.sqs.map fun x => (x.1, if x.1.1 = i then { x.2 with tokens := 16 } else x.2) } } else put
        ∃ e, Ends s (.instanceResize t) t 0 0 e ∧ e = { full with disp := { s.disp with grants := e.disp.grants } } ∧
          (¬sel 6 → e.disp.grants = s.disp.grants)) ∧
      (¬short → ∃ new, exec (.instanceResize t) s = .next new ∧ (new.inst i).spillPages = BitVec.ofNat 32 sp)) ∧
    (Runs s t 0x1A c → c.clean [(16, 1), (18, 2)] = true → v.quiesce ≠ some t →
      (s.glb.manager = some i ∨ v.st = .absent ∨ v.st = .quiescing → Ends s (.instanceQuiesce t) t 0x0801 0 s) ∧
      (s.glb.manager ≠ some i → v.st = .quiet ∨ v.st = .detached → Ends s (.instanceQuiesce t) t 0 0 s) ∧
      (s.glb.manager ≠ some i → v.st = .serving →
        let grace : BitVec 64 := s.time + BitVec.ofNat 64 (25000 * f 18 2)
        let left : Prop := (∃ d, d ∈ s.rings.cmds ∧ d.tag.inst = i) ∨ ∃ e, e ∈ s.rings.cqs ∧ e.1.1 = i ∧ e.2.ready ≠ []
        (¬left → Ends s (.instanceQuiesce t) t 0 0 (s.setInst i { v with
          st := .quiet, quiesce := none, discarded := 0, graceEnd := grace })) ∧
        (left → exec (.instanceQuiesce t) s =
          .next ((s.begun t).setInst i { v with st := .quiescing, quiesce := some t, discarded := 0, graceEnd := grace })))) ∧
    (∀ x, x ∈ [(0x1B, Instr.instanceReset t), (0x1C, Instr.instanceDestroy t)] → Runs s t x.1 c → c.clean [(16, 1)] = true →
      (s.glb.manager = some i ∨ v.st = .absent → Ends s x.2 t 0x0801 0 s) ∧
      (s.glb.manager ≠ some i → v.st = .serving ∨ v.st = .quiescing → Ends s x.2 t 0x0804 0 s)) ∧
    (Runs s t 0x1B c → c.clean [(16, 1)] = true → s.glb.manager ≠ some i →
      (v.st = .quiet → ∃ e, Ends s (.instanceReset t) t 0 0 e ∧ (e.inst i).st = .serving ∧ (e.inst i).priTimeout = 1000 ∧ (e.inst i).images = [] ∧
        (∀ k, e.sq i k = none ∧ e.cq i k = none) ∧ (e.fn i).admEn = false ∧ (e.fn i).admSqBase = 0 ∧ (e.fn i).admCqBase = 0 ∧
        (e.fn i).evtRoute = [] ∧ ∀ j, j ≠ i → e.inst j = s.inst j ∧ e.fn j = s.fn j) ∧
      (v.st = .detached → Ends s (.instanceReset t) t 0 0 (s.setInst i { v with hold := false }))) ∧
    (Runs s t 0x1C c → c.clean [(16, 1)] = true → s.glb.manager ≠ some i → v.st = .quiet ∨ v.st = .detached →
      ∃ e, Ends s (.instanceDestroy t) t 0 0 e ∧ e.inst i = Inst.absent ∧ (∀ k, e.sq i k = none ∧ e.cq i k = none) ∧
        (∀ x, x ∈ e.store.tables ↔ x ∈ s.store.tables ∧ x.1.1 ≠ i) ∧ ∀ j, j ≠ i → e.inst j = s.inst j ∧ e.fn j = s.fn j)


/-- The life of functions (17 R504, R513-R517, R520, R521, R523; 20 R584, R591, R599; 15 R454): what FLR, Bus Master Enable, VF Enable, PERST_N, the
port's link, the power states, the manager's transfer and the end of a QUIESCE's grace leave of a function and its instance. -/
def Obligations.FunctionsComeAndGo : Prop :=
  ∀ (s : State) (i : BitVec 8) (port : BitVec 2) (n : BitVec 6) (done : List Tag),
    let v := s.inst i
    let f := s.fn i
    let enablesOff (g : Fn) : Prop := g.bme = false ∧ g.ats = false ∧ g.pri = false ∧ g.pasidEn = false ∧ g.alloc = 0
    let stopped (new : State) : Prop := (∀ c, c ∈ new.rings.cmds → c.tag.inst ≠ i) ∧ (∀ q, q ∈ new.queries → q.tag.inst ≠ i)
    let emptied (new : State) : Prop := stopped new ∧ (∀ k, new.sq i k = none ∧ new.cq i k = none) ∧ (new.inst i).images = []
    let live : Prop := v.st = .serving ∨ v.st = .quiescing
    let after : InstState := if v.st = .quiescing then .quiet else v.st
    (s.glb.phase = .ready → f.present = true →
      (s.glb.fetchPaused = true → exec (.flr i done) s = .next { s with glb := { s.glb with flrDue := s.glb.flrDue ++ [(i, done)] } }) ∧
      (s.glb.fetchPaused = false → ∃ new, exec (.flr i done) s = .next new ∧ enablesOff (new.fn i) ∧ (new.inst i).st = after ∧ (live → emptied new)) ∧
      (∃ new, exec (.bmeClear i done) s = .next new ∧ (new.fn i).bme = false ∧ (new.fn i).ats = f.ats ∧ (new.inst i).st = after ∧
        (live → emptied new) ∧ ∀ e, e ∈ new.xlat.atc → e.1 ≠ i)) ∧
    (f.present = true → exec (.bmeSet i) s = .next ((s.setFn i { f with bme := true }).signalAll i)) ∧
    -- a function that is no longer present, and one that is present again
    (
      let gone := s.detach i done
      (gone.fn i).present = false ∧ (gone.fn i).d3hot = false ∧ enablesOff (gone.fn i) ∧
      (live ∨ v.st = .quiet → (gone.inst i).st = .detached ∧ ((gone.inst i).hold = true ↔ v.st ≠ .serving) ∧ emptied gone) ∧
      (v.st = .absent ∨ v.st = .detached → gone.inst i = v)) ∧
    (f.present = false →
      let back := s.attach i
      (back.fn i).present = true ∧ enablesOff (back.fn i) ∧
      (v.st = .detached → back.inst i = { v with st := if v.hold then .quiet else .serving, hold := false }) ∧
      (v.st ≠ .detached → back.inst i = v)) ∧
    (
      let set := { s with glb := { s.glb with vfs := AMap.insert s.glb.vfs port n } }
      exec (.vfEnableClear port n done) s = .next ((portInsts port).foldl (fun u k =>
        if (u.fn k).present = true ∧ n.toNat < k.toNat % 64 then u.detach k done else u) set) ∧
      exec (.vfEnableSet port n) s = .next (if s.glb.ports.getLsbD port.toNat then
        (portInsts port).foldl (fun u k => if k.toNat % 64 ≤ n.toNat then u.attach k else u) set else set)) ∧
    (∃ new, exec (.perstAssert port done) s = .next new ∧ new.glb.ports.getLsbD port.toNat = false ∧ new.glb.perst.getLsbD port.toNat = true ∧
      ∀ k, k ∈ portInsts port → (new.fn k).fnMask = false ∧
        ∀ e, e ∈ (new.fn k).vectors → e.2.masked = true ∧ e.2.pending = false ∧ e.2.addr = 0 ∧ e.2.data = 0) ∧
    (exec (.perstDeassert port) s = .next { s with glb := { s.glb with perst := s.glb.perst &&& ~~~(1#4 <<< port.toNat) } }) ∧
    (s.glb.ports.getLsbD port.toNat = true →
      let d := s.detachPort port done
      exec (.hostLinkDown port done) s = .next (State.raiseDevice { d with glb := { d.glb with
        ports := d.glb.ports &&& ~~~(1#4 <<< port.toNat), vfs := AMap.insert d.glb.vfs port 0 } } 192 0xFF (port.setWidth 64) 0)) ∧
    (s.glb.ports.getLsbD port.toNat = false → s.glb.perst.getLsbD port.toNat = false → ∀ status flit,
      ∃ new, exec (.hostLinkUp port status flit) s = .next new ∧ new.glb.ports = s.glb.ports ||| (1#4 <<< port.toNat) ∧
        (∀ k, k ∈ portInsts port → k.toNat % 64 ≤ (AMap.get s.glb.vfs port 0).toNat → (new.fn k).present = true)) ∧
    (∀ err kind,
      let e := s.raiseDeviceX 194 0xFF (port.setWidth 64) err (if kind = .uncorrectable then 1 else 0) 0
      (kind ≠ .uncorrectable → ∀ victim, exec (.hostAer port err kind victim) s = .next (e.count (BitVec.ofNat 16 (0x40 + 4 * port.toNat)))) ∧
      (kind = .uncorrectable → exec (.hostAer port err kind none) s = .next e ∧
        ∀ t, exec (.hostAer port err kind (some t)) s = .next (if (s.query? t).isSome then e.stopQuery t 0x3802 else e.finish t 0x3802 0))) ∧
    (∀ pme, exec (.d3hotEntry i pme) s = .next (s.setFn i { f with d3hot := true, pmeEn := pme })) ∧
    (f.d3hot = true → ∃ new, exec (.d0Return i) s = .next new ∧ (new.fn i).d3hot = false ∧
      ((∀ e, e ∈ s.rings.cqs → e.1.1 = i → e.2.ready = []) → new = (s.setFn i { f with d3hot := false }).signalHeld i)) ∧
    (∀ t : Tag, t.inst = i → exec (.completionTimeout i t) s = .next (
      if (s.query? t).isSome then s.stopQuery t 0x3001 else s.finish t 0x3001 0)) ∧
    (v.st = .quiescing → 2 ^ 63 ≤ (s.time - v.graceEnd).toNat → exec (.quiesceGraceEnd i done) s = .next s) ∧
    (v.st = .quiescing → (s.time - v.graceEnd).toNat < 2 ^ 63 → ∃ new, exec (.quiesceGraceEnd i done) s = .next new ∧ (new.inst i).st = .quiet ∧ (new.inst i).quiesce = none ∧ stopped new) ∧
    (∀ m, s.glb.nextManager = some m →
      let busy : Prop := ∃ o c, s.glb.manager = some o ∧ c ∈ s.rings.cmds ∧ c.tag.inst = o ∧ c.opcode ∈ managerOpcodes
      (busy → exec .managerTransfer s = .next s) ∧
      (¬busy → ∃ new, exec .managerTransfer s = .next new ∧ new.glb = { s.glb with manager := some m, nextManager := none } ∧
        new.inst m = (if (s.inst m).st = .absent then Inst.managerFirst else s.inst m) ∧ new.ras.holding = [] ∧
        (new.fn m).evtPend.getLsbD 519 = true ∧ ∀ o, s.glb.manager = some o → (new.fn o).evtPend.getLsbD 519 = true))

/-- Translation faults and the commands of the translation interface (15 R449-R453, R456): when a page request is issued, which faults it collects, and
what its response, its timeout and the function's enables leave. -/
def Obligations.PageRequestsAreIssuedAndAnswered : Prop :=
  ∀ (s : State) (i : BitVec 8) (k : PageKey) (pasid : Option (BitVec 20)) (page : BitVec 64) (write : Bool) (w : Waiter) (n : BitVec 32),
    let f := s.fn i
    let key : PageKey := ⟨i, pasid, page.extractLsb' 12 52, write⟩
    let held := (s.xlat.reqs ++ s.xlat.waiting).filter fun r => r.key = key
    let fault := s.hostFault i pasid page write w
    -- a fault of a function's access
    (f.pri = false ∨ f.priBlocked = true ∨ f.alloc = 0 → fault = s.unresolved w) ∧
    (f.pri = true → f.priBlocked = false → f.alloc ≠ 0 →
      (2 ≤ AMap.get s.xlat.faults key 0 →
        fault = State.unresolved { s with xlat := { s.xlat with faults := AMap.erase s.xlat.faults key } } w) ∧
      (AMap.get s.xlat.faults key 0 < 2 → held = [] →
        let limit := if f.alloc.toNat < 512 then f.alloc.toNat else 512
        let mine := (s.xlat.reqs.filter fun r => r.key.inst = i).length
        let ports := (s.xlat.reqs.filter fun r => r.key.inst.toNat / 64 = i.toNat / 64).length
        if mine < limit ∧ ports < 512 then
          fault = { s with xlat := { s.xlat with reqs := s.xlat.reqs ++ [⟨key, [w], s.time⟩] }, out := .pageRequest key :: s.out }
        else fault = { s with xlat := { s.xlat with waiting := s.xlat.waiting ++ [⟨key, [w], s.time⟩] } }) ∧
      (AMap.get s.xlat.faults key 0 < 2 → held ≠ [] → fault.out = s.out ∧ fault.waitsFor w = true ∧
        fault.xlat.reqs.map PageReq.key = s.xlat.reqs.map PageReq.key ∧ fault.xlat.waiting.map PageReq.key = s.xlat.waiting.map PageReq.key)) ∧
    -- what an access that cannot be resolved ends in
    (∀ q, s.unresolved (.sqFetch i q) = s.raiseInst 515 i (q.setWidth 64) 0) ∧
    (∀ q cq, s.cq i q = some cq → s.unresolved (.cqWrite i q) = (s.setCq i q { cq with faulted := true }).raiseInst 516 i (q.setWidth 64) 0) ∧
    (∀ t, s.unresolved (.query t) = s.stopQuery t 0x3001) ∧
    (∀ t, s.unresolved (.cmd t) = s.finish t 0x3001 0) ∧
    (∀ t q, s.query? t = some q → q.st = .done →
      let u := s.modQuery t fun q => { q with noCsw := true, cswHeld := [] }
      s.unresolved (.csw t) = if q.status = 0 then (u.modQuery t fun q => { q with status := 0x3001 }).finish t 0x3001 q.result
        else u.finish t q.status q.result) ∧
    -- the responses
    (k ∈ s.xlat.late ∨ (∀ r, r ∈ s.xlat.reqs → r.key ≠ k) → ∀ a, exec (.pageRequestResponse k a) s =
      .next { s with xlat := { s.xlat with late := s.xlat.late.filter fun x => x ≠ k } }) ∧
    (∀ r, s.xlat.reqs.find? (fun x => x.key == k) = some r →
      let rest := { s with xlat := { s.xlat with reqs := s.xlat.reqs.filter fun x => x.key ≠ k } }
      (k ∉ s.xlat.late →
        exec (.pageRequestResponse k .success) s = .next ((r.waiters.foldl State.resolved
          { rest with xlat := { rest.xlat with faults := AMap.insert s.xlat.faults k (AMap.get s.xlat.faults k 0 + 1) } }).issueWaiting) ∧
        exec (.pageRequestResponse k .invalidRequest) s = .next ((r.waiters.foldl State.unresolved rest).issueWaiting) ∧
        ∃ new, exec (.pageRequestResponse k .responseFailure) s = .next new ∧ (new.fn k.inst).priBlocked = true ∧
          ∀ x, x ∈ new.xlat.reqs ++ new.xlat.waiting → x.key.inst ≠ k.inst) ∧
      (25000 * (s.inst k.inst).priTimeout.toNat ≤ (s.time - r.since).toNat →
        ∃ new, exec (.priTimeout k) s = .next new ∧ k ∈ new.xlat.late ∧ (new.fn k.inst).evtPend.getLsbD 517 = true ∧
        ((∀ x, x ∈ s.xlat.waiting → x.key ≠ k) → ∀ x, x ∈ new.xlat.reqs → x.key ≠ k))) ∧
    ((∀ r, r ∈ s.xlat.reqs → r.key = k → (s.time - r.since).toNat < 25000 * (s.inst k.inst).priTimeout.toNat) →
      exec (.priTimeout k) s = .next s) ∧
    (∀ q v, s.sq i q = some v → v.st = .active → s.resolved (.sqFetch i q) = s.setSq i q { v with scanDue := true }) ∧
    -- the enables and the limits
    (∃ new, exec (.priEnableClear i) s = .next new ∧ (new.fn i).pri = false ∧ (∀ r, r ∈ new.xlat.waiting → r.key.inst ≠ i) ∧
      ((∀ r, r ∈ s.xlat.waiting → r.key.inst ≠ i) → new = s.setFn i { f with pri := false })) ∧
    exec (.priEnableSet i) s = .next ((s.setFn i { f with pri := true, priBlocked := f.priBlocked && f.pri }).issueWaiting) ∧
    exec (.outstandingPageRequestAllocation i n) s = .next ((s.setFn i { f with alloc := n }).issueWaiting) ∧
    (s.xlat.waiting = [] → s.issueWaiting = s) ∧
    (
      let e := s.setFn i { f with ats := false }
      exec (.atsEnableClear i) s = .next { e with xlat := { s.xlat with atc := s.xlat.atc.filter fun x => x.1 ≠ i } }) ∧
    exec (.atsInvalidateRequest i pasid (page.extractLsb' 12 52)) s = .next { s with
      xlat := { s.xlat with atc := s.xlat.atc.filter fun x => x ≠ (i, pasid, page.extractLsb' 12 52) }
      out := .invalidated i pasid (page.extractLsb' 12 52) :: s.out }


/-- An event appends a record to the log of the function it is for, sets its pending bit, and is an occurrence on the vector its route names (20 R583,
R585, R586); a vector's occurrences become a message by COUNT and TIME, which a mask, D3hot or a function that may not signal holds
(20 R587-R592). -/
def Obligations.EventsAreRecordedAndSignalled : Prop :=
  ∀ (s : State) (i : BitVec 8) (id : Nat) (d0 d1 : BitVec 64) (v : BitVec 11), id < 1024 →
    let f := s.fn i
    let x := AMap.get f.vectors v Vec.reset
    let route := AMap.get f.evtRoute (BitVec.ofNat 10 id) 0
    let record (n : BitVec 32) (inst : BitVec 8) : EvRec := ⟨BitVec.ofNat 16 id, inst, n, s.time, d0, d1⟩
    let logged := s.setFn i { f with
      evtLog := (if f.evtLog.length < 512 then f.evtLog else f.evtLog.drop 1) ++ [record f.eseq i], eseq := f.eseq + 1
      evtPend := f.evtPend ||| (1#1024 <<< id) }
    let put (y : Vec) : State := s.setFn i { f with vectors := AMap.insert f.vectors v y }
    let due := s.messageDue i v
    let may : Prop := s.glb.phase ≠ .saved ∧ s.glb.phase ≠ .fatal ∧ f.present = true ∧ f.bme = true ∧ ((s.inst i).st = .serving ∨ (s.inst i).st = .quiescing)
    let masked : Prop := x.masked = true ∨ f.fnMask = true
    (s.raiseInst id i d0 d1 = if route.getLsbD 15 then logged.occur i (route.setWidth 11) else logged) ∧
    (512 ≤ id → ∀ m, s.glb.manager = some m → s.raiseDevice id i d0 d1 = s.deliver m (record 0 i)) ∧
    (512 ≤ id → s.glb.manager = none → s.raiseDevice id i d0 d1 = { s with ras := { s.ras with
      holding := (if s.ras.holding.length < 512 then s.ras.holding else s.ras.holding.drop 1) ++ [record s.ras.holdSeq i]
      holdSeq := s.ras.holdSeq + 1 } }) ∧
    -- occurrences and messages
    (x.pending = true → s.occur i v = s) ∧
    (x.pending = false →
      let y := { x with c := x.c + 1, timer := if x.c = 0 then true else x.timer, since := if x.c = 0 then s.time else x.since }
      s.occur i v = if x.time = 0 ∨ x.count ≤ x.c + 1 then (put y).messageDue i v else put y) ∧
    (¬may → due = put { x with timer := false }) ∧
    (may → f.d3hot = true → due = if f.pmeEn then (put { x with timer := false, c := 0, pending := true }).emit (.pme i)
      else put { x with timer := false, c := 0, pending := true }) ∧
    (may → f.d3hot = false → masked → due = put { x with timer := false, c := 0, pending := true }) ∧
    (may → f.d3hot = false → ¬masked → due = (put { x with timer := false, c := 0, pending := false }).emit (.msix i v x.addr x.data)) ∧
    -- the commands of the vectors
    (exec (.moderationTimer i v) s = .next (if x.timer = true ∧ x.c ≠ 0 ∧ 25 * x.time ≤ (s.time - x.since).toNat then due else s)) ∧
    (v.toNat < (if i.toNat % 64 = 0 then 2048 else 64) → exec (.vectorUnmask i (some v)) s = .next (
      if x.pending then (put { x with masked := false }).messageDue i v else put { x with masked := false })) ∧
    ((∀ e, e ∈ f.vectors → e.2.pending = false) → exec (.vectorUnmask i none) s = .next (s.setFn i { f with fnMask := false })) ∧
    (∃ new, exec (.vectorUnmask i none) s = .next new ∧ (new.fn i).fnMask = false)


/-- The write commands check their body and build a write under their tag, bound to the table's generation; nothing of the table changes and no
completion is ready until the commit (04 R114-R124); the jobs that wrap or unwrap pages wait at the eight compression engines in turn, with PRIO 8
(12 R382, R384; that PAGES_PUT's are spread as SEGMENT_WRITE's is the model's choice, log 276). A segment is read whole (04 R123), a FLUSH ends once the writes it noted are durable (04 R128). -/
def Obligations.TableCommandsBuildWrites : Prop :=
  ∀ (s : State) (t : Tag) (c : Cmd),
    let f := c.f
    let tid : BitVec 16 := BitVec.ofNat 16 (f 24 2)
    let col : BitVec 12 := BitVec.ofNat 12 (f 26 2)
    let slot : BitVec 20 := BitVec.ofNat 20 (f 28 4)
    let addr : BitVec 64 := BitVec.ofNat 64 (f 8 8)
    let len := f 16 4
    let rows := f 32 4
    let pasid : Option (BitVec 20) := if f 20 4 < 2 ^ 31 then none else some (BitVec.ofNat 20 (f 20 4))
    let shared : Prop := f 20 4 % 2 ^ 31 < 2 ^ 20 ∧ f 26 2 < 2 ^ 12 ∧ f 28 4 < 2 ^ 20
    let pv : Prop := 2 ^ 31 ≤ f 20 4 → (s.fn t.inst).pasidEn = true
    let first : Prop := ∀ w, w ∈ s.store.writes → w.tag ≠ some t
    let table (tb : Table) : Prop := AMap.find? s.store.tables (t.inst, tid) = some tb ∧ (c.stage = .fetched ∨ c.bound = some tb.gen)
    let known : Prop := (s.inst t.inst).unsynced = false
    let none_ (js : List JobWait) : Prop := js = []
    let jobs (decode : Bool) (js : List JobWait) : Prop :=
      (∀ j, j ∈ js → j.owner = .cmd t ∧ j.prio = 8 ∧ j.decode = decode) ∧ ∀ (k : Nat) j, js[k]? = some j → j.engine = BitVec.ofNat 3 k
    let builds (i : Instr) (kind : WriteKind) (gen : Nat) (P : Write → Prop) (J : List JobWait → Prop) : Prop := ∃ new w js, exec i s = .next new ∧
      J js ∧
      new.store = { s.store with writes := s.store.writes ++ [w] } ∧ w.tag = some t ∧ w.inst = t.inst ∧ w.kind = kind ∧ w.tid = tid ∧
      w.boundGen = gen ∧ w.fua = c.fua ∧ w.phase = .built ∧ P w ∧
      (∀ u, u ≠ t → new.cmd? u = s.cmd? u) ∧ (∃ d, new.cmd? t = some d ∧ d.stage = .begun) ∧
      new = { s with
        rings := { s.rings with cmds := new.rings.cmds }, store := new.store, disp := { s.disp with jobq := s.disp.jobq ++ js }
        xlat := { s.xlat with faults := new.xlat.faults, atc := new.xlat.atc } }
    let room (pages entries tables : Nat) : Prop := s.quotaFits t.inst pages entries tables = true
    (∀ bs cols, Runs s t 0x40 c → first → c.clean [(8, 8), (16, 4), (20, 4), (24, 2)] = true → shared → pv → len % 4 = 0 → 4 ≤ len → len ≤ 16384 →
      bs.length = len → parseCols bs = some cols → room 0 0 1 → builds (.tableCreate t (.data bs)) .create 0 (fun w => w.cols = cols) none_ ∧
      ∀ k, k < len / 4 → cols[k]? = some ⟨bs.getD (4 * k) 0, bs.getD (4 * k + 1) 0⟩) ∧
    (Runs s t 0x41 c → first → c.clean [(24, 2)] = true →
      (∀ tb, AMap.find? s.store.tables (t.inst, tid) = some tb → builds (.tableDrop t) .drop tb.gen (fun _ => True) none_) ∧
      (known → AMap.find? s.store.tables (t.inst, tid) = none → Ends s (.tableDrop t) t 0x0801 0 s)) ∧
    (Runs s t 0x4B c → first → c.clean [(24, 8)] = true → shared →
      (∀ tb, AMap.find? s.store.tables (t.inst, tid) = some tb →
        builds (.segmentDelete t) .empty tb.gen (fun w => w.col = col ∧ w.slot = slot) none_) ∧
      (known → AMap.find? s.store.tables (t.inst, tid) = none → Ends s (.segmentDelete t) t 0x0801 0 s)) ∧
    (∀ tb ty vals vmap offs bs m o, Runs s t 0x48 c → first → f 38 2 = 0 → f 56 8 = 0 → shared → pv → f 36 1 < 64 → f 37 1 < 16 → 1 ≤ rows →
      rows ≤ 4194304 → table tb → tb.cols[col.toNat]? = some ty →
      let kind := ty.ty.toNat
      hintBad kind (f 36 1 % 16) (f 36 1 / 16) (f 37 1) = false → (isStr kind = true → f 48 8 ≠ 0) →
      (isStr kind = false → f 48 8 = 0 ∧ len = rows * tyBytes kind) → vals = .data bs → bs.length = len →
      (f 40 8 ≠ 0 → vmap = .data m ∧ m.length = (rows + 7) / 8) → (isStr kind = true → offs = .data o ∧ o.length = 4 * (rows + 1)) →
      let valid := if f 40 8 = 0 then List.replicate rows true else (bitsOf m).take rows
      let read := if isStr kind then rawStrings valid ((chunks 4 (rows + 2) o).map leNat) bs else rawFixed kind valid bs
      ∀ vs, read = some vs →
        let made := buildSegment kind col.toNat (f 36 1 % 16) (f 36 1 / 16) (if f 37 1 = 0 then 3 else f 37 1) vs
        made.1.length ≤ 4194304 → made.2 ≤ 65536 → room ((made.1.length + 65535) / 65536) 1 0 →
        builds (.segmentWrite t vals vmap offs) .install tb.gen (fun w => w.col = col ∧ w.slot = slot ∧ w.seg = made.1 ∧ w.rows = rows ∧
          w.result = BitVec.ofNat 64 (made.1.length + 2 ^ 32 * made.2)) fun js => jobs false js ∧ (f 36 1 / 16 = 0 → js = [])) ∧
    (∀ tb ty bs pages, Runs s t 0x49 c → first → c.clean [(8, 28)] = true → shared → pv → 1 ≤ rows → rows ≤ 4194304 → len % 64 = 0 → 64 ≤ len →
      len ≤ 4194304 → table tb → tb.cols[col.toNat]? = some ty → bs.length = len →
      (checkSegment ty.ty.toNat col.toNat rows bs = .ok pages → room ((len + 65535) / 65536) 1 0 →
        builds (.pagesPut t (.data bs)) .install tb.gen (fun w => w.col = col ∧ w.slot = slot ∧ w.seg = bs ∧ w.rows = rows ∧ w.result = 0)
          (jobs true)) ∧
      (checkSegment ty.ty.toNat col.toNat rows bs = .fieldInvalid → ∃ e, Ends s (.pagesPut t (.data bs)) t 0x0801 0 e ∧ e.store = s.store) ∧
      (checkSegment ty.ty.toNat col.toNat rows bs = .integrity →
        ∃ e, Ends s (.pagesPut t (.data bs)) t 0x1002 0 e ∧ e.store = s.store ∧ e.ras = s.ras)) ∧
    (∀ tb n g acc, Runs s t 0x4A c → c.clean [(8, 24)] = true → shared → pv → AMap.find? s.store.reads t = none →
      AMap.find? s.store.tables (t.inst, tid) = some tb → col.toNat < tb.cols.length → AMap.find? tb.cells (col, slot) = some n →
      AMap.find? s.store.segs n = some g → g.rebuild = false → g.repair = [] → s.accOf t.inst acc = .ok →
      let kept := State.gcSegs { s with store := { s.store with reads := AMap.erase s.store.reads t } }
      (len < g.bytes.length → Ends s (.segmentRead t acc) t 0x0801 (BitVec.ofNat 64 g.bytes.length) kept) ∧
      (g.bytes.length ≤ len →
        (g.lost = true ∨ g.poison ≠ [] → Ends s (.segmentRead t acc) t 0x1001 0 kept) ∧
        (g.lost = false → g.poison = [] → crcsOk (g.bytes.length / 64 + 1) g.bytes = true → Ends s (.segmentRead t acc) t 0 (BitVec.ofNat 64 g.bytes.length)
          (kept.dataWrite t.inst pasid addr g.bytes)) ∧
        (g.lost = false → g.poison = [] → crcsOk (g.bytes.length / 64 + 1) g.bytes = false →
          ∃ e, Ends s (.segmentRead t acc) t 0x1002 0 e ∧ e.store = kept.store))) ∧
    (∀ l, Runs s t 0x4C c → c.clean [] = true → AMap.find? s.store.flushes t = some l → (∀ e, e ∈ s.store.flushes → e.1 = t → e.2 = l) →
      let left : Prop := ∃ w, w ∈ s.store.writes ∧ w.no ∈ l ∧ w.phase = .committed ∧ ¬(w.localDurable = true ∧ w.partnerDurable = true)
      ∃ new d, exec (.flush t) s = .next new ∧ new.cmd? t = some d ∧ (left → d.stage = .begun) ∧ (¬left → d.stage = .finished) ∧
        (s.store.flushes = [(t, l)] → ¬left →
          Ended { s with store := { s.store with flushes := [] } } t 0 0 [] new))

/-- A built write commits, once no job of its pages waits (12 R380): the change of the segment map is visible at once, the table's order goes up by
one, and on an engine that needs no partner its command ends, with FUA only once the commit is durable (02 R52-R54; 04 R114-R116, R124-R128). -/
def Obligations.WritesCommitAndBecomeDurable : Prop :=
  ∀ (s : State) (t : Tag) (w : Write),
    let key := (w.inst, w.tid)
    let cell := (w.col, w.slot)
    let found (u : State) : Option Table := AMap.find? u.store.tables key
    let ends (new : State) : Prop := w.fua = false → w.completed = false → ∀ c, s.cmd? t = some c → ∃ d, new.cmd? t = some d ∧ d.stage = .finished
    (s.jobsWait t = true → exec (.writeCommit t) s = .next s) ∧
    (s.glb.phase = .ready → s.jobsWait t = false → s.pair.role ∉ [Role.fenced, .joining, .paired] → s.forwards w = false →
      s.store.writes.find? (fun x => x.tag == some t) = some w → w.phase = .built ∨ w.phase = .admitted →
      (w.kind = .create → found s = none → (s.store.tables.filter fun e => e.1.1 = w.inst).length < 65536 → s.store.tables.length < 1048576 →
        ∃ new tb, exec (.writeCommit t) s = .next new ∧ ends new ∧ found new = some tb ∧
          tb.cols = w.cols ∧ tb.cells = [] ∧ tb.gen = s.store.nextGen ∧ new.store.nextGen = s.store.nextGen + 1) ∧
      (∀ tb, w.kind = .drop → found s = some tb → tb.gen = w.boundGen → ∃ new, exec (.writeCommit t) s = .next new ∧ ends new ∧ found new = none) ∧
      (∀ tb, w.kind = .install → found s = some tb → tb.gen = w.boundGen → w.col.toNat < tb.cols.length →
        (∀ e g, e ∈ tb.cells → e.1.2 = w.slot → e.1.1 ≠ w.col → AMap.find? s.store.segs e.2 = some g → g.rows = w.rows) →
        ∃ new g, exec (.writeCommit t) s = .next new ∧ ends new ∧
          found new = some { tb with cells := AMap.insert tb.cells cell s.store.nextSeg, cseq := tb.cseq + 1 } ∧
          AMap.find? new.store.segs s.store.nextSeg = some g ∧ g.bytes = w.seg ∧ g.rows = w.rows ∧ g.inst = w.inst ∧ g.lost = false) ∧
      (∀ tb, w.kind = .empty → found s = some tb → tb.gen = w.boundGen → w.col.toNat < tb.cols.length →
        ∃ new, exec (.writeCommit t) s = .next new ∧ ends new ∧ found new = some { tb with cells := AMap.erase tb.cells cell, cseq := tb.cseq + 1 }) ∧
      (w.kind ≠ .create → (∀ tb, found s = some tb → tb.gen ≠ w.boundGen) → ∃ new, exec (.writeCommit t) s = .next new ∧ new.store.tables = s.store.tables ∧
        ∀ c, s.cmd? t = some c → ∃ d, new.cmd? t = some d ∧ d.stage = .finished)) ∧
    -- on a pair, a write to a table of the partner goes to it, and a new table is admitted first (18 R542, R543)
    (s.glb.phase = .ready → s.jobsWait t = false → s.pair.role = .paired → s.store.writes.find? (fun x => x.tag == some t) = some w → w.phase = .built →
      (w.kind ≠ .create → (∀ tb, found s = some tb → tb.gen ≠ w.boundGen) → ∃ new, exec (.writeCommit t) s = .next new ∧ new.store.tables = s.store.tables ∧
        ∀ c, s.cmd? t = some c → ∃ d, new.cmd? t = some d ∧ d.stage = .finished) ∧
      (∀ tb, found s = some tb → tb.home = false → w.kind = .create ∨ tb.gen = w.boundGen → ∃ new, exec (.writeCommit t) s = .next new ∧ new.store.tables = s.store.tables ∧
        (∃ x, x ∈ new.store.writes ∧ x.tag = some t ∧ x.phase = .forwarded ∧ x.fwdId = some s.pair.fwdId) ∧ new.pair.fwdId = s.pair.fwdId + 1) ∧
      (found s = none → w.kind = .create → s.pair.lead = false → ∃ new, exec (.writeCommit t) s = .next new ∧ new.store.tables = s.store.tables ∧
        (∃ x, x ∈ new.store.writes ∧ x.tag = some t ∧ x.phase = .admitting ∧ x.reqId = some s.pair.reqId) ∧ new.pair.reqId = s.pair.reqId + 1)) ∧
    (∀ seq, s.store.writes.find? (fun x => x.no == seq && x.phase == .committed && !x.localDurable) = some w →
      let behind : Prop := ∃ x, x ∈ s.store.writes ∧ x.phase = .committed ∧ x.inst = w.inst ∧ x.tid = w.tid ∧ x.localDurable = false ∧ x.no < w.no
      (behind → exec (.writeDurable seq) s = .next s) ∧
      (¬behind → ∃ new, exec (.writeDurable seq) s = .next new ∧ new.store.tables = s.store.tables ∧
        (∀ x, x ∈ new.store.writes → x.no = seq → x.phase = .committed → x.localDurable = true) ∧
        (w.tag = some t → w.applied = true → w.completed = false → w.partnerDurable = true →
          ∀ c, s.cmd? t = some c → ∃ d, new.cmd? t = some d ∧ d.stage = .finished)))

/-- Images are loaded and unloaded by handle (05 R158-R160); a query is submitted, staged, validated, admitted in the order of PRIO and fetch, and ends
(05 R155, R161-R164, R168, R179; 15 R462; 07 R237): the state the query enters, the CSW written, the contexts taken and released. -/
def Obligations.QueriesAreValidatedRunAndEnded : Prop :=
  ∀ (s : State) (t : Tag) (c : Cmd) (acc : HostAcc),
    let f := c.f
    let v := s.inst t.inst
    let pasid : Option (BitVec 20) := if f 20 4 < 2 ^ 31 then none else some (BitVec.ofNat 20 (f 20 4))
    let pv : Prop := 2 ^ 31 ≤ f 20 4 → (s.fn t.inst).pasidEn = true
    let addr : BitVec 64 := BitVec.ofNat 64 (f 8 8)
    let len := f 16 4
    let inline : Prop := f 24 1 / 16 % 2 = 0
    let wrote (u : State) (q : Query) : State := u.orderedWrite t.inst q.pasid q.cswAddr q.csw
    let through : Prop := s.accOf t.inst acc = .ok ∧ s.waitsFor (.csw t) = false
    let only (q : Query) : Prop := s.query? t = some q ∧ ∀ p, p ∈ s.queries → p.tag = t → p = q
    let gone (new : State) : Prop := (∀ x, x ∈ new.disp.items → x.query ≠ t) ∧ (∀ x, x ∈ new.streams → x.1.query ≠ t) ∧
      ∀ x, x ∈ new.disp.flows → x.1.1 ≠ t
    let ended (new : State) (q : Query) (status : BitVec 15) : Prop := gone new ∧ ∃ p, new.query? t = some p ∧ p.st = .done ∧
      p.status = status ∧ p.finished = s.time ∧ (q.noCsw = false → q.cswAddr.toNat % 4096 + p.csw.length ≤ 4096 →
        ∃ a, Sent.hostWrite t.inst q.pasid q.cswAddr p.csw a ∈ new.out ∧ a.relaxed = false) ∧
      ∀ d, s.cmd? t = some d → ∃ e, new.cmd? t = some e ∧ e.stage = .finished
    (Runs s t 0x50 c → c.clean [(8, 8), (16, 4), (20, 4)] = true → f 20 4 % 2 ^ 31 < 2 ^ 20 → pv → len % 64 = 0 → 128 ≤ len → len ≤ 16777216 →
      (v.images.length < 1024 → s.quotaFits t.inst ((len + 65535) / 65536) 0 0 = true → ∀ bs : Bytes, bs.length = len →
        let read := s.accessed t.inst pasid addr len false
        (imageErr bs len none = none → ∃ e, Ends s (.imageLoad t (.data bs)) t 0 (v.nextHandle.setWidth 64) e ∧
          e = { read.setInst t.inst { v with images := (v.nextHandle, bs) :: v.images, nextHandle := v.nextHandle + 1 } with
            dram := { s.dram with poison := e.dram.poison } } ∧
          ∀ a, a ∈ e.dram.poison ↔ a ∈ s.dram.poison ∧ a ∉ imageLines t.inst v.nextHandle bs) ∧
        (∀ why at_, imageErr bs len none = some (why, at_) → Ends s (.imageLoad t (.data bs)) t
          (if why = 2 then 0x1002 else if why = 13 then 0x1801 else 0x0801) (BitVec.ofNat 64 (at_ + 65536 * why)) read)) ∧
      (1024 ≤ v.images.length → ∀ src, Ends s (.imageLoad t src) t 0x1801 0xDFFFF s)) ∧
    (Runs s t 0x51 c → c.clean [(16, 4)] = true →
      let h : BitVec 32 := BitVec.ofNat 32 len
      if (AMap.find? v.images h).isSome then Ends s (.imageUnload t) t 0 0 (s.setInst t.inst { v with images := AMap.erase v.images h })
      else Ends s (.imageUnload t) t 0x0801 0 s) ∧
    (Runs s t 0x52 c → s.query? t = none → pv → f 56 8 ≠ 0 → f 56 8 % 32 = 0 → through →
      let handle := AMap.find? v.images (addr.setWidth 32)
      let made (q : Query) : Prop := q.tag = t ∧ q.st = .validating ∧ q.raw = (if inline then none else handle) ∧ q.prio = BitVec.ofNat 4 (f 24 1) ∧
        q.deadline = BitVec.ofNat 32 (f 28 4) ∧ q.fetched = c.time ∧ q.cswAddr = BitVec.ofNat 64 (f 56 8) ∧ q.pasid = pasid ∧ q.qid = none ∧ q.status = 0
      let lost : Prop := ¬inline ∧ ∃ bs a, handle = some bs ∧ a ∈ imageLines t.inst (addr.setWidth 32) bs ∧ a ∈ s.dram.poison
      (bodyErr c handle = none → lost → ∃ new p d, exec (.querySubmit t acc) s = .next new ∧ new.query? t = some p ∧ p.st = .done ∧
        p.status = 0x1001 ∧ new.cmd? t = some d ∧ d.stage = .finished) ∧
      (bodyErr c handle = none → ¬lost → ∃ new q, exec (.querySubmit t acc) s = .next new ∧ made q ∧ new.queries = s.queries ++ [q] ∧
        new = wrote { s with queries := new.queries, rings := { s.rings with cmds := new.rings.cmds } } q) ∧
      (∀ why at_, bodyErr c handle = some (why, at_) → ∃ new p d, exec (.querySubmit t acc) s = .next new ∧ new.query? t = some p ∧ p.st = .done ∧
        p.reason = BitVec.ofNat 16 why ∧ p.index = BitVec.ofNat 16 at_ ∧ new.cmd? t = some d ∧ d.stage = .finished)) ∧
    (∀ q, only q → s.cmd? t = some c → q.st = .validating → q.pods = [] → q.qid = none → s.waitsFor (.query t) = false →
      (inline → q.raw = none → q.staged = 0 → (∀ p d, p ∈ s.queries → p.st = .validating → p.raw = none → p.staged = 0 → p.no < q.no →
          s.cmd? p.tag = some d → d.byHandle = true) → s.stagingUse + len ≤ 2 ^ 28 → ∀ bs : Bytes, bs.length = len →
        ∃ new, exec (.stagingCopy t (.data bs)) s = .next new ∧ new.query? t = some { q with staged := len, raw := some bs }) ∧
      (∀ bs ps xs (heads : List HostRead) (chains : List Chain), q.raw = some bs → imageErr bs (if inline then len else bs.length) none = none →
        let im := readImage bs
        let addrs := BitVec.ofNat 64 (f 40 8) :: (entries 8 (im.nChains - 1) xs).map fun b => BitVec.ofNat 64 (leNat b)
        (f 32 8 = 0 ↔ im.paramSize = 0) → (f 48 8 = 0 ↔ im.nChains = 1) → (im.paramSize = 0 → ps = []) → (ps : Bytes).length = im.paramSize →
        (im.nChains ≠ 1 → (xs : Bytes).length = 8 * (im.nChains - 1)) → paramsErr im (some ps) = none →
        (∀ a, a ∈ addrs → a ≠ 0 ∧ a.toNat % 32 = 0) → heads.length = addrs.length → chains.length = addrs.length →
        (∀ (k : Nat) a, addrs[k]? = some a → ∃ d ch, heads[k]? = some (HostRead.data d) ∧ d.length = 32 ∧ readDesc a d = some ch ∧ chains[k]? = some ch) →
        im.flows ≤ v.maxFlows.toNat →
        let i := Instr.queryValidated t (.data ps) (.data xs) heads acc
        let p := { q with image := some im, params := ps, chains := chains }
        (s.contextsFree q im = false ∨ v.unsynced = true → through → q.noCsw = false → ∃ u : State,
          exec i s = .next (wrote u { p with st := .waiting }) ∧ u.query? t = some { p with st := .waiting } ∧
          u = { s with queries := u.queries, xlat := { s.xlat with faults := u.xlat.faults, atc := u.xlat.atc } }) ∧
        (s.contextsFree q im = true → v.unsynced = false → ∃ u : State, exec i s = .next (u.admitQuery t acc) ∧ u.query? t = some p ∧
          u = { s with queries := u.queries, xlat := { s.xlat with faults := u.xlat.faults, atc := u.xlat.atc } })) ∧
      (∀ bs why at_, q.raw = some bs → imageErr bs (if inline then len else bs.length) none = some (why, at_) → ∀ ps xs heads,
        ∃ new r, exec (.queryValidated t ps xs heads acc) s = .next new ∧ gone new ∧ new.query? t = some r ∧ r.st = .done ∧
          r.reason = BitVec.ofNat 16 why ∧ r.index = BitVec.ofNat 16 at_)) ∧
    (∀ q im, only q → q.image = some im →
      let pods := (List.range im.asas.length).zip s.freePods
      (im.asas ≠ [] → im.asas.length ≤ s.freePods.length → ∃ p, (s.admitQuery t acc).query? t = some p ∧ p.st = q.st ∧
        p.snap = s.tablesOf t.inst ∧ p.pods = pods.map (fun e => (BitVec.ofNat 8 e.1, e.2)) ∧ ∀ k pod a, im.asas[k]? = some a → s.freePods[k]? = some pod →
          ((s.admitQuery t acc).pod pod).st = .loading ∧ ((s.admitQuery t acc).pod pod).owner = some (t, BitVec.ofNat 8 k)) ∧
      (q.st = .waiting → q.qid = none →
        (∀ p, p ∈ s.queries → p.st = .waiting → p.qid = none → ¬(p.prio.toNat < q.prio.toNat ∨ (p.prio = q.prio ∧ p.no < q.no))) →
        exec (.queryAdmit t acc) s = .next (if s.contextsFree q im = true ∧ v.unsynced = false then s.admitQuery t acc else s)) ∧
      (q.st = .running → (∀ k, k ∈ im.outputs → ∃ x, s.op? t (BitVec.ofNat 16 k) = some x ∧ x.ended = true) → s.awaitsClose q im = false → through →
        ∃ new, exec (.queryFinish t acc) s = .next new ∧ ended new q (
          if q.deadline ≠ 0 ∧ 25 * q.deadline.toNat < (s.time - q.fetched).toNat then 0x2801 else 0)) ∧
      (q.st = .running ∨ q.st = .paused → ∃ new p, exec (.deadlineSweep t) s = .next new ∧ new.query? t = some p ∧
        if q.deadline ≠ 0 ∧ 25 * q.deadline.toNat ≤ (s.time - q.fetched).toNat then
          p.status = 0x2801 ∧ if s.outputsOver q then p.st = .done else
            p.st = .stopping ∧ ∀ x, x ∈ new.disp.items → x.query = t → x.st = .running
        else new = s)) ∧
    (∀ q, only q → q.st = .stopping → (∀ x, x ∈ s.disp.items → x.query = t → x.st ≠ .running) → through →
      ∃ new, exec (.queryStopped t acc) s = .next new ∧ ended new q q.status)

/-- CHAIN_RESUME and the LINK reads (05 R172-R177): a paused query's chains at END that now have a next descriptor go on with it, and the query runs
again once none is at END; a chain whose LINK has END set pauses its query, the CSW first, then CHAIN_END (20 R584). -/
def Obligations.ChainsPauseAndResume : Prop :=
  ∀ (s : State) (t : Tag) (c : Cmd) (acc : HostAcc),
    (Runs s t 0x53 c → c.clean [(16, 4)] = true → c.f 16 2 < 4096 →
      let target : Tag := ⟨t.inst, BitVec.ofNat 12 (c.f 16 2), BitVec.ofNat 16 (c.f 18 2)⟩
      (s.sq t.inst target.sqid = none → ∀ links, Ends s (.chainResume t links acc) t 0x0801 0 s) ∧
      ((s.sq t.inst target.sqid).isSome = true →
        (s.query? target = none → ∀ links, Ends s (.chainResume t links acc) t 0
          (match s.cmd? target with
            | some d => if d.opcode = 0x52 then 1 else 0
            | none => 0) s) ∧
        (∀ q, s.query? target = some q → q.st ≠ .paused → ∀ links, Ends s (.chainResume t links acc) t 0 1 s) ∧
        (∀ q links, s.query? target = some q → (∀ p, p ∈ s.queries → p.tag = target → p = q) → q.st = .paused →
          s.accOf t.inst acc = .ok →
          let held := positions (fun (x : Chain) => x.atEnd) q.chains
          let mask := (held.map fun n => 2 ^ n).sum
          (∀ n, n ∈ held → ∃ l, (links : List LinkRead).find? (fun x => x.chain.toNat == n) = some l ∧
            ∀ ch, q.chains[n]? = some ch → s.readLink t.inst ch l = .endsHere) →
            Ends s (.chainResume t links acc) t 0 (BitVec.ofNat 64 (2 + 2 ^ 32 * mask)) (held.foldl (fun u n =>
              ((links.find? fun x => x.chain.toNat == n).bind fun l => q.chains[n]?.map fun ch => u.linkSeen q ch l).getD u) s)) ∧
        (∀ q links, s.query? target = some q → (∀ p, p ∈ s.queries → p.tag = target → p = q) → q.st = .paused →
          s.accOf t.inst acc = .ok →
          let held := positions (fun (x : Chain) => x.atEnd) q.chains
          let mask := (held.map fun n => 2 ^ n).sum
          held ≠ [] → (∀ n, n ∈ held → ∃ l ch d, (links : List LinkRead).find? (fun x => x.chain.toNat == n) = some l ∧
            q.chains[n]? = some ch ∧ s.readLink t.inst ch l = .enters d) →
            ∃ e p, Ends s (.chainResume t links acc) t 0 (BitVec.ofNat 64 (2 + 2 ^ 16 * mask)) e ∧ e.query? target = some p ∧ p.st = .running ∧
              ∀ n l ch d, n ∈ held → (links : List LinkRead).find? (fun x => x.chain.toNat == n) = some l → q.chains[n]? = some ch →
                s.readLink t.inst ch l = .enters d → p.chains[n]? = some d))) ∧
    (∀ q l ch, s.query? t = some q → (∀ p, p ∈ s.queries → p.tag = t → p = q) → q.st = .running ∨ q.st = .paused → q.chains[l.chain.toNat]? = some ch →
      ch.linkDue = true → ch.atEnd = false →
      (s.readLink t.inst ch l = .endsHere → s.accOf t.inst acc = .ok → s.waitsFor (.csw t) = false → q.noCsw = false →
        let p : Query := { q with
          chains := q.chains.set l.chain.toNat { ch with atEnd := true, linkDue := false, linkWait := false }
          st := .paused, pauses := if q.st = .running then q.pauses + 1 else q.pauses }
        let u : State := { s.linkSeen q ch l with queries := s.queries.map fun x => if x.tag = t then p else x }
        exec (.linkRead t l acc) s = .next (State.raiseInst (u.orderedWrite t.inst q.pasid q.cswAddr p.csw)
          514 t.inst (BitVec.ofNat 64 (t.sqid.toNat + 65536 * t.cid.toNat)) (BitVec.ofNat 64 p.pausedMask))) ∧
      (∀ d, s.readLink t.inst ch l = .enters d → exec (.linkRead t l acc) s =
        .next { s.linkSeen q ch l with queries := s.queries.map fun x => if x.tag = t then { q with chains := q.chains.set l.chain.toNat d } else x }) ∧
      (s.readLink t.inst ch l = .bad ∨ s.readLink t.inst ch l = .broken → ∃ new p, exec (.linkRead t l acc) s = .next new ∧
        new.query? t = some p ∧ p.st = .stopping ∧ p.status = 0x0801 ∧ p.reason = 12 ∧ p.index = BitVec.ofNat 16 l.chain.toNat) ∧
      (s.readLink t.inst ch l = .lost → ∃ new p, exec (.linkRead t l acc) s = .next new ∧ new.query? t = some p ∧ p.st = .stopping ∧
        p.status = 0x3001))

/-- Work items (07 R217-R236, R238): which item a flow generates, which item a slot takes, what starting, recalling, preempting, parking, unparking and
ending leave of the item and of its runner. A running item that a preemption has told to stop ends where its range is complete, and else stops at an
element boundary, now or by a later PREEMPTION (R233). -/
def Obligations.ItemsAreGeneratedRunAndEnded : Prop :=
  ∀ (s : State) (t : Tag) (op : BitVec 16) (flow : BitVec 8) (r : Runner),
    let one (u : State) (n : Nat) (st : ItemState) : Prop := ∀ x, x ∈ u.disp.items → x.id = n → x.st = st
    let fallen (q : Query) : Prop := q.deadline ≠ 0 ∧ 25 * q.deadline.toNat ≤ (s.time - q.fetched).toNat
    -- generation
    (∀ q im o c fl, s.query? t = some q → q.st = .running ∨ q.st = .paused → q.opOf op = some (im, o) → s.op? t op = some c → c.ended = false →
      s.disp.items.length < 262144 → AMap.find? s.disp.flows (t, op, flow) = some fl →
      let i := Instr.itemGenerate t op flow
      (o.code = 0x01 → ∀ slot lo n, (s.scanRanges q im o)[s.cursor t op 0]? = some (slot, lo, n) →
        exec i s = .next (s.newItem q o op flow (BitVec.ofNat 64 (lo + 2 ^ 22 * slot.toNat)) n [])) ∧
      (o.code = 0x10 → o.p 6 1 = 0xFF →
        let n := s.cursor t op 0
        let total := computeTotal im q.params o
        exec i s = .next (if n * o.itemElems < total then
          s.newItem q o op 0 (BitVec.ofNat 64 (n * o.itemElems)) (if o.itemElems ≤ total - n * o.itemElems then o.itemElems else total - n * o.itemElems) []
          else s)) ∧
      (o.code ∉ [0x01, 0x10, 0x31, 0x48] → (o.code = 0x33 → limitDone im q.params o c = false) → o.fedFlow flow = true →
        exec i s = .next (if s.hungryItems q op flow < s.unclaimedIn q o then s.newItem q o op flow 0 65536 [] else s))) ∧
    (∀ q o fl origin count out, AMap.find? s.disp.flows (q.tag, op, flow) = some fl →
      let new := s.newItem q o op flow origin count out
      ∃ i, new.disp.items = s.disp.items ++ [i] ∧ i.id = s.disp.nextItem ∧ new.disp.nextItem = s.disp.nextItem + 1 ∧
        new.disp.generated = s.disp.generated ++ [i.id] ∧ i.st = .ready ∧ i.query = q.tag ∧ i.op = op ∧ i.flow = flow ∧ i.flowNo = fl.number ∧
        i.prio = q.prio ∧ i.preempt = o.preempt ∧ i.atomic = fl.atomic ∧ i.origin = origin ∧ i.count = count ∧ i.progress = 0 ∧ i.lastStop = 0 ∧
        new.cursor q.tag op flow = s.cursor q.tag op flow + 1) ∧
    -- the slot
    (∀ i, let u := s.refill
      (u.runner r).slot = none → u.nextFor r = some i → ∃ new, exec (.slotFill r i.id) s = .next new ∧ (new.runner r).slot = some i.id ∧
        (new.runner r).running = (s.runner r).running ∧ one new i.id .slotted ∧ i.id ∉ new.disp.returned ∧ i.id ∉ new.disp.generated ∧
        (∀ x, x ≠ r → new.runner x = s.runner x)) ∧
    (∀ i j, s.slotted? r = some i → s.item? j.id = some j → s.eligible j = true → s.usable r j = true → j.prio.toNat < i.prio.toNat →
      (∀ x, x ∈ s.runners → s.usable x j = true → ∃ p, s.slotted? x = some p ∧
        (p.prio.toNat < i.prio.toNat ∨ (p.prio = i.prio ∧ (s.runner x).slottedAt ≤ (s.runner r).slottedAt))) →
      ∃ new, exec (.recall r j.id) s = .next new ∧ (new.runner r).slot = none ∧ one new i.id .ready ∧
        new.disp.returned = s.disp.returned ++ [i.id] ∧ ∀ x, x ∈ new.disp.items → x.id = i.id → x.lastStop = 6 ∧ x.since = s.time) ∧
    (∀ i q, s.slotted? r = some i → (s.runner r).running = none → s.inService r = true → s.query? i.query = some q → ¬fallen q →
      (r.kind ≠ .ec → ∃ new, exec (.itemTake r) s = .next new ∧ (new.runner r).running = some i.id ∧ (new.runner r).slot = none ∧
        (new.runner r).startedAt = s.disp.clock ∧ one new i.id .running ∧ new.cores = s.cores) ∧
      (∀ im o d, r.kind = .ec → (s.core (ecOf r)).mode = 1 → (s.core (ecOf r)).halted = false → q.opOf i.op = some (im, o) → o.code = 0x10 →
        AMap.find? s.cores.saved i.id = none → im.kernels[o.kernel.toNat]? = some d →
        ∃ new, exec (.itemTake r) s = .next new ∧ (new.runner r).running = some i.id ∧ one new i.id .running ∧
          let c := new.core (ecOf r)
          c.mode = 0 ∧ c.pc = (0x100000000 + d.entry.setWidth 64) &&& ~~~3#64 ∧ c.gm = false ∧ c.item = some i.id ∧ c.itemOrigin = i.origin ∧
          c.itemCount = BitVec.ofNat 64 i.count ∧ c.getX 31 = 0xFFFFFFFFFFFFFFF0 ∧ c.getX 30 = BitVec.ofNat 64 (1024 * d.scratchKib.toNat) ∧
          (∀ n, n ≠ 31 → n ≠ 30 → n ≠ 3 → c.getX n = 0) ∧ (∀ n, c.getV n = 0) ∧ c.vl = 0 ∧ c.sew = 0 ∧ c.vprog = 0 ∧ c.fflags = 0 ∧
          c.lcount0 = 0 ∧ c.lcount1 = 0 ∧ c.code = d.code)) ∧
    -- stopping and parking
    (∀ p i, s.running? r = some p → s.item? i.id = some i → s.eligible i = true →
      (∀ x, x ∈ s.runners → s.usable x i = true → (s.runner x).slot.isSome = true ∧ (s.runner x).running.isSome = true) →
      s.preemptTarget i = some r → (s.nextFor r).map (·.id) = some i.id → (s.runner r).slot ≠ some i.id →
      let u := (s.recallSlot r).slotItem r i
      (u.runner r).slot = some i.id ∧ (u.runner r).running = some p.id ∧ one u i.id .slotted ∧
      exec (.preemption r i.id) s = .next ((u.setRunner r { u.runner r with stopDue := true }).stopDueItem r p)) ∧
    (∀ p n, s.running? r = some p → (s.runner r).stopDue = true → (s.runner r).slot = some n → (s.item? n).isSome = true →
      exec (.preemption r n) s = .next (s.stopDueItem r p)) ∧
    (∀ p q, s.query? p.query = some q →
      (q.st ≠ .stopping →
        (∀ u, s.endRange r = some u → s.stopDueItem r p = u) ∧
        (s.endRange r = none → s.atBoundary r p = true →
          s.stopDueItem r p = ((s.leaveRunner r p true).returnItem p.id 1).settle p.query) ∧
        (s.endRange r = none → s.atBoundary r p = false → s.stopDueItem r p = s)) ∧
      (q.st = .stopping → s.stopDueItem r p = if s.atBoundary r p then s.endStopping r p q else s)) ∧
    (∀ n why, let new := s.returnItem n why
      one new n .ready ∧ new.disp.returned = s.disp.returned ++ [n] ∧ ∀ x, x ∈ new.disp.items → x.id = n → x.lastStop = why ∧ x.since = s.time) ∧
    (∀ i q im o c cause, s.service r = some (i, q, im, o, c) → s.causeHolds q o i c cause = true → s.atBoundary r i = true →
      -- the wait on the runner counts: a kernel's from its first refusal on, 50 counts (2 us) at least where the stall limit has passed
      let waited (counts : BitVec 64) : State := if cause = .stream ∧ i.stall.isSome = true then s.endStall i.id counts
        else if counts = 0 then s else s.addTotal q.tag cause.total counts
      let left (counts : BitVec 64) : State := ((waited counts).leaveRunner r i false).parkItem i.id cause cause.lastStop
      (q.st ≠ .stopping →
        ((∀ page write, cause ≠ .page page write) → exec (.itemPark r cause) s = .next (((left 0).deadlineCheck q.tag).settle q.tag)) ∧
        (∀ page write, cause = .page page write → exec (.itemPark r cause) s =
          .next ((((left 0).hostFault q.tag.inst q.pasid page write (.item i.id)).deadlineCheck q.tag).settle q.tag)) ∧
        (cause = .stream ∨ cause = .memhold → exec (.stallYield r cause) s = .next (((left 50).deadlineCheck q.tag).settle q.tag)) ∧
        one (left 0) i.id .parked ∧ ((left 0).runner r).running = none ∧ one (left 50) i.id .parked ∧ ((left 50).runner r).running = none) ∧
      (q.st = .stopping → exec (.itemPark r cause) s = .next (s.endStopping r i q) ∧
        (cause = .stream ∨ cause = .memhold → exec (.stallYield r cause) s = .next (s.endStopping r i q)))) ∧
    (∀ i q im o c, s.item? i.id = some i → s.query? i.query = some q → q.opOf i.op = some (im, o) → s.op? i.query i.op = some c → i.st = .parked →
      s.causeOver q o i c i.cause = true → ¬fallen q →
      ∃ new p, exec (.itemUnpark i.id) s = .next new ∧ one new i.id .ready ∧ new.disp.returned = s.disp.returned ++ [i.id] ∧ new.query? i.query = some p ∧
        ∀ cause, i.cause = some cause → p.totals = q.totals.set cause.total (q.totals.getD cause.total 0 + 40 * (s.time - i.since))) ∧
    -- ending
    (∀ i q im o c, s.service r = some (i, q, im, o, c) → q.st ≠ .stopping → o.code ≠ 0x10 → s.rangeDone q im o i c = true →
      let left := ((s.setOp q.tag i.op (c.itemEnded o i)).releaseOutputs q o i.id false).dropItem i
      exec (.itemEnd r) s = .next (if o.code = 0x28 ∨ o.code = 0x29 ∨ o.code = 0x2A then left.aggSettle q o i.op else left) ∧
      let u := s.removeItems fun j => j.id == i.id
      (∀ x, x ∈ u.disp.items → x.id ≠ i.id) ∧ (u.runner r).running = none) ∧
    (∀ i q, s.running? r = some i → s.query? i.query = some q → q.st = .stopping →
      let u := s.endStopping r i q
      exec (.itemEnd r) s = .next u ∧ (∀ x, x ∈ u.disp.items → x.id ≠ i.id) ∧ (u.runner r).running = none ∧
      (r.kind ≠ .ec → u = (s.endStall i.id 0).removeItems fun j => j.id == i.id)) ∧
    (∀ inst q, q ∈ s.queries → q.tag.inst = inst → s.query? q.tag = some q → q.st = .running →
      (∃ x, x ∈ s.disp.items ∧ x.query = q.tag ∧ x.st = .parked ∧ x.lastStop = 3) →
      (∀ p, p ∈ s.queries → p.tag.inst = inst → p.no ≤ q.no ∧ (p.no = q.no → p = q)) →
      (∀ x, x ∈ s.disp.items → x.query.inst = inst → s.holdsSpill x.query = true → x.st = .parked ∧ (x.lastStop = 3 ∨ x.lastStop = 4)) →
      ∃ new p, exec (.spillBlock inst) s = .next new ∧ new.query? q.tag = some p ∧ p.st = .stopping ∧ p.status = 0x1801)

/-- The stream instructions of an EC (13 R412-R414; 14 R440): an unbound port raises STREAM_PORT, a place that VL and SEW do not meet STREAM_ALIGN; else
SPOP, SPUSH, SCLOSE and SAVAIL complete with what the port's stream gives or takes. MASK_TIMEOUT halts the offender and reports to the lowest-numbered other
MC that runs (14 R436, R437). -/
def Obligations.StreamInstructionsAndMaskTimeout : Prop :=
  ∀ (s : State) (k : At) (vt rd : BitVec 5) (n : BitVec 3),
    let c := s.core k.core
    let spop := Instr.spop k vt rd n
    let spush := Instr.spush k vt n
    let sclose := Instr.sclose k n
    let savail := Instr.savail k rd n
    let completes (i : Instr) (e : Core) (u : State) : Prop := ∃ t d, exec i s = .next t ∧
      LoopStep c.pc { e with pc := c.pc + 4, vprog := 0, instret := c.instret + 1 } d ∧ Elapsed d (t.core k.core) ∧
      t = { u with cores := { u.cores with cores := t.cores.cores } } ∧ ∀ j, j ≠ k.core → t.core j = s.core j
    (Fresh s k.core → k.core.isEc = false → ∀ i, i ∈ [spop, spush, sclose, savail] → ∃ w, Raises s k.core i 0x01 w) ∧
    (Fresh s k.core → k.core.isEc = true →
      (s.portOf c false n = none → Raises s k.core spop 0x06 (n.setWidth 64) ∧ Raises s k.core savail 0x06 (n.setWidth 64)) ∧
      (s.portOf c true n = none → Raises s k.core spush 0x06 (n.setWidth 64) ∧ Raises s k.core sclose 0x06 (n.setWidth 64)) ∧
      (∀ p, s.portOf c false n = some p →
        let place := p.place n
        let there := place.cur.length - place.off + (poppable p.item.id p.st.words.length p.st - place.skip)
        Completes s k.core savail (c.setX rd (
          if there = 0 ∧ p.st.popView p.item.id = .ended then BitVec.allOnes 64
          else BitVec.ofNat 64 (match place.left with
            | some l => if there ≤ l then there else l
            | none => there))) ∧
        (place.at_ % c.eb ≠ 0 → Raises s k.core spop 0x07 (n.setWidth 64)) ∧
        -- a frame read whole that is no frame ends the query (06 R196), and so do copies of RP that disagree (06 R212, R213)
        (place.at_ % c.eb = 0 → k.stop = none → ∀ r why, popRun c.eb (c.lanes k.core) (p.isElem n) (c.lanes k.core + 1)
            { st := p.st, p := place, it := p.item, v := c.getV vt, i := 0, bad := false } = (r, why) → why ≠ .wait →
          ∃ st it,
            let u := ((s.tick.setStream p.ref st).modItem p.item.id fun _ => it).endStall p.item.id 0
            let v := if r.bad then u.badStream p.ref else u
            completes spop ((c.setV vt r.v).setX rd (BitVec.ofNat 64 r.i))
              (State.settle (if st.rp = st.rp2 then v else v.pointerMismatch p.ref) p.query.tag) ∧
            st.words = r.st.words ∧ st.frames = r.st.frames ∧ st.rp = r.st.rp ∧ st.rp2 = r.st.rp2) ∧
        -- a whole word of a port whose range does not limit it, and nothing left of the one before
        (∀ w, k.stop = none → p.st.framed = false → p.st.rp = p.st.rp2 → place = ⟨[], 0, none, 0⟩ → p.st.popView p.item.id = .word w 64 →
          c.vl.toNat * c.eb = 64 → c.vl.toNat = c.lanes k.core → ∃ st it v, completes spop ((c.setV vt v).setX rd c.vl)
              (State.settle (((s.tick.setStream p.ref st).modItem p.item.id fun _ => it).endStall p.item.id 0) p.query.tag) ∧
            st.words = AMap.erase p.st.words p.st.rp ∧ st.rp = p.st.rp + 1 ∧
            ∀ j, j < c.vl.toNat → lane c.sew v j = (w.extractLsb' (8 * c.eb * j) (8 * c.eb)).toNat)) ∧
      (∀ p, s.portOf c true n = some p →
        (c.vl.toNat * c.eb % p.st.elem ≠ 0 → Raises s k.core spush 0x07 (n.setWidth 64)) ∧
        (c.vl.toNat * c.eb % p.st.elem = 0 → k.stop = none → ∀ u i, pushRun p (c.getV vt) c.eb (if p.st.elem / c.eb = 0 then 1 else p.st.elem / c.eb)
            (c.lanes k.core) (c.lanes k.core + 1) 0 s.tick = (u, i, true) →
          completes spush c ((u.endStall p.item.id 0).settle p.query.tag)) ∧
        (p.st.framed = true → completes sclose c (s.tick.badStream p.ref)) ∧
        (p.st.framed = false → p.st.holder = none ∨ p.st.holder = some p.item.id →
          let bs := AMap.get p.st.opens 0 []
          let u := (s.tick.setStream p.ref { p.st with opens := AMap.erase p.st.opens 0, holder := some p.item.id }).commitWord p.ref p.item.id
            (bytesWord bs) (BitVec.ofNat 7 bs.length)
          (bs = [] → completes sclose c s.tick) ∧ (bs ≠ [] → u.2 = .landed → completes sclose c ((u.1.endStall p.item.id 0).settle p.query.tag))))) ∧
    ((c.halted = true ∨ c.maskCount ≤ s.cores.masklimit.toNat) → exec (.maskTimeout k.core) s = .next s) ∧
    (c.halted = false → s.cores.masklimit.toNat < c.maskCount → ∀ m, (∀ j, j.toNat < m.toNat → CoreId.mc j ≠ k.core → (s.core (.mc j)).halted = true) →
      CoreId.mc m ≠ k.core → (s.core (.mc m)).halted = false → ∃ new, exec (.maskTimeout k.core) s = .next new ∧
        (new.core k.core).halted = true ∧ (new.core (.mc m)).ipend.getLsbD 6 = true ∧
        (∀ b, s.glb.manager = some b → (new.fn b).evtPend.getLsbD 2 = true) ∧
        ∀ a b, k.core = .ec a b → ∃ r, k.core.runner = some r ∧ (new.runner r).out = true ∧ ∀ i q, s.running? r = some i → s.query? i.query = some q →
          q.st = .running → ∃ p, new.query? i.query = some p ∧ p.st = .stopping ∧ p.status = 0x3802)

/-- Words of streams (06 R197-R206, R209-R214): where a commit lands or is refused (which may take a further page of the middle), what a unit's pop and
commit leave of its item and its stream, and what a flaw ends in. -/
def Obligations.WordsAreCommittedAndPopped : Prop :=
  ∀ (s : State) (r : Runner) (x : StreamRef) (st : Stream) (word : BitVec 512) (vb : BitVec 7) (n : Nat) (port : BitVec 3) (host : List HostRead),
    let room : Nat := 32 + 1024 * st.pages
    let grows : Prop := 64 * (st.pages + 1) ≤ st.spillKib ∧ s.sspillUse x.query.inst < (s.inst x.query.inst).sspillPages.toNat
    let lost (new : State) (id : Nat) : Prop := (∀ m, s.glb.manager = some m → (new.fn m).evtPend.getLsbD id = true) ∧
      ∀ q, s.query? x.query = some q → q.st = .running → ∃ p, new.query? x.query = some p ∧ p.st = .stopping ∧ p.status = 0x1002
    (s.stream? x = some st →
      ((∃ e, e ∈ st.words ∧ st.inHead e.1 = true) → exec (.headRefill x) s = .next s) ∧
      ((∀ e, e ∈ st.words → st.inHead e.1 = false) → exec (.headRefill x) s = .next (s.setStream x { st with
        inMiddle := st.inMiddle.filter fun p => 16 ≤ (p - st.rp).toNat }))) ∧
    -- commits of an unframed stream
    (s.stream? x = some st → st.framed = false → st.st ≠ .failed → st.discard = false →
      let e := s.commitWord x n word vb
      ((∃ h, st.holder = some h ∧ h ≠ n) → e = (s, .refused)) ∧
      (st.holder = none ∨ st.holder = some n →
        ((st.wp - st.rp).toNat < room → st.wp = st.wp2 → e.2 = .landed ∧ ∃ u, e.1 = s.setStream x u ∧ u.wp = st.wp + 1 ∧ u.wp2 = u.wp ∧
          u.rp = st.rp ∧ u.pages = st.pages ∧ u.holder = some n ∧ u.words = AMap.insert st.words st.wp (StreamWord.of word vb)) ∧
        ((st.wp - st.rp).toNat < room → st.wp ≠ st.wp2 → e = (s.pointerMismatch x, .aborted)) ∧
        (room ≤ (st.wp - st.rp).toNat → grows → e = (s.setStream x { st with pages := st.pages + 1 }, .refused)) ∧
        (room ≤ (st.wp - st.rp).toNat → ¬grows → e = (s.setStream x st, .refused)))) ∧
    (s.stream? x = some st → st.st = .failed → s.commitWord x n word vb = (s, .aborted)) ∧
    -- pops of an unframed stream
    (st.framed = false → st.st ≠ .failed → st.gated = false →
      (st.rp = st.wp → st.popView n = if st.st = .ended ∧ st.words = [] then .ended else .empty) ∧
      (st.rp ≠ st.wp → ∀ e, AMap.find? st.words st.rp = some e →
        st.popView n = if st.rp ∉ st.inMiddle ∧ e.sound = true then .word e.bits e.vb else .stall) ∧
      st.popped n = { st with words := AMap.erase st.words st.rp, rp := st.rp + 1, rp2 := st.rp2 + 1 }) ∧
    -- a word reads as it was committed
    ((StreamWord.of word vb).bits = word ∧ (StreamWord.of word vb).vb = vb ∧ (StreamWord.of word vb).sound = true) ∧
    -- flaws
    (s.stream? x = some st → lost (s.pointerMismatch x) 321 ∧ ∀ u, (s.pointerMismatch x).stream? x = some u →
      u.st = .failed ∧ u.wp = 0 ∧ u.rp = 0 ∧ u.words = [] ∧ u.frames = []) ∧
    lost (s.wordLost x n) 320 ∧
    -- the word in which an error was found is withheld from then on
    (s.stream? x = some st → st.framed = false → st.st ≠ .failed → st.gated = false → st.rp ≠ st.wp → (AMap.find? st.words st.rp).isSome = true →
      ∀ q, s.query? x.query = some q → q.st = .running → ∃ u, (s.wordLost x n).stream? x = some u ∧ u.popView n = .stall) ∧
    -- the units
    (∀ i q im o c, s.service r = some (i, q, im, o, c) →
      (∀ w rest, i.outq = w :: rest → State.outRef q o w.port = some x → exec (.wordCommit r .pointer) s = .next (s.pointerMismatch x) ∧
        ∀ flaw, flaw ≠ .pointer →
          let e := s.commitWord x i.id w.word 64
          let u := (e.1.modItem i.id fun j => { j with
            outq := rest, progress := w.progress.getD j.progress, opstate := w.opstate.getD j.opstate }).endStall i.id 0
          let v := if o.code = 0x3A then u.unionLeft q i else u
          exec (.wordCommit r flaw) s = .next (if e.2 = .landed then (if rest = [] then v.parkDue q i else v).settle q.tag else e.1.stallItem i.id)) ∧
      (∀ flaw, i.outq = [] → o.code = 0x01 → exec (.wordCommit r flaw) s = .next (if i.progress < i.count then s.scanFill q im o i else s)) ∧
      (∀ k, o.ins[port.toNat]? = some k → q.stream k = x → s.stream? x = some st →
        exec (.wordPop r port .pointer host) s = .next (s.pointerMismatch x) ∧
        exec (.wordPop r port .uncorrectable host) s = .next (s.wordLost x i.id) ∧
        (o.code = 0x10 → exec (.wordPop r port .corrected host) s = .next ((s.count (ctrStrCe st.home)).count 0x20)) ∧
        (o.code ≠ 0x10 → s.heldFrame q i port = none → (∀ e, e ∈ i.inFrame → e.1 = port ∨ e.2 = []) →
          let before := AMap.get i.inFrame port []
          before ≠ [] ∨ s.takesFrame q im o c i port = true →
          (st.popView i.id = .empty → exec (.wordPop r port .sound host) s = .next (s.stallItem i.id)) ∧
          (st.popView i.id = .stall → exec (.wordPop r port .sound host) s = .next s) ∧
          (∀ w b, st.popView i.id = .word w b → (st.popped i.id).rp = (st.popped i.id).rp2 →
            let bs := before ++ wordBytes w
            ∃ j, j = { i with inFrame := AMap.insert i.inFrame port bs, origin := j.origin, count := j.count, claims := j.claims } ∧
              j.count = (if before = [] ∧ o.code ≠ 0x48 then i.startRows + hdrRows bs else i.count) ∧
              let u := ((s.setStream x (st.popped i.id)).modItem i.id fun _ => j).endStall i.id 0
              let v := if o.code = 0x3A ∧ before = [] then u.unionClaim q i else u
              exec (.wordPop r port .sound host) s = .next (match v.heldFrame q j port with
                | some all => v.workFrame q im o ((v.op? q.tag i.op).getD c) { j with stall := none } port x all host
                | none => v.settle q.tag)))))


/-- Operators between their items (08 R257; 09 R277, R283, R285, R286, R288, R290, R294; 10 R311, R314, R330, R331): what each command of an operator leaves of its
context, which rows a probe row gives, and the item that emits what an operator holds. -/
def Obligations.OperatorsBuildProbeGroupAndMerge : Prop :=
  ∀ (s : State) (t : Tag) (op : BitVec 16) (q : Query) (im : Image) (o : OpDesc) (c : OpCtx), s.query? t = some q → q.st = .running ∨ q.st = .paused →
    q.opOf op = some (im, o) → s.op? t op = some c →
    (o.code = 0x20 → c.handleSent = false → s.inputsDrained q o = true → s.opItems t op = [] → ∀ k u, o.outs[0]? = some k →
      let row : Vals := [some (mkVal 0x09 (Config.tableHandle s.free).toNat), some (mkVal 0x09 c.buildRows)]
      State.pushWords (q.stream k) 0 (toWords ((rowsFrame [0x09, 0x09] [row] 0).bytes s.free)) s = some u →
      exec (.handleFramePush t op) s = .next (((u.setOp t op { c with handleSent := true }).tick).settleOps t)) ∧
    (o.code = 0x20 → c.partitioned = false → (∃ i f bs, i ∈ s.opItems t op ∧ s.heldFrame q i 0 = some bs ∧ readFrame bs = some f ∧
        s.buildRefused q o c (payloadTypes f.types o.payload) (c.build ++ buildRowsOf o f) = true) →
      let pt := payloadTypes (AMap.get c.shapes 0 []) o.payload
      exec (.buildPartition t op) s = .next (s.setOp t op { c with
        partitioned := true
        spill := if buildPages pt c.build ≤ c.spill + s.spillRoom t.inst then buildPages pt c.build else c.spill + s.spillRoom t.inst })) ∧
    (∀ bop b bc, o.code = 0x21 → s.buildOf q im o = some (bop, b, bc) →
      -- the rows of one probe row
      (∀ key row,
        let mine := o.carry.map fun k => ((row : Vals)[k]?).join
        let found := bc.build.filter fun r => !r.nullKey && r.key == key
        let pairs := found.map fun r => mine ++ r.payload
        let got := probeRow o b bc bc.table key false row
        (got.2 = true ↔ found ≠ []) ∧
        (o.kind = 0 ∨ o.kind = 2 → b.p 17 1 / 4 % 2 = 0 → got.1.Perm pairs) ∧
        (o.kind = 1 ∨ o.kind = 3 → b.p 17 1 / 4 % 2 = 0 → found ≠ [] → got.1.Perm pairs) ∧
        (o.kind = 1 ∨ o.kind = 3 → found = [] → got.1 = [mine ++ b.payload.map fun _ => none]) ∧
        (o.kind = 4 → got.1 = if found = [] then [] else [mine]) ∧ (o.kind = 5 → got.1 = if found = [] then [mine] else []) ∧
        (probeRow o b bc bc.table key true row).2 = false) ∧
      -- the pass over the build rows
      (kindPass o.kind = true → c.passDone = false → s.inputsDrained q o = true → s.opItems t op = [] → c.probes = [] ∨ c.merging = true →
        s.disp.items.length < 262144 →
        let keep := bc.build.filter fun r => if o.kind = 7 then r.hit else !r.hit
        let rows := keep.map fun r => (if o.kind = 7 ∨ o.kind = 8 then [] else o.carry.map fun _ => none) ++ r.payload
        let u := s.setOp t op { c with passDone := true }
        (keep = [] → exec (.unmatchedBuildPass t op) s = .next (u.settleOps t)) ∧
        (keep ≠ [] → exec (.unmatchedBuildPass t op) s = .next (State.tick (u.newItem q o op 1 0 keep.length
          (emitRows (if o.outs.length = 2 then 1 else 0) (joinTypes o b c bc) s.free rows)))))) ∧
    (∀ part d, o.code = 0x28 ∨ o.code = 0x29 ∨ o.code = 0x2A →
      let u := s.aggSettle q o op
      u.op? t op = some d → part.toNat < o.parts → part ∉ d.emitted → u.partialsEnded q o op = true → AMap.get d.records part [] = [] →
      let flow : BitVec 8 := BitVec.ofNat 8 (o.pflows + part.toNat)
      u.flowItems t op flow = [] → u.disp.items.length < 262144 → (AMap.find? u.disp.flows (t, op, flow)).isSome = true →
      -- the groups of the partition's final table, or of the tables that its spilled records give, one after another; SCALAR always has one
      let rows := ((u.partTables q im o d part).map fun e => e.2.length).sum
      (AMap.has d.spilled part = false →
        rows = if AMap.get d.finals part [] = [] ∧ o.code = 0x29 then 1 else (AMap.get d.finals part []).length) ∧
      (rows = 0 → exec (.partitionEmit t op part) s = .next ((u.setOp t op { d with emitted := part :: d.emitted }).tick.settleOps t)) ∧
      (rows ≠ 0 → ∃ new e i, exec (.partitionEmit t op part) s = .next new ∧ new.op? t op = some e ∧ part ∈ e.emitted ∧
        i ∈ new.disp.items ∧ i.id = s.disp.nextItem ∧ i.flow = flow ∧ i.op = op ∧ i.query = t ∧ i.origin = 0 ∧ i.count = rows ∧ i.st = .ready ∧
        ∀ x, x.id ≠ s.disp.nextItem → (x ∈ new.disp.items ↔ x ∈ s.disp.items))) ∧
    (o.code = 0x30 ∨ o.code = 0x32 → c.merging = false → s.runsEnded q o op = true →
      exec (.mergeFlowStart t op) s = .next ((s.setOp t op { c with merging := true, passDone := c.runs.isEmpty }).settleOps t)) ∧
    (o.code = 0x40 → c.merging = false → (∀ k, k ∈ o.ins → ∃ st, s.stream? (q.stream k) = some st ∧ st.st = .ended) →
      ∃ (u : State) (d : OpCtx), exec (.hurdleRelease t op) s = .next (u.settleOps t) ∧ u.op? t op = some d ∧ d = { c with merging := true } ∧
        ∀ k st, k ∈ o.ins.take o.outs.length → s.stream? (q.stream k) = some st →
          (∀ j p, im.ops[j]? = some p → p.code = 0x40 → j ≠ op.toNat → ∀ x, x ∈ p.ins.take p.outs.length → im.root x.toNat ≠ im.root k.toNat) →
          u.stream? (q.stream k) = some { st with gated := false }) ∧
    (∀ entry pred slot tb col p, o.code = 0x01 → q.st = .running → AMap.find? q.snap (BitVec.ofNat 16 (o.p 4 2)) = some tb →
      (scanCols im q.params o)[entry.toNat]? = some col → (predList im q.params col.preds col.npred)[pred.toNat]? = some p → p.op = 10 ∨ p.op = 11 →
      let v := s.colView tb (BitVec.ofNat 12 col.column) slot ((s.slotRows tb slot).getD 0)
      let units := ((v.dict.length + 7) / 8 + 65535) / 65536
      let keys := v.dict.map (searchKey p.ftotal v.ty)
      let asa : BitVec 8 := BitVec.ofNat 8 p.asa
      v.dict ≠ [] → AMap.find? c.codeSets (entry, pred, slot) = none → s.lsUse t.inst + units ≤ (s.inst t.inst).lsUnits.toNat →
      (s.readPages v v.dpages = .wait → exec (.codeSetBuild t op entry pred slot) s = .next s) ∧
      (s.readPages v v.dpages = .lost → exec (.codeSetBuild t op entry pred slot) s = .next (s.stopQuery q.tag 0x1001)) ∧
      (s.readPages v v.dpages = .invalid → exec (.codeSetBuild t op entry pred slot) s =
        .next (((s.scanJobError q v v.dpages).pageCrcEvent q.tag.inst (BitVec.ofNat 16 (o.p 4 2)) (BitVec.ofNat 12 col.column) slot).stopQuery
          q.tag 0x1002)) ∧
      (s.readPages v v.dpages = .good → (s.asaNeeds q asa allMask (keys.filterMap id)).met = false →
        exec (.codeSetBuild t op entry pred slot) s = .next (s.sendNeeds (s.asaNeeds q asa allMask (keys.filterMap id)))) ∧
      (s.readPages v v.dpages = .good → (s.asaNeeds q asa allMask (keys.filterMap id)).met = true → exec (.codeSetBuild t op entry pred slot) s =
        .next (s.setOp t op { c with
          codeSets := AMap.insert c.codeSets (entry, pred, slot) (keys.map fun k => k.elim false fun x => s.asaHit q asa x allMask)
          lsUnits := c.lsUnits + units }))) ∧
    -- UNION passes a frame on as it is, in the order of the claims
    (∀ i bs f, c.order.head? = some i.id → shapeOk c 0 f.types = true →
      unionFrame c i bs f = .emit (frameOut 0 bs (some (i.startRows + f.sel.length)) none) (c.setShape 0 f.types) i true)

/-- The outputs of a query and the jobs of the compression engines (05 R172, R173; 10 R332-R338; 12 R375-R381, R387-R392): a result block or a unit goes into its chain's
buffer where the bytes before it ended, and is counted once it is whole; a job leaves its result. -/
def Obligations.OutputsAndJobsAreWritten : Prop :=
  ∀ (s : State) (r : Runner) (acc : HostAcc) (engine : BitVec 3) (job : CompJob),
    let wrote (new : State) (q : Query) (n : Nat) (ch : Chain) (b : Bytes) (more : Nat) : Prop :=
      (∀ m, m ∈ (s.dataWrite q.tag.inst q.pasid (ch.buf + BitVec.ofNat 64 ch.filled) b).out → m ∈ new.out) ∧
      ∃ p d, new.query? q.tag = some p ∧ p.chains[n]? = some d ∧ d.filled = ch.filled + b.length ∧ d.bytes = ch.bytes + b.length ∧
        d.bseq = ch.bseq + BitVec.ofNat 32 more ∧ d.buf = ch.buf
    (∀ i q im o c ch, s.service r = some (i, q, im, o, c) → q.st = .running → (∀ p, p ∈ s.queries → p.tag = q.tag → p = q) →
      (∀ x, x ∈ s.disp.items → x.id = i.id → x = i) → q.chains[o.chain.toNat]? = some ch → ch.atEnd = false → ch.linkWait = false → ch.linkDue = false →
      s.accOf q.tag.inst acc = .ok → s.waitsFor (.csw q.tag) = false → i.block = [] →
      (∀ f bs, o.code = 0x49 → s.heldFrame q i 0 = some bs → readFrame bs = some f →
        (scalesOk f.types (matScales im q.params o) = false → exec (.resultBlockWrite r acc) s = .next (s.badParams q.tag i.op)) ∧
        (scalesOk f.types (matScales im q.params o) = true → true ∈ f.sel → s.midUnit q.tag i.op = false →
          let b := resultBlock f.types (matScales im q.params o) (f.rows.map (·.2)) ch.bseq i.op
          b ≠ [] → ch.filled + b.length ≤ ch.len →
          ∃ new, exec (.resultBlockWrite r acc) s = .next new ∧ wrote new q o.chain.toNat ch b 1)) ∧
      (o.code = 0x48 → i.outq = [] → i.progress = 0 → s.unitReady q o c = true → (7 ≤ o.compLevel → s.leaveHeld (.encode (r.num.setWidth 3) (some q.tag)) = true) →
        let u := unitOf im q.params o c.useq (c.content.take o.unitBytes)
        let d := { c with content := c.content.drop o.unitBytes, useq := c.useq + 1 }
        let b := padTo u (roundUp u.length 64)
        (o.outs = [] → ch.filled + b.length ≤ ch.len → ∃ new, exec (.unitWrite r acc) s = .next new ∧ wrote new q o.chain.toNat ch b 0) ∧
        (o.outs ≠ [] → exec (.unitWrite r acc) s = .next (State.tick (State.modItem (s.setOp q.tag i.op d) i.id fun x => { x with
          outq := frameOut 0 ((rowsFrame [0x11] [[some (.str u)]] c.useq).bytes s.free) (some u.length) none }))))) ∧
    -- a write that finds its chain's buffer full, or faults
    (∀ q n ch bs, q.chains[n]? = some ch → q.st = .running → ch.atEnd = false → ch.linkWait = false → ch.linkDue = false →
      (ch.len ≤ ch.filled → s.chainWrite q n bs acc = (s.modChain q.tag n fun x => { x with linkDue := true }, .waits)) ∧
      (ch.filled < ch.len → s.accOf q.tag.inst acc = .ok → (s.chainWrite q n bs acc).2 = .wrote (
        if bs.length ≤ ch.len - ch.filled then bs.length else ch.len - ch.filled))) ∧
    -- jobs: one that is commanded while no client job waits at the engine; else the waiting job of the highest PRIO ends
    (let decoded (j : CompJob) : State :=
        let d := Sys2Proof.Machine.decodeJob j.format.toNat (j.dict.getD []) j.dictId.toNat j.input j.maxOut.toNat
        let u := { s with jobs := AMap.insert s.jobs engine {
          job := j, limit := d.ending == .limit, broken := d.ending == .undecodable, output := d.output } }
        if d.ending = .complete then u else u.jobError j d
      let encoded (j : CompJob) : State := { s with jobs := AMap.insert s.jobs engine {
        job := j, limit := false, broken := false, output := (jobRequest j).bytes } }
      let held (j : CompJob) : Prop := 7 ≤ j.level.toNat → s.leaveHeld (.encode engine none) = true
      ((∀ w, w ∈ s.disp.jobq → w.engine ≠ engine) → job.format = 1 ∨ job.format = 2 →
        (job.maxOut ≠ 0 → exec (.decodeJob engine job) s = .next (decoded job)) ∧
        (1 ≤ job.level.toNat → job.level.toNat ≤ (if job.format = 1 then 9 else 12) →
          (held job → exec (.encodeJob engine job) s = .next (encoded job)) ∧ (¬held job → exec (.encodeJob engine job) s = .next s))) ∧
      (∀ w, s.nextJob engine = some w →
        w ∈ s.disp.jobq ∧ w.engine = engine ∧ (∀ x, x ∈ s.disp.jobq → x.engine = engine → w.prio.toNat ≤ x.prio.toNat) ∧
        (w.decode = true → exec (.decodeJob engine job) s = .next ((decoded w.job).jobServed w)) ∧
        (w.decode = false → held w.job → exec (.encodeJob engine job) s = .next ((encoded w.job).jobServed w))))


/-- The Associative Search Array (11 R346-R351, R353-R361, R365-R367; 22 R654): what a pod answers, what loading, clearing, parity and reloads
leave of it, the thermal step, and the cascade's configuration and result words. -/
def Obligations.PodsAnswerReloadAndStep : Prop :=
  ∀ (s : State) (pod : BitVec 4) (entry : BitVec 12) (key mask : BitVec 320),
    let p := s.pod pod
    -- the answer: an entry matches where it is valid and equals the key at every bit of the mask; the lowest index wins
    (p.entries ≤ 4096 →
      let matched (k : Nat) (tag : BitVec 32) : Prop := k < p.entries ∧ ∃ e, p.entry? k = some (e, tag) ∧
        ∀ b, b < asaBits p.width.toNat → mask.getLsbD b = true → e.getLsbD b = key.getLsbD b
      let a := p.answer key mask
      (answerHit a = true ↔ ∃ k tag, matched k tag) ∧
      (∀ k tag, matched k tag → (∀ j t, j < k → ¬matched j t) → answerIndex a = k ∧ answerTag a = tag ∧ answerWpos a = 0 ∧
        (answerStale a = true ↔ ∃ i, i ∈ p.reload ∧ i.toNat < k)) ∧
      (answerHit a = false → answerIndex a = 0 ∧ answerTag a = 0 ∧ answerCount a = 0 ∧ (answerStale a = true ↔ p.reload ≠ [])) ∧
      (∃ l : List Nat, l.Nodup ∧ (∀ k, k ∈ l ↔ ∃ tag, matched k tag) ∧ answerCount a = min 15 l.length ∧ (a.getLsbD 1 = true ↔ 2 ≤ l.length))) ∧
    (p.st = .serving →
      exec (.asaSearch pod key mask false) s = .next (s.emit (.asaAnswer pod (p.answer key mask))) ∧
      (answerHit (p.answer key mask) = true → exec (.asaSearch pod key mask true) s = .next
        ((s.parityError pod (answerIndex (p.answer key mask))).emit (.asaAnswer pod (p.answer key mask ||| 0x40))))) ∧
    -- loading and clearing
    (∀ t n d, p.owner = some (t, n) → s.podImage p = some d → p.st = .loading →
      (
        let slots := d.recs.zipIdx.flatMap fun e => writeEntry p.width e.2 e.1.1 e.1.2 true
        let served := (s.setPod pod { p with st := .serving, slots := slots, reload := [], scanPos := 0 }).answerReady
        ∀ q, served.query? t = some q → exec (.podLoad pod false) s = .next (
          if ∀ e, e ∈ q.pods → (served.pod e.2).st = .serving then served.enterRunning t .ok else served)) ∧
      exec (.podLoad pod true) s = .next (s.stopQuery t 0x1001)) ∧
    (p.st = .clearing → ∃ new, exec (.podClear pod) s = .next new ∧ (new.pod pod).st = .free ∧ (new.pod pod).slots = [] ∧
      new = s.setPod pod (new.pod pod) ∧ ∀ j, j ≠ pod → new.pod j = s.pod j) ∧
    -- parity
    (∀ k : Nat, k < 4096 →
      let u := s.parityError pod k
      (u.pod pod).entry? k = none ∧ (k < p.entries → BitVec.ofNat 12 k ∈ (u.pod pod).reload) ∧ (p.entries ≤ k → (u.pod pod).reload = p.reload) ∧
      (∀ i, i ∈ p.reload → i ∈ (u.pod pod).reload) ∧ ∀ j, j ≠ pod → u.pod j = s.pod j) ∧
    -- the scan reads any of the 4,096 slots; one that nothing has written reads as zeros
    (∀ slot upset, p.st = .serving →
      let y := (AMap.get p.slots slot { key := 0, tag := 0, valid := false, parity := 0 }).upset upset
      let read := s.setPod pod { p with
        slots := if y = { key := 0, tag := 0, valid := false, parity := 0 } then p.slots else AMap.insert p.slots slot y, scanPos := slot + 1 }
      let past := if slot = 4095 then { read with asa := { read.asa with period := read.asa.nextPeriod } } else read
      exec (.parityScan pod slot upset) s = .next (
        if y.parity = slotParity y.key y.tag then past else past.parityError pod (slotEntry p.width slot))) ∧
    (∀ t n d word, p.owner = some (t, n) → s.podImage p = some d → d.recs[entry.toNat]? = some word → p.st = .serving → entry ∈ p.reload →
      exec (.parityReload pod entry true) s = .next (s.stopQuery t 0x1001) ∧
      ∃ new, exec (.parityReload pod entry false) s = .next new ∧ new = s.setPod pod (new.pod pod) ∧
        (new.pod pod).entry? entry.toNat = some (
          if p.width = 3 then word.1 else (word.1.setWidth 160).setWidth 320, word.2) ∧
        ∀ i, i ∈ (new.pod pod).reload ↔ i ∈ p.reload ∧ i ≠ entry) ∧
    -- the thermal step
    (
      let l := (s.power.temps.drop 24).take 4
      let enters (j : Nat) : Int := if j = 1 then 95 else if j = 2 then 100 else 110
      let reaches (j : Nat) : Prop := 1 ≤ j ∧ j ≤ 3 ∧ (enters j ≤ tjmax l ∨ (j ≤ s.asa.step.toNat ∧ enters j - 3 ≤ tjmax l))
      l ≠ [] → ∃ n : BitVec 2, (∀ j, reaches j → j ≤ n.toNat) ∧ (n ≠ 0 → reaches n.toNat) ∧
        exec .asaStepEvaluation s = .next (if n = s.asa.step then s else
          State.raiseDevice { s with asa := { s.asa with step := n } } 323 0xFF (n.setWidth 64) 0)) ∧
    -- the cascade
    (∀ inst (value : BitVec 32), s.managerAccess inst = true → value.getLsbD 0 = true →
      let depth := (value >>> 8).setWidth 4
      let pos := (value >>> 4).setWidth 3
      let kept : Prop := s.casActive = true ∨ depth = 0 ∨ 8 < depth.toNat ∨ depth.toNat ≤ pos.toNat
      (kept → exec (.asaCascfgEnable inst value) s = .next s) ∧
      (¬kept → exec (.asaCascfgEnable inst value) s = .next { s with asa := { s.asa with
        casEn := true, casPos := pos, casDepth := depth, trained := false, chkRun := 0, broken := false, slots := [], members := []
        known := [] } })) ∧
    (s.asa.casEn = true → exec .cascadePhaseTraining s = .next { s with asa := { s.asa with trained := true } }) ∧
    (∀ k mine (w : CasResult),
      let r := casMerge k mine w
      r.hit = (answerHit mine || w.hit) ∧ r.count = min 15 (answerCount mine + w.count) ∧
      r.stale = (answerStale mine || (!answerHit mine && w.stale)) ∧
      (if answerHit mine then r.wpos = k ∧ r.widx = answerIndex mine ∧ r.tag = answerTag mine
        else r.wpos = w.wpos ∧ r.widx = w.widx ∧ r.tag = w.tag)) ∧
    (∀ (r : CasResult) ctag, r.count < 16 → r.wpos < 8 → r.widx < 4096 → casRead (r.word ctag) = r) ∧
    (∀ w : BitVec 64, s.asa.casEn = true →
      let sound : Prop := ((w >>> 28).setWidth 4).toNat = casChk w.toNat
      let missed (v : State) : State :=
        let x := { v with asa := { v.asa with chkRun := v.asa.chkRun + 1 } }
        if 3 ≤ x.asa.chkRun then x.breakCascade else x
      (sound → (w.getLsbD 0 = false ∨ s.asa.slots = []) → exec (.cascadeResultWord w) s = .next { s with asa := { s.asa with chkRun := 0 } }) ∧
      (sound → w.getLsbD 0 = true → ∀ c rest, s.asa.slots = c :: rest →
        exec (.cascadeResultWord w) s = .next (State.casAnswer { s with asa := { s.asa with chkRun := 0, slots := rest } } c (casRead w))) ∧
      -- a word that does not check is the miss of the slot whose turn it is, whatever its VLD
      (¬sound → ∀ c rest, s.asa.slots = c :: rest →
        let e := (s.cascadeErr (s.casIdOf c.ctag)).count ctrCasChk
        exec (.cascadeResultWord w) s = .next (missed (State.casAnswer { e with asa := { e.asa with slots := rest } } c (casMiss true)))) ∧
      (¬sound → s.asa.slots = [] → exec (.cascadeResultWord w) s =
        .next (missed ((s.cascadeErr (s.casIdOf ((w >>> 11).setWidth 4))).count ctrCasChk))))

/-- Relay messages (18 R532-R537, R540, R556), and those of exchanges and of the cascade (10 R327-R329; 11 R364, R365, R368): what is discarded, what is
passed on along the tree, and what a message that is for this engine does. -/
def Obligations.MessagesOfExchangesAndCascades : Prop :=
  ∀ (s : State) (m : RelayMsg),
    let named : List ((RelayMsg → Instr) × Nat) := [
      (.heartbeat, 0x01), (.batonOut, 0x03), (.batonBack, 0x03), (.batonVisited, 0x03), (.batonConflict, 0x03), (.discEnd, 0x04), (.conflict, 0x05),
      (.mirrorCommit, 0x10), (.mirrorApplied, 0x11), (.mirrorDurable, 0x12), (.forward, 0x13), (.directoryRequest, 0x14), (.directoryAdmit, 0x14),
      (.directoryRefuse, 0x14), (.directoryRelease, 0x14), (.xchData, 0x20), (.xchCredit, 0x21), (.xchRegister, 0x22), (.xchEnd, 0x22), (.xchStop, 0x22),
      (.asaKey, 0x28), (.asaRegister, 0x29), (.asaReady, 0x29), (.asaClose, 0x29), (.fetchReq, 0x30), (.fetchData, 0x31)]
    let sized : List ((RelayMsg → Instr) × Nat × Nat) := [
      (.heartbeat, 0x01, 32), (.batonOut, 0x03, 32), (.batonBack, 0x03, 32), (.batonVisited, 0x03, 32), (.batonConflict, 0x03, 32), (.discEnd, 0x04, 16),
      (.conflict, 0x05, 32), (.mirrorApplied, 0x11, 32), (.mirrorDurable, 0x12, 16), (.directoryRequest, 0x14, 16), (.directoryAdmit, 0x14, 16),
      (.directoryRefuse, 0x14, 16), (.directoryRelease, 0x14, 16), (.xchCredit, 0x21, 16), (.xchRegister, 0x22, 16), (.xchEnd, 0x22, 16),
      (.xchStop, 0x22, 16), (.asaKey, 0x28, 96), (.asaRegister, 0x29, 16), (.asaReady, 0x29, 16), (.asaClose, 0x29, 16), (.fetchReq, 0x30, 48)]
    let p := m.payload
    let ctag := BitVec.ofNat 4 (fld p 1 1)
    let relayed (cls : Nat) (u : State) (port : BitVec 2) : State := u.emit (.relay port (BitVec.ofNat 8 cls) m.dst m.src m.tag p)
    (∀ e, e ∈ named →
      (s.working = false ∨ s.linkUp m.port = false → exec (e.1 m) s = .next s) ∧
      (s.working = true → s.linkUp m.port = true → (p.length % 16 ≠ 0 ∨ 65536 < p.length ∨ classOn e.2 m.port = false) → exec (e.1 m) s = .next (s.protocolError m.port)) ∧
      (s.working = true → s.linkUp m.port = true → p.length % 16 = 0 → p.length ≤ 65536 → classOn e.2 m.port = true → m.dst ≠ 0xFFFF → m.dst ≠ s.srcNode →
        (∀ out, s.route m.dst = some out → s.linkUp out = true → m.port ≠ 0 → exec (e.1 m) s = .next (relayed e.2 s out)) ∧
        ((s.route m.dst = none ∨ m.port = 0) → exec (e.1 m) s = .next s))) ∧
    (∀ e, e ∈ sized → Heard s m e.2.1 → p.length ≠ e.2.2 → exec (e.1 m) s = .next (s.protocolError m.port)) ∧
    -- exchanges
    (∀ x, s.xchFor m = some x →
      (Heard s m 0x20 → s.xchLive x = true →
        let l := AMap.get x.inbox m.src []
        (pieceOk l p = false → exec (.xchData m) s = .next (s.protocolError m.port)) ∧
        (pieceOk l p = true →
          let piece := slice p 16 (fld p 8 2)
          (∀ y, l.getLast? = some y → y.got.length < y.total → exec (.xchData m) s = .next
            ((s.setXch { x with inbox := AMap.insert x.inbox m.src (l.dropLast ++ [{ y with got := y.got ++ piece }]) }).settle x.query)) ∧
          ((∀ y, l.getLast? = some y → y.total ≤ y.got.length) → exec (.xchData m) s = .next
            ((s.setXch { x with inbox := AMap.insert x.inbox m.src (l ++ [{ total := fld p 4 4, got := piece, committed := 0 }]) }).settle
              x.query)))) ∧
      (Heard s m 0x21 → p.length = 16 → allZero (p.drop 4) = true → exec (.xchCredit m) s = .next
        ((s.setXch { x with credits := AMap.insert x.credits m.src (AMap.get x.credits m.src 0 + fld p 0 4) }).settle x.query)) ∧
      (Heard s m 0x22 → p.length = 16 → allZero (p.drop 1) = true →
        (p.headD 0xFF = 0 → ∃ y, exec (.xchRegister m) s = .next (s.setXch y) ∧ y = { x with regs := y.regs } ∧
          ∀ n, n ∈ y.regs ↔ n ∈ x.regs ∨ n = m.src) ∧
        (p.headD 0xFF = 1 → ∃ y, exec (.xchEnd m) s = .next ((s.setXch y).settle x.query) ∧ y = { x with ends := y.ends } ∧
          ∀ n, n ∈ y.ends ↔ n ∈ x.ends ∨ n = m.src) ∧
        (p.headD 0xFF = 2 → exec (.xchStop m) s = .next (s.stopQuery x.query 0x1001)))) ∧
    -- an exchange that is not registered here keeps nothing of a REGISTER or an END, and drops what was granted early with a STOP
    (s.xch? m.tag = none → Heard s m 0x22 → p.length = 16 → allZero (p.drop 1) = true →
      (p.headD 0xFF = 0 → exec (.xchRegister m) s = .next s) ∧ (p.headD 0xFF = 1 → exec (.xchEnd m) s = .next s) ∧
      (p.headD 0xFF = 2 → exec (.xchStop m) s = .next { s with pair := { s.pair with
        early := s.pair.early.filter fun e => e.1 != (m.tag, m.src) } })) ∧
    (s.xch? m.tag = none → Heard s m 0x21 → p.length = 16 → allZero (p.drop 4) = true →
      ∃ new, exec (.xchCredit m) s = .next new ∧ new = { s with pair := { s.pair with early := new.pair.early } } ∧
        ∀ k, AMap.get new.pair.early k 0 = AMap.get s.pair.early k 0 + if k = (m.tag, m.src) then fld p 0 4 else 0) ∧
    -- the cascade
    (Heard s m 0x28 → p.length = 96 → s.asa.casEn = true → s.asa.casPos ≠ 0 → s.asa.broken = false →
      fld p 0 1 < 16 → fld p 1 1 < 4 → allZero (slice p 4 12) = true → fld p 16 40 < 2 ^ asaBits (fld p 1 1) → fld p 56 40 < 2 ^ asaBits (fld p 1 1) →
      let key := BitVec.ofNat 320 (fld p 16 40)
      let mask := BitVec.ofNat 320 (fld p 56 40)
      let holds (e : BitVec 4 × Pod) : Prop := e.2.st = .serving ∧ e.2.casId = some m.tag
      ∃ mine,
        ((∀ e, e ∈ s.asa.pods → ¬holds e) → mine = asaAnswer false 0 true 0 0 0) ∧
        (∀ e, e ∈ s.asa.pods → holds e → (∀ f, f ∈ s.asa.pods → holds f → f = e) → mine = e.2.answer key mask) ∧
        let c : CasSlot := { live := true, ctag := BitVec.ofNat 4 (fld p 0 1), key := key, mask := mask, mine := mine }
        exec (.asaKey m) s = .next (if s.asa.casPos.toNat + 1 < s.asa.casDepth.toNat then
          State.sendLink { s with asa := { s.asa with slots := s.asa.slots ++ [c] } } Config.cascadeDown 0x28 m.tag p
          else s.casAnswer c (casMiss false))) ∧
    (Heard s m 0x29 → p.length = 16 → fld p 1 1 < 16 → fld p 2 1 < 8 → allZero (p.drop 3) = true → s.asa.casEn = true →
      let onward (u : State) : State := if s.asa.casPos.toNat + 1 < s.asa.casDepth.toNat then u.sendLink Config.cascadeDown 0x29 m.tag p else u
      (p.headD 0xFF = 0 → s.asa.casPos ≠ 0 →
        let g : Ctag := { casId := m.tag, query := none, ready := [], closed := false }
        exec (.asaRegister m) s = .next (onward { s with asa := { s.asa with members := AMap.insert s.asa.members ctag g } }).answerReady) ∧
      (p.headD 0xFF = 1 →
        (s.asa.casPos ≠ 0 → exec (.asaReady m) s = .next (s.sendLink Config.cascadeUp 0x29 m.tag p)) ∧
        (s.asa.casPos = 0 → ∀ g, AMap.find? s.asa.ctags ctag = some g → g.casId = m.tag →
          ∃ new h, exec (.asaReady m) s = .next new ∧ new = { s with asa := { s.asa with ctags := new.asa.ctags } } ∧
            AMap.find? new.asa.ctags ctag = some h ∧ h = { g with ready := h.ready } ∧
            (∀ k, k ∈ h.ready ↔ k ∈ g.ready ∨ k = BitVec.ofNat 3 (fld p 2 1)) ∧
            ∀ j, j ≠ ctag → AMap.find? new.asa.ctags j = AMap.find? s.asa.ctags j)) ∧
      (p.headD 0xFF = 2 → s.asa.casPos ≠ 0 →
        let u := onward { s with asa := { s.asa with members := s.asa.members.filter fun e => !(e.1 == ctag && e.2.casId == m.tag) } }
        ∃ new, exec (.asaClose m) s = .next new ∧ new = { u with queries := new.queries } ∧
          ∀ q, q ∈ u.queries →
            (q.image = none → q ∈ new.queries) ∧
            (∀ im, q.image = some im → ∃ r, r ∈ new.queries ∧ r = { q with closes := r.closes } ∧
              ∀ k, k ∈ r.closes ↔ k ∈ q.closes ∨ ∃ e, e ∈ im.cascades ∧ e.2 = m.tag ∧ k = BitVec.ofNat 8 e.1)))

/-- Discovery (18 R532, R538, R554-R558, R560): the Baton's way out and back, what an engine notes of it, the end of discovery, conflicts, a
rediscovery, and what IDENT and the loss of a link leave. -/
def Obligations.DiscoveryNumbersTheTree : Prop :=
  ∀ (s : State) (m : RelayMsg),
    let d := s.disc
    let p := m.payload
    let root := BitVec.ofNat 128 (fld p 0 16)
    let next := fld p 16 2
    -- the Baton goes out of the next port that is UP and is not the parent's, in ascending order, or back to the parent
    let turn (u : State) (past : Nat) : Prop :=
      (∀ q : BitVec 2, past < q.toNat → u.linkUp q = true → u.disc.parent ≠ some q →
        (∀ r : BitVec 2, past < r.toNat → r.toNat < q.toNat → u.linkUp r = false ∨ u.disc.parent = some r) →
        u.batonNext past = (u.setDisc { u.disc with waitPort := some q }).emit
          (.relay q 0x03 0xFFFF u.srcNode u.disc.dseq (batonBytes u.disc.rootSerial u.disc.nextId 0 0))) ∧
      ((∀ q : BitVec 2, past < q.toNat → u.linkUp q = false ∨ u.disc.parent = some q) →
        let ended := u.setDisc { u.disc with waitPort := none }
        (∀ q n, u.disc.parent = some q → u.disc.nodeId = some n →
          u.batonNext past = ended.sendBaton q u.disc.nextId (u.disc.nextId - n.toNat) 1) ∧
        (u.disc.parent = none → u.batonNext past = ended.endDiscovery u.disc.nextId))
    let baton (kind : Nat) : Prop := Heard s m 0x03 ∧ p.length = 32 ∧ fld p 20 1 = kind ∧ next ≤ 4096 ∧ (kind ≠ 1 → fld p 18 2 = 0) ∧
      allZero (slice p 21 11) = true
    let awaited : Prop := d.waitPort = some m.port ∧ d.dseq = m.tag ∧ root = d.rootSerial
    (∀ u past, turn u past) ∧
    (∀ n, let e := s.endDiscovery n
      e.disc = { d with done := true, rediscover := false } ∧ e.ras = (s.raiseDevice 259 0xFF 0 0).ras) ∧
    (s.working = true → s.isRoot = true → (d.dseq = 0 ∨ d.rediscover = true) → d.waitPort = none →
      exec .batonStart s = .next ((s.setDisc { d with
        dseq := d.dseq + 1, nodeId := some 0, parent := none, children := [], ring := [], rootSerial := Config.serial, nextId := 1, done := false
        conflict := false }).batonNext 0)) ∧
    -- an engine receives the Baton
    (baton 0 →
      let answer (u : State) (kind : Nat) : State := u.sendLink m.port 0x03 m.tag (batonBytes root next 0 kind)
      (s.isRoot = true → root = Config.serial → exec (.batonOut m) s = .next (answer s 2)) ∧
      (s.isRoot = true → root ≠ Config.serial → exec (.batonOut m) s = .next
        (((answer s 3).floodConflict s.upPorts).enterConflict)) ∧
      (s.isRoot = false → d.dseq = m.tag → d.parent ≠ none → d.done = false → exec (.batonOut m) s = .next (answer s 2)) ∧
      (s.isRoot = false → (d.dseq ≠ m.tag ∨ d.parent = none ∨ d.done = true) →
        let u := s.beforeDiscovery.applyLinkEn
        let e := { u.disc with
          dseq := m.tag, rootSerial := root, parent := some m.port, children := [], ring := [], waitPort := none, done := false }
        u.linkUp m.port = true →
          (next = 4096 → exec (.batonOut m) s = .next ((u.setDisc { e with nextId := 4096 }).enterConflict.sendBaton m.port 4096 0 1)) ∧
          (next ≠ 4096 → exec (.batonOut m) s = .next ((u.setDisc { e with
            nodeId := some (BitVec.ofNat 12 next), nextId := next + 1, conflict := false }).batonNext 0)))) ∧
    (baton 1 → awaited → exec (.batonBack m) s = .next ((s.setDisc { d with
      children := if fld p 18 2 = 0 then d.children else d.children ++ [(m.port, d.nextId, fld p 18 2)]
      nextId := next }).batonNext m.port.toNat)) ∧
    (baton 2 → awaited → exec (.batonVisited m) s = .next ((s.setDisc { d with ring := d.ring ++ [m.port] }).batonNext m.port.toNat)) ∧
    (baton 3 → awaited →
      (∀ q, d.parent = some q → exec (.batonConflict m) s = .next ((s.setDisc { d with waitPort := none }).sendBaton q next 0 3)) ∧
      (d.parent = none → exec (.batonConflict m) s = .next ((s.floodConflict s.upPorts).enterConflict))) ∧
    (Heard s m 0x04 → p.length = 16 → allZero (p.drop 2) = true → d.parent = some m.port → d.dseq = m.tag → d.done = false → d.nodeId ≠ none →
      exec (.discEnd m) s = .next (s.endDiscovery (fld p 0 2))) ∧
    -- conflicts
    (s.working = true → s.isRoot = false → d.dseq = 0 → d.done = false →
      ((∀ q, q ∈ chainPorts → s.linkUp q = false) → exec .batonTimeout s = .next ((s.setDisc { d with nodeId := some 0 }).endDiscovery 1)) ∧
      ((∃ q, q ∈ chainPorts ∧ s.linkUp q = true) → exec .batonTimeout s = .next s.enterConflict)) ∧
    (Heard s m 0x05 → p.length = 32 → p.headD 0 = 1 → allZero (slice p 1 15) = true →
      (d.conflict = true → exec (.conflict m) s = .next s) ∧
      (d.conflict = false → exec (.conflict m) s = .next ((s.floodConflict (s.upPorts.filter (· ≠ m.port))).enterConflict))) ∧
    (d.conflict = false → s.enterConflict.disc = { d with nodeId := none, conflict := true, waitPort := none } ∧ s.enterConflict.srcNode = 0xFFFF ∧
      s.enterConflict = (s.setDisc s.enterConflict.disc).raiseDevice 260 0xFF 0 0) ∧
    (∀ inst (value : BitVec 32), s.managerAccess inst = true → value.getLsbD 0 = true → s.isRoot = true → s.ready = true → d.rediscover = false →
      let u := (s.setDisc { d with linkEn := (value >>> 8).setWidth 3 }).beforeDiscovery.applyLinkEn
      exec (.rediscover inst value) s = .next (u.setDisc { u.disc with rediscover := true, done := false, waitPort := none })) ∧
    -- links
    (∀ q, q ∈ chainPorts →
      let u := s.applyLinkEn
      (d.linkEn.getLsbD (q.toNat - 1) = false → (u.link q).st = .disabled ∧ (u.link q).frags = []) ∧
      (d.linkEn.getLsbD (q.toNat - 1) = true →
        u.link q = if (s.link q).st = .disabled then { Link.down with st := .training } else s.link q)) ∧
    (
      let l := s.link m.port
      s.working = true → l.st = .training → identOk p = true → m.tag = 0 →
        (fld p 18 2 ≠ 1 → exec (.ident m) s = .next ((s.setLink m.port { l with frags := [] }).protocolError m.port)) ∧
        (fld p 18 2 = 1 →
          ∃ new, exec (.ident m) s = .next new ∧ new.link m.port = { st := .up, serial := some root, frags := [] } ∧
            new.out = .relay m.port 0x02 0xFFFF (new.srcOn m.port) 0 (s.identBytes m.port) :: s.out ∧
            (m.port = 0 → new.pair.hbCount = 0 ∧ new.disc = d) ∧
            (m.port ≠ 0 → new.pair.hbCount = s.pair.hbCount ∧
              new.disc = if d.dseq = 0 then { d with nodeId := none } else d) ∧
            ∀ q, q ≠ m.port → new.link q = s.link q)) ∧
    (∀ port, s.working = true → (s.link port).st = .up →
      let u := (s.setLink port { s.link port with st := .training, frags := [] }).raiseDevice 261 0xFF (port.setWidth 64) 0
      (port = 0 →
        let w := { u with pair := { u.pair with syncTo := none } }
        exec (.relayLinkDown port) s = .next
          (if w.pair.role = .paired ∧ w.pair.fenceWait = false then w.lossDecision.dropFetches else w.dropFetches)) ∧
      (port ≠ 0 →
        let w := u.stopXchs fun x => x.nodes.any fun n => n != s.srcNode && s.route n == some port
        exec (.relayLinkDown port) s = .next (if s.cascadeOn port = true then w.breakCascade else w))) ∧
    -- an engine that has saved its state, or has declared a fatal error, does nothing more (04 R133, 20 R600)
    (s.working = false → ∀ i port, i ∈ [Instr.batonStart, .batonTimeout, .ident m, .relayLinkDown port] → exec i s = .next s)

/-- The roles of a mirrored pair (18 R546-R552): the loss decision, the fence, the takeover, the live signal, heartbeats, and how a pair forms. -/
def Obligations.PairRolesFollowLossAndReturn : Prop :=
  ∀ (s : State),
    let p := s.pair
    let fenced (u new : State) : Prop := (u.pair.fenceIn = true → new = u.becomeFenced) ∧ (u.pair.fenceIn = false → new = u.becomeSolo)
    let decided (u new : State) : Prop :=
      (u.lowerSerial = true → fenced u new) ∧
      (u.lowerSerial = false → u.pair.aliveIn = true → new = u.becomeFenced) ∧
      (u.lowerSerial = false → u.pair.aliveIn = false → new = { u with pair := { u.pair with fenceWait := true } })
    let formed (u new : State) (lead : Bool) : Prop :=
      new.pair = { u.pair with
        role := .paired, lead := lead, fenceDriven := false, fenceIn := false, takeoverDue := false, fenceWait := false, mseq := 0, fwdId := 0
        syncTo := none, partnerCount := u.store.jpos, directory := if lead then u.allTables else [] } ∧
      (∀ i, (new.inst i).unsynced = false) ∧ ∀ i, new.inst i = { u.inst i with unsynced := (new.inst i).unsynced }
    -- losses
    (s.glb.phase = .ready → p.role = .paired → p.fenceWait = false → ∃ new, exec .peerLost s = .next new ∧ decided s new) ∧
    (s.working = true → p.role = .joining → s.linkUp 0 = false → p.fenceWait = false → ∃ new, exec .joiningTimeout s = .next new ∧ decided s new) ∧
    (s.working = true → p.fenceWait = true → ∃ new, exec .fenceDelay s = .next new ∧ fenced s new) ∧
    (∀ a b, (s.link 0).serial = some b → Config.serial = a →
      (s.lowerSerial = true ↔ ∃ k < 16, a.extractLsb' (8 * k) 8 < b.extractLsb' (8 * k) 8 ∧
        ∀ j < k, a.extractLsb' (8 * j) 8 = b.extractLsb' (8 * j) 8)) ∧
    (
      let u := s.becomeSolo
      u.pair.role = .solo ∧ u.pair.lead = true ∧ u.pair.fenceDriven = true ∧ u.pair.takeoverDue = true ∧ u.pair.epoch = p.epoch + 1 ∧
      u.pair.directory = s.allTables ∧ u.pair.fetches = []) ∧
    (
      let u := s.becomeFenced
      u.pair.role = .fenced ∧ u.pair.lead = false ∧ u.pair.fenceWait = false ∧
      (∀ c, c ∈ u.rings.cmds → c.tag.sqid = 0) ∧ u.store.flushes = [] ∧ u.store.reads = [] ∧
      (∀ q, q ∈ u.queries → (s.inst q.tag.inst).st = .absent) ∧
      -- a queue that serves keeps its state; a drain ends, and with it the RESET_QUEUE or DELETE_SQ that asked for it (03 R95)
      (∀ i k q, s.sq i k = some q → q.st ≠ .draining → u.sq i k = some (if k = 0 then q else { q with openBatch := none })) ∧
      ∀ i k q t, s.sq i k = some q → k ≠ 0 → q.st = .draining →
        (q.drain = some (.reset t) → ∃ v, u.sq i k = some v ∧ v.st = .active ∧ v.head = 0) ∧ (q.drain = some (.delete t) → u.sq i k = none)) ∧
    (s.working = true → p.takeoverDue = true → p.role = .solo → exec .pairTakeover s = .next
      ((State.raiseDevice { s with pair := { p with takeoverDue := false } } 256 0xFF 0 0).raiseAll 520 0)) ∧
    (s.working = true → p.fenceDriven = false →
      let u := { s with pair := { p with fenceIn := true } }
      exec .pairFenceLow s = .next (if p.role = .paired ∨ p.role = .syncing then u.becomeFenced else u)) ∧
    (s.working = false → ∀ i, i ∈ [Instr.peerLost, .joiningTimeout, .fenceDelay, .pairTakeover, .pairFenceLow] → exec i s = .next s) ∧
    -- the live signal
    (s.glb.phase = .ready → p.aliveRun = true → exec .peerAliveToggle s = .next { s with pair := { p with aliveOut := !p.aliveOut } }) ∧
    ((s.glb.phase ≠ .ready ∨ p.aliveRun = false) → exec .peerAliveToggle s = .next s) ∧
    exec .peerAliveLoss s = .next { s with pair := { p with aliveIn := false } } ∧
    -- heartbeats
    (s.linkUp 0 = true → s.glb.phase = .ready → p.role ∈ [.joining, .syncing, .paired, .solo] →
      ∃ b, b.length = 32 ∧ fld b 0 1 = p.role.code ∧ (bit (fld b 1 1) 0 = s.glb.fetchPaused) ∧ (bit (fld b 1 1) 1 = p.lead) ∧
        fld b 4 4 = p.epoch.toNat ∧ fld b 8 8 = s.durableJpos.toNat ∧ fld b 16 8 = s.time.toNat % 2 ^ 64 ∧
        exec .heartbeatSend s = .next (State.emit { s with pair := { p with hbCount := p.hbCount + 1 } }
          (.relay 0 0x01 0xFFFF 0xFFFF p.hbCount b))) ∧
    (∀ (m : RelayMsg), Heard s m 0x01 → m.payload.length = 32 →
      let b := m.payload
      let role := fld b 0 1
      let epoch := BitVec.ofNat 32 (fld b 4 4)
      let jpos := BitVec.ofNat 64 (fld b 8 8)
      role ≤ 5 → fld b 1 1 < 4 → fld b 2 2 = 0 → fld b 24 8 = 0 →
      let u := { s with pair := { p with aliveIn := true, partnerPause := bit (fld b 1 1) 0, partnerJpos := jpos } }
      let same : Prop := p.epoch = epoch ∧ s.store.jpos = jpos
      let behind : Prop := p.epoch < epoch ∨ (p.epoch = epoch ∧ s.store.jpos < jpos)
      ∃ new, exec (.heartbeat m) s = .next new ∧
        ((p.role = .paired ∨ p.role = .single) → new = u) ∧
        (p.role = .joining → role = 1 → same → formed u new s.lowerSerial) ∧
        (p.role = .joining → (role = 4 ∨ (role = 1 ∧ behind)) → new = u.beginSync) ∧
        (p.role = .fenced → new = if role = 4 then u.beginSync else u) ∧
        ((p.role = .solo ∨ p.role = .joining) → role = 2 → p.syncTo = none → new = u.resyncPartner jpos) ∧
        (p.role = .syncing → role = 3 →
          ∃ v, new = v.raiseDevice 258 0xFF 0 0 ∧
            formed { u with pair := { u.pair with epoch := epoch }, store := { u.store with jpos := jpos } } v false)) ∧
    -- resynchronising
    (∀ pj, s.lacking pj = [] → formed { s with pair := { p with lead := true, mseq := 0 } } (s.resyncPartner pj) true) ∧
    (
      let u := s.beginSync
      u.pair.role = .syncing ∧ u.pair.lead = false ∧ (∀ w, w ∈ u.store.writes → w.phase = .committed → w.applied = true) ∧
      (∀ e, e ∈ u.store.tables → e.2.home = false) ∧ ∀ i, (u.inst i).st ≠ .absent → (u.inst i).unsynced = true)

/-- Mirrored writes, the directory and the fetching of bytes (18 R537, R539, R542-R545; 16 R474, R494): fragments are put together, a commit is applied and
answered, a forwarded write is committed or refused, table numbers are admitted, and segment bytes are served and taken. -/
def Obligations.MirroredWritesAndTheDirectory : Prop :=
  ∀ (s : State) (m : RelayMsg),
    let p := m.payload
    let bare (cls : BitVec 8) : State := s.setLink m.port ((s.link m.port).dropFrag m cls)
    let fragmented : List ((RelayMsg → Instr) × BitVec 8) := [(.mirrorCommit, 0x10), (.forward, 0x13), (.fetchData, 0x31)]
    let name : BitVec 8 × BitVec 16 := (BitVec.ofNat 8 (fld p 1 1), BitVec.ofNat 16 (fld p 2 2))
    let directory (op : Nat) : Prop := Heard s m 0x14 ∧ p.length = 16 ∧ fld p 0 1 = op ∧ fld p 4 12 = 0
    let back (u : State) (op : BitVec 8) : State := u.sendLink 0 0x14 m.tag (op :: p.drop 1)
    let less (u : State) (w : Write) : State := { u with store := { u.store with writes := u.store.writes.filter (· ≠ w) } }
    (∀ e, e ∈ fragmented →
      (∀ got, Continues s m e.2 got → fld p 10 2 = 0 →
        let l := (s.link m.port).dropFrag m e.2
        exec (e.1 m) s = .next (s.setLink m.port { l with
          frags := { cls := e.2, src := m.src, tag := m.tag, total := fld p 4 4, got := got ++ slice p 16 (fld p 8 2) } :: l.frags })) ∧
      (Heard s m e.2.toNat → (∀ got, ¬Continues s m e.2 got) → exec (e.1 m) s = .next ((bare e.2).protocolError m.port))) ∧
    -- commits
    (∀ bs, Assembled s m 0x10 bs →
      (parseCommit bs true = none → exec (.mirrorCommit m) s = .next ((bare 0x10).protocolError m.port)) ∧
      (∀ w, parseCommit bs true = some w →
        let mine := w.fwdId.bind fun id => s.store.writes.find? fun x => x.phase == .forwarded && x.fwdId == some id
        ∃ u : State, exec (.mirrorCommit m) s = .next ((u.applyMirror w mine).sendApplied m.tag w false 0) ∧
          u = { bare 0x10 with store := u.store, pair := u.pair } ∧ u.store = { s.store with writes := u.store.writes } ∧
          u.pair = { (bare 0x10).pair with directory := u.pair.directory } ∧
          (∀ x, x ∈ u.store.writes ↔ x ∈ s.store.writes ∧ mine ≠ some x) ∧
          (∀ n, n ∈ u.pair.directory ↔ n ∈ s.pair.directory ∧ (w.kind = .drop → n ≠ (w.inst, w.tid))))) ∧
    -- while this engine syncs, a record that creates a table begins it afresh
    (∀ w mine s1 r undoCell undoTable,
      let v := if s.pair.role = .syncing ∧ w.kind = .create then
        { s with store := { s.store with tables := AMap.erase s.store.tables (w.inst, w.tid) } } else s
      v.applyRecord { w with boundGen := ((v.table? w.inst w.tid).map (·.gen)).getD 0, result := (mine.map Write.result).getD 0 } =
          .ok (s1, r, undoCell, undoTable) →
        let u := s.applyMirror w mine
        u.store.jpos = s1.store.jpos + 1 ∧ u.pair.partnerCount = s1.pair.partnerCount + 1 ∧
        u.store.journal = s1.store.journal ++ [(s1.store.jpos + 1, commitPayload w false 0 true)] ∧
        ∀ t, u.table? w.inst w.tid = some t → t.cseq = w.cseq) ∧
    (Heard s m 0x11 → p.length = 32 → fld p 6 2 = 0 → fld p 12 4 = 0 → fld p 24 8 = 0 →
      (fld p 1 1 = 1 → fld p 4 2 < 2 ^ 15 →
        ∀ w t, (s.store.writes.find? fun x => x.phase == .forwarded && x.fwdId == some m.tag) = some w → w.tag = some t →
          exec (.mirrorApplied m) s = .next ((less s w).finish t (BitVec.ofNat 15 (fld p 4 2)) 0)) ∧
      (fld p 1 1 = 0 → fld p 4 2 = 0 →
        let n := s.pair.partnerCount + 1
        let hit (w : Write) : Bool := w.phase == .committed && w.mseq == some m.tag && !w.applied
        let u := State.settleWrites { s with
          pair := { s.pair with partnerCount := n }
          store := { s.store with writes := s.store.writes.map fun w => if hit w then { w with applied := true, pjpos := n } else w } }
        exec (.mirrorApplied m) s = .next (if u.pair.syncTo = some m.tag then u.becomePaired true else u))) ∧
    (Heard s m 0x12 → p.length = 16 → fld p 12 4 = 0 →
      let j := BitVec.ofNat 64 (fld p 0 8)
      let hit (w : Write) : Bool := w.phase == .committed && w.pjpos != 0 && w.pjpos.ule j
      let done := (s.store.writes.filter hit).map (·.jpos)
      exec (.mirrorDurable m) s = .next (State.settleFlushes (State.settleWrites { s with
        store := { s.store with
          writes := s.store.writes.map fun w => if hit w then { w with partnerDurable := true } else w
          journal := s.store.journal.filter fun e => !(done.contains e.1) }
        pair := { s.pair with partnerJpos := j } }))) ∧
    -- forwarded writes
    (∀ bs, Assembled s m 0x13 bs →
      let u := bare 0x13
      (parseCommit bs false = none → exec (.forward m) s = .next (u.protocolError m.port)) ∧
      (∀ w, parseCommit bs false = some w →
        let fits : Prop :=
          (w.kind = .install → u.quotaFits w.inst (ceilDiv w.seg.length 65536) 1 0 = true) ∧ (w.kind = .create → u.quotaFits w.inst 0 0 1 = true)
        let v := { w with boundGen := ((u.table? w.inst w.tid).map (·.gen)).getD 0, fwdId := some m.tag, completed := true }
        (u.forwardStale w = true → exec (.forward m) s = .next (u.sendApplied m.tag w true 0x0801)) ∧
        (u.forwardStale w = false → ¬fits → exec (.forward m) s = .next (u.sendApplied m.tag w true 0x1801)) ∧
        (u.forwardStale w = false → fits → exec (.forward m) s = .next ((u.addWrite v).commitWrite v true m.tag fun st x => x.sendApplied m.tag w true st)))) ∧
    -- the directory
    (directory 0 → s.pair.lead = true →
      (name ∈ s.pair.directory ∨ (s.inst name.1).st = .absent → exec (.directoryRequest m) s = .next (back s 2)) ∧
      (name ∉ s.pair.directory → (s.inst name.1).st ≠ .absent → exec (.directoryRequest m) s = .next
        (back { s with pair := { s.pair with directory := name :: s.pair.directory } } 1))) ∧
    (directory 1 →
      let waiting := s.store.writes.find? fun w => w.phase == .admitting && w.reqId == some m.tag
      (waiting = none → exec (.directoryAdmit m) s = .next (back s 3)) ∧
      (∀ w t, waiting = some w → w.tag = some t → 
        (s.partnerRefuses w = none → exec (.directoryAdmit m) s = .next
          ((if s.pair.role = .paired then s.tick else s).commitWrite w false 0 fun st x => (back x 3).finish t st 0)) ∧
        (∀ st, s.partnerRefuses w = some st → exec (.directoryAdmit m) s = .next ((back (less s w).tick 3).finish t st 0)))) ∧
    (directory 2 → ∀ w t, (s.store.writes.find? fun w => w.phase == .admitting && w.reqId == some m.tag) = some w → w.tag = some t →
      exec (.directoryRefuse m) s = .next ((less s w).finish t 0x0801 0)) ∧
    (directory 3 → exec (.directoryRelease m) s = .next
      { s with pair := { s.pair with directory := s.pair.directory.filter (· ≠ name) } }) ∧
    -- segment bytes
    (Heard s m 0x30 → p.length = 48 → fld p 1 1 = 0 → fld p 4 2 < 4096 → fld p 6 2 = 0 → fld p 8 4 < 2 ^ 20 → allZero (slice p 32 16) = true →
      let off := fld p 12 4
      let len := fld p 16 4
      off % 64 = 0 → len % 64 = 0 → 64 ≤ len → len ≤ 4194304 →
      let wanted (e : Nat × Segment) : Prop := e.2.inst.toNat = fld p 0 1 ∧ e.2.epoch.toNat = fld p 20 4 ∧ e.2.cseq.toNat = fld p 24 8 ∧
        ∃ tid col slot cur, s.segName? e.1 = some (tid, col, slot, cur) ∧ tid.toNat = fld p 2 2 ∧ col.toNat = fld p 4 2 ∧ slot.toNat = fld p 8 4
      let sound (g : Segment) : Prop := g.lost = false ∧ g.rebuild = false ∧
        ∀ l, off ≤ 64 * l → 64 * l < off + len → l ∉ g.poison ∧ l ∉ g.repair
      let answer (st : BitVec 15) (bs : Bytes) : State :=
        (fragments 65520 (leBytes 2 st.toNat ++ zeros 2 ++ leBytes 4 bs.length ++ zeros 8 ++ bs)).foldl (fun u f => u.sendLink m.port 0x31 m.tag f) s
      ((∀ e, e ∈ s.store.segs → ¬wanted e) → exec (.fetchReq m) s = .next (answer 0x0801 [])) ∧
      ∀ e, e ∈ s.store.segs → wanted e → (∀ f, f ∈ s.store.segs → wanted f → f = e) →
        (e.2.bytes.length < off + len → exec (.fetchReq m) s = .next (answer 0x0801 [])) ∧
        (off + len ≤ e.2.bytes.length → ¬sound e.2 → exec (.fetchReq m) s = .next (answer 0x1001 [])) ∧
        (off + len ≤ e.2.bytes.length → sound e.2 → exec (.fetchReq m) s = .next (answer 0 (slice e.2.bytes off len)))) ∧
    (∀ bs, Assembled s m 0x31 bs → 16 ≤ bs.length → fld bs 2 2 = 0 → fld bs 8 8 = 0 → bs.length = 16 + fld bs 4 4 →
      fld bs 0 2 ∈ [0x0000, 0x1001, 0x0801] → (fld bs 0 2 ≠ 0 → fld bs 4 4 = 0) →
      let u := bare 0x31
      let v := { u with pair := { u.pair with fetches := AMap.erase u.pair.fetches m.tag } }
      (∀ n l ch rank d1, AMap.find? s.pair.fetches m.tag = some (.repair n l ch rank d1) →
        let x := v.modSeg n fun g => { g with repair := g.repair.filter (· ≠ l) }
        (fld bs 0 2 = 0 → exec (.fetchData m) s = .next
          (((x.modSeg n fun g => { g with bytes := overlay g.bytes (64 * l) (bs.drop 16), poison := g.poison.filter (· ≠ l) }).count
            (ctrDramUe ch rank)).dramEvent 66 ch (rank.setWidth 8) d1)) ∧
        (fld bs 0 2 ≠ 0 → exec (.fetchData m) s = .next
          (((x.modSeg n fun g => { g with poison := l :: g.poison }).count (ctrDramUe ch rank)).dramEvent 67 ch (rank.setWidth 8) d1))) ∧
      (∀ n g, AMap.find? s.pair.fetches m.tag = some (.rebuild n) → AMap.find? s.store.segs n = some g → g.rebuild = true →
        (fld bs 0 2 = 0 →
          let x := v.modSeg n fun g => { g with bytes := bs.drop 16, rebuild := false }
          exec (.fetchData m) s = .next (State.rebuildCheck { x with dram := { x.dram with rebuilt := x.dram.rebuilt + 1 } })) ∧
        (fld bs 0 2 ≠ 0 →
          let current : Prop := ∃ tid col slot, s.segName? n = some (tid, col, slot, true)
          (current → exec (.fetchData m) s = .next (v.modSeg n fun g => { g with rebuild := false, lost := true }).rebuildCheck) ∧
          (¬current → exec (.fetchData m) s = .next (v.modSeg n fun g => { g with rebuild := false, poison := g.lines }).rebuildCheck))))

/-- Firmware and the management port (20 R602-R614): which directory copy governs and what a commit writes, downloads, activations, and the answers of the
management port. -/
def Obligations.FirmwareAndManagementPort : Prop :=
  ∀ (s : State) (t : Tag) (c : Cmd),
    let f := s.fw
    let other := !f.activeB
    let answers (i : Instr) (bs : Bytes) : Prop := exec i s = .next (s.emit (.mgmt bs))
    let refuses (i : Instr) : Prop := exec i s = .next (s.emit .mgmtError)
    -- the directory
    (∀ (g : Fw) b, (g.governing ≠ none →
        (g.commitDir b).activeB = b ∧
        ∃ d second n, g.governing = some (d, second) ∧ n = ({ slotB := b, dseq := d.dseq + 1 } : FlashDir) ∧
          g.commitDir b = if second then { g with dir0 := some n } else { g with dir1 := some n }) ∧
      (g.dir0 = none → g.dir1 = none → g.activeB = false)) ∧
    (∀ (g : Fw) b, (g.commit b).dir0 = (g.commitDir b).dir0 ∧ (g.commit b).dir1 = (g.commitDir b).dir1 ∧
      (g.commit b).fuseSvn.toNat = max g.fuseSvn.toNat (g.slot b).svn) ∧
    -- downloads
    (f.act = none → Runs s t 0x10 c →
      let len := c.f 16 4
      let off := c.f 20 4
      let kept (k : Nat) : Prop := ∃ u, AMap.find? f.units other = some u ∧ k ∈ u
      let takes : Prop := c.clean [(8, 16)] = true ∧ len % 4096 = 0 ∧ 4096 ≤ len ∧ len ≤ 1048576 ∧ off % 4096 = 0 ∧ off + len ≤ 33554432 ∧
        (off = 0 ∨ (AMap.find? f.units other ≠ none ∧ ∀ k, k < len / 4096 → ¬kept (off / 4096 + k)))
      (¬takes → ∀ src, Ends s (.fwDownload t src) t 0x0801 0 s) ∧
      (takes → ∀ bs, bs.length = len → ∃ e, Ends s (.fwDownload t (.data bs)) t 0 0 e ∧
        e = { s.accessed t.inst none (BitVec.ofNat 64 (c.f 8 8)) len false with fw := e.fw } ∧
        e.fw.slot (!other) = f.slot (!other) ∧ e.fw.dir0 = f.dir0 ∧ e.fw.dir1 = f.dir1 ∧
        (∀ k : Nat, (e.fw.slot other).unit k =
          if off / 4096 ≤ k ∧ k < (off + len) / 4096 then slice bs (4096 * (k - off / 4096)) 4096
          else if off = 0 then List.replicate 4096 0xFF else (f.slot other).unit k) ∧
        ∃ u, AMap.find? e.fw.units other = some u ∧
          ∀ k : Nat, k ∈ u ↔ (off / 4096 ≤ k ∧ k < (off + len) / 4096) ∨ (off ≠ 0 ∧ kept k))) ∧
    -- a download waits, begun, while an activation is in progress
    (f.act ≠ none → Runs s t 0x10 c → ∀ src, ∃ new, exec (.fwDownload t src) s = .next new ∧ new = { s with rings := new.rings } ∧
      ∃ d, new.cmd? t = some d ∧ d.stage = .begun) ∧
    -- activations; one that was fetched during another is refused
    (Runs s t 0x11 c → c.clean [(16, 1)] = true → (∀ a, f.act = some a → a.tag ≠ some t) →
      let action := c.f 16 1
      let i := Instr.fwActivate t
      (f.act ≠ none ∨ 2 < action ∨ (action ≤ 1 ∧ f.complete other = false) → Ends s i t 0x0801 0 s) ∧
      (f.act = none → action ≤ 2 → (action ≤ 1 → f.complete other = true) → f.imageValid other = false → Ends s i t 0x1002 0 s) ∧
      (f.act = none → f.imageValid other = true →
        (action = 0 → f.complete other = true → Ends s i t 0 (f.running.setWidth 64) { s with fw := f.commit other }) ∧
        (action = 2 → Ends s i t 0 (f.running.setWidth 64) { s with fw := f.commitDir other }) ∧
        (action = 1 → f.complete other = true → ∃ new, exec i s = .next new ∧ new.fw = { f with act := some ⟨some t, .loaded, false⟩ } ∧
          new = { s with fw := new.fw, rings := new.rings } ∧ (∃ d, new.cmd? t = some d ∧ d.stage ≠ .finished))) ∧
      ∃ new, exec i { s with fw := { f with late := t :: f.late } } = .next new ∧ Ended s t 0x0801 0 [] new) ∧
    (∀ a, f.act = some a → s.glb.phase = .ready →
      (a.step = .loaded →
        (s.pair.role = .paired → s.pair.partnerPause = true → exec .fwLivePause s = .next s) ∧
        ((s.pair.role ≠ .paired ∨ s.pair.partnerPause = false) → exec .fwLivePause s = .next
          { s with fw := { f with act := some { a with step := .paused } }, glb := { s.glb with fetchPaused := true } })) ∧
      (a.step = .paused →
        let u := { s with glb := { s.glb with fetchPaused := false }, fw := { f with act := none } }
        let g := (u.fw.commit other).run other
        let v := g.running.setWidth 64
        -- the FLRs that came during the pause are served after it
        exec (.fwLiveHandover true) s = .next
          (State.serveFlrs (((State.raiseDevice { u with fw := g } 5 0xFF v 0).raiseAll 522 v).endActivation a 0 v)) ∧
        exec (.fwLiveHandover false) s = .next (State.serveFlrs ((u.raiseDevice 6 0xFF 4 0).endActivation a 0x3802 0)))) ∧
    (∀ u : State, u.glb.flrDue = [] → u.serveFlrs = u) ∧
    (∀ (g : Fw) b, (g.run b).running = BitVec.ofNat 32 (g.slot b).version ∧ (g.run b).runSvn = BitVec.ofNat 16 (g.slot b).svn ∧
      (g.run b).runDigest = (g.slot b).digest) ∧
    -- the management port
    (∀ port : BitVec 2,
      (s.glb.ports.getLsbD port.toNat = true → exec (.setManager port) s = .next { s with glb := { s.glb with nextManager := some (pfOf port) } }) ∧
      (s.glb.ports.getLsbD port.toNat = false → refuses (.setManager port))) ∧
    (∃ b : Byte, exec .getState s = .next (s.tick.emit (.mgmt [s.glb.manager.getD 0xFF, b])) ∧
      (s.glb.phase = .ready → b = 0) ∧ (s.glb.phase = .recovery → b = 1) ∧ (s.glb.phase = .fatal → b = 2)) ∧
    (∀ sensor : BitVec 8, ∃ e, exec (.pldmSensorRead sensor) s = .next (s.tick.emit e) ∧
      ((sensor = 0 ∨ 18 < sensor.toNat) → e = .mgmtError) ∧
      (sensor = 1 → e = .mgmt (leBytes 4 (BitVec.ofInt 32 (tjmax s.power.temps)).toNat)) ∧
      (sensor = 3 → e = .mgmt (leBytes 4 s.power.heldTokens)) ∧
      (sensor = 16 → e = .mgmt (leBytes 4 s.power.watts.toNat)) ∧
      (sensor = 17 → e = .mgmt [BitVec.ofNat 8 s.pair.role.code]) ∧
      (sensor = 18 → s.glb.phase = .ready → e = .mgmt [0]) ∧
      (sensor = 2 ∨ (4 ≤ sensor.toNat ∧ sensor.toNat ≤ 15) → ∃ bs, e = .mgmt bs ∧ bs.length = 4)) ∧
    (∀ (offset : BitVec 32) (bs : Bytes),
      let off := offset.toNat
      let takes : Prop := f.act = none ∧ bs ≠ [] ∧ bs.length % 4096 = 0 ∧ off % 4096 = 0 ∧ off + bs.length ≤ 33554432 ∧
        f.mayWrite other off bs.length = true
      (takes → exec (.pldmFirmwareUpdate offset bs) s = .next (State.emit { s with fw := f.writePiece other off bs } (.mgmt []))) ∧
      (¬takes → refuses (.pldmFirmwareUpdate offset bs))) ∧
    (
      let sound : Prop := f.act = none ∧ f.complete other = true ∧ f.imageValid other = true
      (sound → exec (.activateFirmware false) s = .next
        (State.emit { s with fw := f.commit other } (.mgmt (leBytes 4 f.running.toNat)))) ∧
      (sound → s.glb.phase = .ready → exec (.activateFirmware true) s = .next { s with fw := { f with act := some ⟨none, .loaded, true⟩ } }) ∧
      (¬sound → ∀ self, refuses (.activateFirmware self))) ∧
    answers .getDigests (leBytes 48 (Config.sha384 Config.certificateChain).toNat) ∧
    (∀ offset len : BitVec 16, answers (.getCertificate 0 offset len) (slice Config.certificateChain offset.toNat len.toNat)) ∧
    (∀ slot offset len, slot ≠ 0 → refuses (.getCertificate slot offset len)) ∧
    (∀ nonce, answers (.challenge nonce) (Config.spdmSign nonce)) ∧
    (
      let first := leBytes 48 Config.bootRomDigest.toNat
      let image := leBytes 48 f.runDigest.toNat
      let svns := leBytes 2 f.runSvn.toNat ++ leBytes 2 f.fuseSvn.toNat
      let straps := [BitVec.ofNat 8 (s.glb.straps.bootSel.toNat + 4 * Bool.asNat s.glb.straps.pairEn + 8 * Bool.asNat s.glb.straps.rootN)]
      answers (.getMeasurements 1) first ∧ answers (.getMeasurements 2) image ∧ answers (.getMeasurements 3) svns ∧
      answers (.getMeasurements 4) straps ∧ answers (.getMeasurements 0xFF) (first ++ image ++ svns ++ straps) ∧
      ∀ n, n ∉ [1, 2, 3, 4, 0xFF] → refuses (.getMeasurements n))

/-- The set-up registers (21 R615-R621, R624-R637; 16 R475; 17 R524-R526; 19 R577-R580; 20 R586, R589): who may access them, whole and half accesses, what
writes leave of a register, the MSI-X table, the doorbell page and the Liaison Page. -/
def Obligations.RegistersReadAndWrite : Prop :=
  ∀ (s : State) (i : BitVec 8) (off : BitVec 32) (v : BitVec 64) (size : BitVec 4),
    let f := s.fn i
    let put (sz : BitVec 4) : Host.Outcome State Fault Refusal := exec (.registerWrite i 0 off sz v) s
    let got (sz : BitVec 4) (g : Fn) (x : BitVec 64) : Prop := exec (.registerRead i 0 off sz) s = .next (s.setFn i { g with lastRead := x })
    let fld (hi lo : Nat) : Nat := bits v.toNat hi lo
    -- who may access a block
    (∀ b o, blockOf (isPf i) off.toNat = some (b, o) →
      (s.mayWriteBlock i b = true ↔ s.glb.phase = .ready ∧ f.present = true ∧ b ≠ .glb ∧ b ≠ .pba ∧
        (b ∈ [.inst, .dram, .ras, .peer, .pwr, .asa] → s.glb.manager = some i)) ∧
      (s.mayWriteBlock i b = false → put size = .next s) ∧
      (f.present = true → s.mayReadBlock i b = false → got size f 0) ∧
      (f.present = true → (s.mayReadBlock i b = true ↔
        (s.glb.phase = .ready ∧ (b ∈ [.inst, .dram, .ras] → s.glb.manager = some i) ∧ (b ∈ [.peer, .pwr, .asa] → isPf i = true)) ∨
        (b = .glb ∧ (s.glb.phase = .recovery ∨ s.glb.phase = .fatal))))) ∧
    (f.present = false → exec (.registerRead i 0 off size) s = .next s) ∧
    (f.present = true → blockOf (isPf i) off.toNat = none → got size f 0) ∧
    -- whole and half accesses
    (∀ b o r base width, blockOf (isPf i) off.toNat = some (b, o) → regOf b o = some (r, base, width) →
      let key : BitVec 3 × BitVec 32 := (0, BitVec.ofNat 32 (off.toNat - (o - base)))
      let clear := s.setFn i { f with heldLow := AMap.erase f.heldLow key }
      let x := s.readReg i r
      (s.mayWriteBlock i b = true →
        (o = base → size.toNat = width → put size = .next (clear.writeReg i r v)) ∧
        (o = base → width = 8 → put 4 = .next (s.setFn i { f with heldLow := AMap.insert f.heldLow key (v.setWidth 32) })) ∧
        (o = base + 4 → width = 8 →
          (∀ low, AMap.find? f.heldLow key = some low → put 4 = .next (clear.writeReg i r (low.setWidth 64 ||| v <<< 32))) ∧
          (AMap.find? f.heldLow key = none → (∀ j, r ≠ .evtPend j) → put 4 = .next (clear.writeReg i r (x &&& 0xFFFFFFFF ||| v <<< 32))) ∧
          (AMap.find? f.heldLow key = none → ∀ j, r = .evtPend j → put 4 = .next (clear.writeReg i r (v <<< 32))))) ∧
      (s.mayReadBlock i b = true → f.present = true →
        (o = base → size.toNat = width → got size f x) ∧
        (o = base → width = 8 → got 4 { f with latched := AMap.insert f.latched key ((x >>> 32).setWidth 32) } (x &&& 0xFFFFFFFF)) ∧
        (o = base + 4 → width = 8 →
          (∀ h, AMap.find? f.latched key = some h → got 4 { f with latched := AMap.erase f.latched key } (h.setWidth 64)) ∧
          (AMap.find? f.latched key = none → got 4 f (x >>> 32))))) ∧
    -- what a write leaves
    (∀ r, r ∈ [.glbId, .glbCap, .glbSts, .glbFwver, .glbSerial0, .glbSerial1, .glbTime, .glbStrap, .admSts, .instMgr, .peerSts, .pwrSts, .asaSts] →
      s.writeReg i r v = s) ∧
    (∀ n : Nat, n < 1024 →
      (∀ id : Nat, id < 1024 → ((s.writeReg i (.evtPend (n / 64)) v).fn i).evtPend.getLsbD id =
        (f.evtPend.getLsbD id && !(id / 64 == n / 64 && v.getLsbD (id % 64)))) ∧
      (s.receivesSource i n = true → fld 10 0 < msixCount i →
        (s.writeReg i (.evtRoute n) v).readReg i (.evtRoute n) = v &&& 0x87FF) ∧
      (s.receivesSource i n = false ∨ msixCount i ≤ fld 10 0 → s.writeReg i (.evtRoute n) v = s)) ∧
    (∀ o : Nat, o < 65536 → (s.writeReg i (.ras o) v).readReg i (.ras o) = 0) ∧
    (s.writeReg i .dramScrub v = if 1 ≤ fld 7 0 ∧ fld 7 0 ≤ 168 then { s with dram := { s.dram with scrubH := v.setWidth 8 } } else s) ∧
    (s.writeReg i .dramCestorm v = if 1 ≤ fld 15 0 ∧ 1 ≤ fld 31 16 then
      { s with dram := { s.dram with thresh := v.setWidth 16, windowMs := (v >>> 16).setWidth 16 } } else s) ∧
    (s.writeReg i .pwrBudget v = if 150 ≤ fld 8 0 ∧ fld 8 0 ≤ 420 then { s with power := { s.power with watts := v.setWidth 9 } } else s) ∧
    (s.writeReg i .asaScancfg v = if 1 ≤ fld 9 0 ∧ fld 9 0 ≤ 1000 then { s with asa := { s.asa with nextPeriod := v.setWidth 10 } } else s) ∧
    (s.writeReg i .pwrCfg v =
      if fld 7 0 ≠ 0 ∧ fld 19 8 ≠ 0 ∧ 95 ≤ fld 26 20 ∧ fld 26 20 ≤ 120 ∧ 1 ≤ fld 31 28 ∧ fld 31 28 ≤ 10 then
        { s with power := { s.power with
          warmUs := v.setWidth 8, restUs := (v >>> 8).setWidth 12, tlimit := (v >>> 20).setWidth 7, thrPct := (v >>> 28).setWidth 4 } }
      else s) ∧
    (s.writeReg i .pwrTemp v = { s with power := { s.power with tsel := v.setWidth 5 } }) ∧
    (∀ n : Nat, n < 16 →
      let w := v &&& 0x1FFF1FFF03FFBFFF
      (s.dram.poolEn = true → s.writeReg i (.dramMap n) v = s ∧ s.writeReg i (.dramChcfg n) v = s) ∧
      (s.dram.poolEn = false → chset w ≠ [] → fld 13 12 ≠ 3 → fld 25 16 ≤ 511 → fld 44 32 ≤ 6143 → 1 ≤ fld 60 48 → fld 60 48 ≤ 6144 →
        fld 60 48 % (chset w).length = 0 → (s.writeReg i (.dramMap n) v).readReg i (.dramMap n) = w)) ∧
    (f.admEn = true ∨ s.admRdy i = true → s.writeReg i .admSqBase v = s ∧ s.writeReg i .admCqBase v = s) ∧
    (f.admEn = false → s.admRdy i = false →
      s.writeReg i .admSqBase v = s.setFn i { f with admSqBase := v &&& ~~~0xFFF } ∧
      s.writeReg i .admCqBase v = s.setFn i { f with admCqBase := v &&& ~~~0xFFF }) ∧
    -- the MSI-X table
    (∀ vec : BitVec 11,
      let x := f.vec vec
      let o := 16 * vec.toNat
      let word (u : State) : Vec := (u.fn i).vec vec
      word (s.writeMsix i o 8 v) = { x with addr := v &&& ~~~3 } ∧
      word (s.writeMsix i (o + 8) 4 v) = { x with data := v.setWidth 32 } ∧
      (v.getLsbD 0 = true → word (s.writeMsix i (o + 12) 4 v) = { x with masked := true }) ∧
      (v.getLsbD 0 = false → s.writeMsix i (o + 12) 4 v = s.unmaskVector i (some vec)) ∧
      s.readMsix i o 8 = x.addr ∧ s.readMsix i (o + 8) 4 = x.data.setWidth 64 ∧
      s.readMsix i (o + 12) 4 = if x.masked then 1 else 0) ∧
    -- the other pages
    (s.glb.phase = .ready → f.present = true →
      (∀ n : BitVec 12,
        exec (.registerWrite i 2 (BitVec.ofNat 32 (8 * n.toNat)) 8 v) s = .next (s.ringSq i n .full v) ∧
        exec (.registerWrite i 2 (BitVec.ofNat 32 (8 * n.toNat)) 4 v) s = .next (s.ringSq i n .low v) ∧
        exec (.registerWrite i 2 (BitVec.ofNat 32 (8 * n.toNat + 4)) 4 v) s = .next (s.ringSq i n .high v) ∧
        exec (.registerWrite i 2 (BitVec.ofNat 32 (0x8000 + 8 * n.toNat)) 8 v) s = .next (s.ringCq i n .full v)) ∧
      exec (.registerWrite i 7 0 size v) s = .next (s.setFn i { f with
        ats := f.ats || v.getLsbD 0, pasidEn := v.getLsbD 1, pmeEn := v.getLsbD 2, fnMask := f.fnMask || v.getLsbD 3
        relaxedEn := v.getLsbD 4 }) ∧
      ∀ page o : Nat, page < 256 → (isPf i = true ∨ page = 0) → o < 0x7F8 →
        let p := if isPf i then BitVec.ofNat 8 page else i
        let byte : Byte := v.setWidth 8
        let area (u : State) (k : Nat) : Byte := (u.inst p).tArea.read k
        s.reachesPage i p = true →
        (isTenant i p = true → ∃ new, exec (.registerWrite i 4 (BitVec.ofNat 32 (4096 * page + o)) 1 v) s = .next new ∧
          area new o = byte ∧ ∀ k, k ≠ o → area new k = area s k) ∧
        (isTenant i p = false → s.glb.manager = some i →
          (exec (.registerWrite i 4 (BitVec.ofNat 32 (4096 * page + o)) 1 v) s = .next s) ∧
          ∃ new, exec (.registerWrite i 4 (BitVec.ofNat 32 (4096 * page + 0x800 + o)) 1 v) s = .next new ∧
            ((new.inst p).mArea.read o = byte) ∧ ∀ k, k ≠ o → (new.inst p).mArea.read k = (s.inst p).mArea.read k) ∧
        exec (.registerRead i 4 (BitVec.ofNat 32 (4096 * page + o)) 1) s = .next (s.setFn i { f with lastRead := (area s o).setWidth 64 })) ∧
    (∀ page : BitVec 8, s.glb.phase = .ready → s.reachesPage i page = true → v.getLsbD 0 = true →
      (isTenant i page = true →
        (∀ m, s.glb.manager = some m → exec (.tDb i page v) s = .next
          (if (s.fn m).evtPend.getLsbD (768 + page.toNat) then s else s.deliver m (s.record (768 + page.toNat) page 0 0))) ∧
        (s.glb.manager = none → exec (.tDb i page v) s = .next
          (if s.ras.holding.any fun r => r.id == BitVec.ofNat 16 (768 + page.toNat) then s
            else s.deliverManager (s.record (768 + page.toNat) page 0 0)))) ∧
      (isTenant i page = false → s.glb.manager = some i → exec (.mDb i page v) s = .next
        (if (s.fn page).evtPend.getLsbD 518 then s else s.raiseInst 518 page 0 0)))

/-- Power, heat and starts (04 R131-R136; 18 R548; 19 R565-R575; 20 R600, R604-R606; 21 R622; 22 R642): what the save sequence, resets, fatal errors and the
two kinds of start leave, and how leave is asked for, granted and given back. -/
def Obligations.SavesStartsAndLeave : Prop :=
  ∀ (s : State) (drained : List Nat),
    let saves (new : State) : Prop :=
      new.glb.saveDone = true ∧ new.glb.fetchPaused = false ∧ new.glb.flrDue = [] ∧ new.fw = { s.fw with act := none, late := [] } ∧
      new.pair.aliveRun = false ∧
      new.rings.sqs = [] ∧ new.rings.cqs = [] ∧ new.rings.cmds = [] ∧ new.queries = [] ∧ new.disp.items = [] ∧ new.store.writes = [] ∧
      new.store.tables = (s.commitCut drained).store.tables ∧ new.insts = (s.commitCut drained).insts ∧
      ∃ r, new.glb.save = some r ∧ r.tables = new.store.tables ∧ r.segs = new.store.segs ∧ r.jpos = new.store.jpos ∧
        r.journal = new.store.journal ∧ r.epoch = s.pair.epoch ∧ r.dram = s.dram ∧ r.delays = s.dram.delays ∧ r.valid = true ∧
        ∀ e, e ∈ r.insts ↔ e ∈ s.insts ∧ e.2.st ≠ .absent
    let raised (u : State) (id : Nat) (d0 : BitVec 64) : State := u.raiseDevice id 0xFF d0 0
    let pw := s.power
    -- the save sequence and the commit cut
    (s.glb.phase = .ready → ∃ new, exec (.powerFailure drained) s = .next new ∧ saves new ∧ new.glb.phase = .saved) ∧
    (s.glb.phase ≠ .ready → exec (.powerFailure drained) s = .next s) ∧
    (∀ w x, w ∈ s.store.writes → x ∈ s.store.writes → x.phase = .committed → x.inst = w.inst → x.tid = w.tid → x.no ≤ w.no →
      s.finished drained w = true → s.finished drained x = true ∧ (x.localDurable = true ∨ x.no ∈ drained)) ∧
    ((∀ w, w ∈ s.store.writes → w.phase = .committed → s.finished drained w = true) →
      (s.commitCut drained).store.tables = s.store.tables ∧ (s.commitCut drained).store.jpos = s.store.jpos) ∧
    (∃ new, exec (.resetNFall drained) s = .next new ∧ (s.glb.phase = .ready → saves new) ∧ new.glb.phase = .starting ∧ new.glb.thermtrip = false ∧
      new.glb.alert = false ∧ new.pair.aliveRun = false ∧ new.pair.fenceDriven = false ∧
      (s.glb.phase ≠ .ready → new = { s with glb := new.glb, pair := new.pair } ∧ new.glb.save = s.glb.save)) ∧
    (∀ cause intact, s.glb.phase = .ready → ∃ new, exec (.deviceFatal cause intact drained) s = .next new ∧
      new.glb.phase = .fatal ∧ new.glb.fatalCause = cause ∧ new.glb.alert = true ∧ new.pair.aliveRun = false ∧
      (∀ p : BitVec 2, s.glb.ports.getLsbD p.toNat = true → .internalError p ∈ new.out) ∧
      (new.glb.saveDone = true ↔ intact = true ∨ s.glb.saveDone = true) ∧ (intact = false → new.store = s.store ∧ new.queries = s.queries)) ∧
    -- heat
    (∀ readings : List (BitVec 8), readings.length = 32 →
      let u := { s with power := { pw with temps := readings } }
      let hot := tjmax readings
      (125 ≤ hot → ∃ new, exec (.sensorEvaluation readings drained) s = .next new ∧ (s.glb.phase = .ready → saves new) ∧
        new.glb.thermtrip = true ∧ new.glb.saveDone = true ∧ new.pair.aliveRun = false ∧ ∀ c, new.cluster c = .rest) ∧
      (hot < 125 →
        (pw.tlim = false → exec (.sensorEvaluation readings drained) s = .next
          (if (pw.tlimit.toNat : Int) ≤ hot then raised { u with power := { u.power with tlim := true } } 7 1 else u)) ∧
        (pw.tlim = true → exec (.sensorEvaluation readings drained) s = .next
          (if hot < (pw.tlimit.toNat : Int) - 5 then raised { u with power := { u.power with tlim := false } } 7 0 else u)))) ∧
    (∀ low, pw.thr ≠ low → exec (.throttleNChange low) s = .next
      (raised { s with power := { pw with thr := low } } (if low then 8 else 9) 0)) ∧
    (pw.metered = max 160 ((4 * pw.watts.toNat - 380) * (if pw.thr then pw.thrPct.toNat else 10) / (10 * (if pw.tlim then 2 else 1)))) ∧
    -- leave
    (∀ (l : Leave) q, (∀ x, x ∈ queueLeave l q ↔ x = l ∨ x ∈ q) ∧
      (q.Pairwise (fun a b => a.prio ≤ b.prio) → (queueLeave l q).Pairwise fun a b => a.prio ≤ b.prio) ∧
      ((∀ x, x ∈ q → x.prio ≤ l.prio) → queueLeave l q = q ++ [l])) ∧
    -- a request carries the PRIO and the instance of what asks, and the items that wait for it are parked; more items join one that waits
    (∀ op inst prio items, s.glb.phase = .ready →
      let mine := (items.filterMap s.item?).filter (s.waitsLeave op)
      let ids := mine.map (·.id)
      let parked (u : State) : State := State.refill (mine.foldl (fun (u : State) i =>
        (State.parkItem { u with disp := { u.disp with
          returned := u.disp.returned.filter (· ≠ i.id), generated := u.disp.generated.filter (· ≠ i.id) } } i.id .pacer 5).deadlineCheck i.query) u)
      (∀ t, leaveQuery op = some t → ∃ q, s.query? t = some q ∧ (q.st = .running ∨ q.st = .paused)) →
      (∀ k, op = .sprint k → s.sprintDue k = true) → ((∀ k, op ≠ .sprint k) → s.leaveHeld op = false) → (leaveByItems op = true → mine ≠ []) →
      (prio ≠ s.leavePrio op mine ∨ inst ≠ leaveInst op inst mine → exec (.leaveRequest op inst prio items) s = .next s) ∧
      (prio = s.leavePrio op mine → inst = leaveInst op inst mine →
        let made (u : State) : Prop := exec (.leaveRequest op inst prio items) s = .next (parked u)
        let waiting := pw.queue.find? fun l => sameHolder l.op op
        (s.leaveHeld op = true → made { s with power := { pw with
          held := pw.held.map fun l => if sameHolder l.op op then { l with items := l.items ++ ids } else l } }) ∧
        (s.leaveHeld op = false → ∀ l, waiting = some l → made { s with power := { pw with
          queue := requeueLeave { l with items := l.items ++ ids, prio := if prio < l.prio then prio else l.prio } pw.queue } }) ∧
        (s.leaveHeld op = false → waiting = none →
          let l : Leave := { op := op, tokens := leaveTokens op, inst := inst, prio := prio, no := pw.nextReq, since := s.time, items := ids }
          made { s with power := { pw with queue := queueLeave l pw.queue, nextReq := pw.nextReq + 1 } }))) ∧
    (∀ op mine,
      (∀ t q, leaveQuery op = some t → s.query? t = some q → s.leavePrio op mine = q.prio ∧ ∀ inst, leaveInst op inst mine = t.inst) ∧
      (∀ k, op = .sprint k → mine ≠ [] → (∃ i, i ∈ mine ∧ s.leavePrio op mine = i.prio) ∧ ∀ i, i ∈ mine → s.leavePrio op mine ≤ i.prio) ∧
      (∀ e, op = .encode e none → s.leavePrio op mine = 8)) ∧
    (∀ passed l rest, s.glb.phase = .ready → pw.queue = passed ++ l :: rest → (∀ x, x ∈ passed → s.passedOver x = true) → s.passedOver l = false →
      let u := (passed.flatMap s.leaveQueries).foldl (fun u t => State.deadlineCheck u t) s
      (∃ x, x ∈ u.power.queue ∧ x.no = l.no) →
      let alone : Prop := (∃ c, l.op = .sprint c) ∧ ∀ h, h ∈ pw.held → ∀ c, h.op ≠ .sprint c
      let fits : Prop := alone ∨ (pw.held.map (·.tokens)).sum + l.tokens ≤ pw.metered
      let compared (v : State) : State := (s.leaveQueries l).foldl (fun u t => State.deadlineCheck u t) v
      let given : State := { u with power := { u.power with queue := u.power.queue.filter (·.no != l.no), held := u.power.held ++ [l] } }
      let leave (t : Tag) (o : BitVec 16) : State := { given with ops := AMap.update given.ops (t, o) fun c => { c with leave := true } }
      (¬fits → exec .leaveGrant s = .next (compared u)) ∧
      (fits →
        (∀ c, l.op = .sprint c → exec .leaveGrant s = .next
          (compared { given with power := { given.power with waking := given.power.waking ++ [c] } })) ∧
        (∀ t o, l.op = .spread t o ∨ l.op = .exchange t o → exec .leaveGrant s = .next (compared ((leave t o).unparkPacer l))) ∧
        (∀ x t, l.op = .sortUnit x t → exec .leaveGrant s = .next (compared (given.unparkPacer l))) ∧
        (∀ x t, l.op = .encode x t → exec .leaveGrant s = .next (compared (given.unparkPacer l))))) ∧
    (∀ op,
      let frees : Prop := exec (.leaveRelease op) s = .next { s with power := { pw with held := pw.held.filter fun l => !(sameHolder l.op op) } }
      (∀ x t, op = .encode x t → frees) ∧
      (∀ x t, op = .sortUnit x t → s.sortBusy x = false → frees) ∧
      (∀ t o, op = .spread t o → (∀ q, s.query? t = some q → q.st ≠ .running ∧ q.st ≠ .paused) → frees) ∧
      (∀ t o, op = .exchange t o → (∀ c, s.op? t o = some c → c.ended = true) → frees)) ∧
    -- clusters
    (∀ c : BitVec 3,
      (
        let woken := State.setCluster { s with power := { pw with waking := pw.waking.filter (· ≠ c) } } c .sprint
        let back := (pw.held.filter (sprintOf c)).foldl (fun u l => State.unparkPacer u l) woken
        woken.cluster c = .sprint ∧ (∀ d, d ≠ c → woken.cluster d = s.cluster d) ∧
        (c ∈ pw.waking → exec (.clusterWakeDone c) s = .next { back with power := { back.power with
          held := back.power.held.map fun l => if sprintOf c l then { l with items := [] } else l } })) ∧
      (s.cluster c = .sprint → s.clusterBusy c = false → ∃ new, exec (.sprintIdle c) s = .next new ∧ new = { s with power := new.power } ∧
        new.cluster c = .warmup ∧ (∀ l, l ∈ new.power.held ↔ l ∈ pw.held ∧ sprintOf c l = false) ∧ ∀ d, d ≠ c → new.cluster d = s.cluster d) ∧
      (s.cluster c = .warmup → (∀ l, l ∈ pw.queue → sprintOf c l = false) → c ∉ pw.waking → ∃ new, exec (.warmupIdle c) s = .next new ∧
        new = { s with power := { pw with clusters := new.power.clusters } } ∧ new.cluster c = .rest ∧ ∀ d, d ≠ c → new.cluster d = s.cluster d)) ∧
    (∀ x, s.sortBusy x = false → exec (.sortUnitIdle x) s = .next { s with power := { pw with
      held := pw.held.filter fun l => !(sameHolder l.op (.sortUnit x ⟨0, 0, 0⟩)) } }) ∧
    -- starts
    (s.glb.phase = .starting → ∀ (straps : Straps) links,
      let up (new : State) (phase : Phase) : Prop := new.glb.phase = phase ∧ new.glb.straps = straps ∧ new.glb.ports = links &&& ~~~s.glb.perst ∧
        new.glb.manager = (if new.glb.ports.getLsbD 0 then some 0 else none) ∧ new.rings.sqs = [] ∧ new.rings.cqs = [] ∧ new.queries = []
      let runs (new : State) (b : Bool) : Prop := up new .ready ∧ new.fw = ({ s.fw with units := [], act := none, late := [] } : Fw).run b ∧
        new.pair.aliveRun = true ∧ new.pair.role = (if straps.pairEn then .joining else .single)
      (∀ fits, s.fw.boots straps = none → ∃ new, exec (.coldStart straps fits links) s = .next new ∧ up new .recovery) ∧
      (∀ b fits, s.fw.boots straps = some b → ∃ new, exec (.coldStart straps fits links) s = .next new ∧ runs new b ∧
        new.store.tables = [] ∧ new.store.segs = [] ∧ (∀ m, new.glb.manager = some m → new.inst m = Inst.managerFirst) ∧
        ∀ e : BitVec 4 × ChannelFit, e ∈ allChans.zip fits →
          let c := new.chan e.1
          (e.2.dimms = 0 → c = State.reset.chan e.1) ∧
          (e.2.dimms ≠ 0 → c.dimms = e.2.dimms) ∧
          (e.2.dimms ≠ 0 → fitProper e.2 = false → c.st = .disabled ∧ c.ranks = []) ∧
          (e.2.dimms ≠ 0 → fitProper e.2 = true → c.st = (if e.2.trains then .active else .disabled) ∧ c.capGib = e.2.capGib.toNat ∧
            c.hrGib = (e.2.capGib.toNat + 11) / 12 ∧ c.ranks.length = e.2.ranks.toNat ∧ c.gb = e.2.gb ∧ c.high = e.2.high ∧
            -- the delay values that training finds are free
            ∃ f, ∀ k x, c.ranks[k]? = some x → x.delay = Config.trainedDelay (4 * e.1.toNat + k) f)) ∧
      (∀ r bad, s.glb.save = some r → r.valid = false → exec (.warmStart straps links bad) s = .next s) ∧
      (∀ r, s.glb.save = some r → r.valid = true →
        (s.fw.boots straps = none → ∀ bad, ∃ new, exec (.warmStart straps links bad) s = .next new ∧ up new .recovery ∧ new.glb.save = some r) ∧
        (∀ b, s.fw.boots straps = some b → ∃ new, exec (.warmStart straps links 0) s = .next new ∧ runs new b ∧
          new.store.tables = r.tables ∧ new.store.jpos = r.jpos ∧ new.store.journal = r.journal ∧ new.pair.epoch = r.epoch ∧
          (∀ i v, AMap.find? r.insts i = some v → ∃ w, new.inst i = w ∧
            w.st = (if (new.fn i).present then .serving else .detached) ∧ w.images = [] ∧ w.tablePages = v.tablePages ∧ w.maxSq = v.maxSq) ∧
          ∀ bad : BitVec 12, exec (.warmStart straps links bad) s = .next
            ((allChans.filter fun c => bad.getLsbD c.toNat && (new.chan c).st == .active).foldl (fun u c => State.channelFails u c) new))))

/-- The DRAM subsystem (16 R472-R478, R481-R495): corrected and uncorrectable lines, refresh, drift, retraining, the copy to a spare rank, the failure of a
channel, and the enabling of the pool. -/
def Obligations.LinesRanksAndChannels : Prop :=
  ∀ (s : State) (ch : BitVec 4) (rank : BitVec 2),
    let c := s.chan ch
    let n := rank.toNat
    let st (r : Nat) : RankState := ((c.ranks[r]?).map (·.st)).getD .absent
    let within (counts : Nat) (t : BitVec 64) : Bool := decide ((s.time - t).toNat < counts)
    -- one line read
    (∀ (line : BitVec 64) finding, c.st = .active → st n ≠ .retired → st n ≠ .absent → s.glb.phase = .ready →
      let i := Instr.patrolScrub ch rank line finding
      let a := line.toNat
      let spare : Bool := st n == .spare || st n == .filling
      (finding = .clean → exec i s = .next s) ∧
      (∀ lane, finding = .corrected lane → exec i s = .next (s.corrected ch rank lane)) ∧
      (∀ lane, finding = .uncorrectable lane →
        let u := s.uncorrectable ch rank a (!spare)
        let v := if spare then u.spareFails ch n else u.triggerMigration ch n
        exec i s = .next (if lane.isSome then v.scheduleRetrain ch else v))) ∧
    (∀ r lane, c.ranks[n]? = some r →
      let ces := (s.time, lane) :: r.ces.filter fun e => within (3600 * 25000000) e.1
      let noted := (s.count (ctrDramCe ch rank)).modChan ch fun c => c.modRank n fun r => { r with ces := ces }
      let hourly := if s.ras.ceThresh ≠ 0 ∧ ces.length = s.ras.ceThresh.toNat then
        noted.dramEvent 76 ch (rank.setWidth 8) (BitVec.ofNat 64 ces.length) else noted
      let storm := if s.dram.thresh.toNat < (ces.filter fun e => within (s.dram.windowMs.toNat * 25000) e.1).length then
        hourly.triggerMigration ch n else hourly
      s.corrected ch rank lane = if lane.isSome ∧ 64 < (ces.filter fun e => e.2 == lane && within 25000000 e.1).length then
        storm.scheduleRetrain ch else storm) ∧
    (∀ a inPool,
      let pa := if inPool then s.poolOf ch (a / 64 * 64) else none
      let u := s.uncorrectable ch rank a inPool
      let report := ((s.poisonLine pa).count (ctrDramUe ch rank)).dramEvent 67 ch (rank.setWidth 8) (lineD1 pa a)
      (s.partnerInService = false → u = report) ∧
      (∀ x g m l tid col slot cur, pa = some x → s.segAt x = some (m, l) → AMap.find? s.store.segs m = some g → s.segName? m = some (tid, col, slot, cur) →
        s.partnerInService = true →
        u = (s.modSeg m fun g => { g with repair := l :: g.repair }).fetchReq (.repair m l ch rank (lineD1 pa a)) g.inst tid col slot (64 * l) 64
          g.epoch g.cseq)) ∧
    (∀ x, s.segAt (x / 64 * 64) = none → (s.poisonLine (some x)).dram.poison.contains (x / 64 * 64) = true) ∧
    (∀ x m l, s.segAt (x / 64 * 64) = some (m, l) → ∀ g, AMap.find? s.store.segs m = some g →
      ∃ h, AMap.find? (s.poisonLine (some x)).store.segs m = some h ∧ l ∈ h.poison ∧ ∀ k, k ∈ g.poison → k ∈ h.poison) ∧
    -- sparing
    (∀ r : Nat, st r = .active →
      let u := s.triggerMigration ch r
      (∀ sp, c.rankIn .spare = some sp → ((u.chan ch).ranks[r]?).map (·.st) = some .migrating ∧ ((u.chan ch).ranks[sp]?).map (·.st) = some .filling ∧
        (u.chan ch).cursor = 0) ∧
      (c.rankIn .spare = none → u = s.dramEvent 71 ch (BitVec.ofNat 8 r) 0)) ∧
    (∀ r : Nat, st r ≠ .active → s.triggerMigration ch r = s) ∧
    (∀ src sp source spare, c.st = .active → c.rankIn .migrating = some src → c.rankIn .filling = some sp →
      let i := Instr.migrationLineCopy ch source spare
      (source = .clean → spare = .clean → c.cursor + 1 < c.rankLines →
        exec i s = .next (s.setChan ch { c with cursor := c.cursor + 1 })) ∧
      (source = .clean → spare = .clean → c.rankLines ≤ c.cursor + 1 → exec i s = .next
        ((s.setChan ch ((c.modRank src fun r => { r with st := .retired }).modRank sp fun r => { r with st := .active })).dramEvent 69 ch
          (BitVec.ofNat 8 src) (BitVec.ofNat 64 sp))) ∧
      (∀ lane, source = .clean → spare = .uncorrectable lane → exec i s = .next
        ((s.uncorrectable ch (BitVec.ofNat 2 sp) (c.rankBase src + 64 * c.cursor) false).spareFails ch sp)) ∧
      (∀ lane, source = .uncorrectable lane → spare = .clean →
        let u := s.uncorrectable ch (BitVec.ofNat 2 src) (c.rankBase src + 64 * c.cursor) true
        c.cursor + 1 < c.rankLines → exec i s = .next (u.modChan ch fun c => { c with cursor := c.cursor + 1 }))) ∧
    -- refresh, drift and retraining
    (∀ r queued stalled, c.st = .active → c.ranks[n]? = some r →
      let i := Instr.refreshDue ch rank ⟨queued, stalled⟩
      let put (x : Rank) : State := s.setChan ch (c.modRank n fun _ => x)
      let done : Rank := { r with drift := 0, delay := r.delay + r.drift.signExtend 16 }
      let urgent : Prop := ∃ k, queued = some k ∧ s.isRealTime k = true
      (¬urgent → exec i s = .next (put { done with owed := 0 })) ∧
      (urgent → r.owed < 4 → exec i s = .next (put { r with owed := r.owed + 1 })) ∧
      (urgent → 4 ≤ r.owed → exec i s = .next
        (stalled.foldl (fun u e => State.refreshStall u e.1 (if e.2.toNat ≤ c.tRfc then e.2.toNat else c.tRfc)) (put done)))) ∧
    -- of the real-time class: the mirror, an exchange, and a SCAN item of a query with a deadline (07 R239)
    (∀ m, s.isRealTime (.scan m) = true ↔ ∃ i q im o, s.item? m = some i ∧ i.st = .running ∧ s.query? i.query = some q ∧ q.deadline ≠ 0 ∧
      q.image = some im ∧ im.op? i.op.toNat = some o ∧ o.code = 0x01) ∧
    (∀ m i ns, s.item? m = some i → s.refreshStall m ns = if i.st = .running then s.addTotalNs i.query 1 (BitVec.ofNat 64 ns) else s) ∧
    (∀ steps : BitVec 8, c.st = .active → n < c.ranks.length →
      exec (.driftCheck ch rank steps) s = .next (if -16 ≤ steps.toInt ∧ steps.toInt ≤ 16 then
        s.setChan ch (c.modRank n fun r => { r with drift := steps }) else s.scheduleRetrain ch)) ∧
    (
      let u := s.scheduleRetrain ch
      (c.st = .active → ch ∉ s.dram.schedule → u.dram.schedule = s.dram.schedule ++ [ch] ∧ (u.chan ch).retrain = true ∧
        (u.chan ch).st = if s.dram.schedule = [] then .held else .active) ∧
      (c.st ≠ .active ∨ ch ∈ s.dram.schedule → u = s)) ∧
    (c.st = .held → s.glb.phase = .ready →
      let ended (delay : Nat → Rank → BitVec 16) : State :=
        State.tick (State.setChan { s with dram := { s.dram with schedule := s.dram.schedule.filter (· ≠ ch) } } ch { c with
          st := .active, retrain := false, rate := if c.rateFit.toNat < c.rateMax.toNat then c.rateMax else c.rateFit
          ranks := c.ranks.mapIdx fun k r => { r with owed := 0, drift := 0, delay := delay k r } })
      exec (.channelRetraining ch true) s = .next (ended fun k _ => Config.trainedDelay (4 * ch.toNat + k) s.free).nextRetrain ∧
      exec (.channelRetraining ch false) s = .next ((ended fun _ r => r.delay).channelFails ch).nextRetrain) ∧
    (∀ first rest, s.dram.schedule = first :: rest → ∀ j, s.nextRetrain.chan j =
      if j = first ∧ (s.chan j).st = .active then { s.chan j with st := .held } else s.chan j) ∧
    (∀ inst (v : BitVec 32), s.managerAccess inst = true → v.getLsbD 0 = true → exec (.retrain inst ch v) s = .next (s.scheduleRetrain ch)) ∧
    -- the pool
    (∀ w pa, (∀ e, e ∈ s.dram.map → mapValid e.2 = true → mapBase e.2 * 2 ^ 30 ≤ pa → pa < (mapBase e.2 + mapSize e.2) * 2 ^ 30 → e.2 = w) →
      (∃ e, e ∈ s.dram.map ∧ e.2 = w ∧ mapValid w = true ∧ mapBase w * 2 ^ 30 ≤ pa ∧ pa < (mapBase w + mapSize w) * 2 ^ 30) →
      let g := mapGrainBytes w
      let k := (chset w).length
      let off := pa - mapBase w * 2 ^ 30
      ∀ j, (chset w)[off / g % k]? = some j → (s.chan j).st ≠ .retired →
        s.poolMap pa = some (j, mapChbase w * 2 ^ 30 + off / g / k * g + off % g)) ∧
    (∀ inst (v : BitVec 32), s.managerAccess inst = true →
      (v.getLsbD 0 = true → s.dram.poolEn = false → exec (.poolEnable inst v) s = .next
        (if s.mapChecks then { s with dram := { s.dram with poolEn := true, mapErr := false } } else { s with dram := { s.dram with mapErr := true } })) ∧
      (v.getLsbD 0 = false →
        let held : Prop := (∃ e, e ∈ s.insts ∧ e.2.st ≠ .absent ∧ e.1 ≠ inst) ∨ (s.inst inst).pages ≠ 0 ∨ s.tableUse inst ≠ 0 ∨
          s.spillUse inst ≠ 0 ∨ s.sspillUse inst ≠ 0
        exec (.poolDisable inst v) s = .next (if held then s else { s with dram := { s.dram with poolEn := false } })))

/-- What discovery and the manager's commands on instances complete with, and what they leave alone (18 R532, R538, R554-R558, R560; 17 R505, R507,
R509, R511, R515, R518; 03 R104): where no exchange and no cascade is to stop, the tree's commands change the engine's place in the tree, its links
and its event logs alone, so no queue, table, segment, query or instance; those on an instance, and an ABORT of no outstanding command, change no
other instance or function, and no command, query or table of another. -/
def Obligations.DiscoveryAndInstancesLeaveTheRest : Prop :=
  ∀ (s : State) (m : RelayMsg) (port : BitVec 2) (t : Tag) (c : Cmd),
    let d := s.disc
    let p := m.payload
    let next := fld p 16 2
    let root := BitVec.ofNat 128 (fld p 0 16)
    let places (i : Instr) (P : State → Prop) : Prop := ∃ new, exec i s = .next new ∧ P new ∧
      new = { s with disc := new.disc, pair := new.pair, fns := new.fns, ras := new.ras, out := new.out } ∧
      new.pair = { s.pair with links := new.pair.links }
    let baton (kind : Nat) : Prop := Heard s m 0x03 ∧ p.length = 32 ∧ fld p 20 1 = kind ∧ next ≤ 4096 ∧ (kind ≠ 1 → fld p 18 2 = 0) ∧
      allZero (slice p 21 11) = true
    let awaited : Prop := d.waitPort = some m.port ∧ d.dseq = m.tag ∧ root = d.rootSerial
    let alone : Prop := s.pair.xchs = [] ∧ s.asa.casEn = false
    (s.working = true → s.isRoot = true → (d.dseq = 0 ∨ d.rediscover = true) → d.waitPort = none → places .batonStart fun new =>
      new.disc.nodeId = some 0 ∧ new.disc.parent = none ∧ new.disc.dseq = d.dseq + 1 ∧ new.disc.rootSerial = Config.serial) ∧
    (baton 0 → alone → s.isRoot = false → d.dseq ≠ m.tag → d.linkEn = 7 → next ≠ 4096 → places (.batonOut m) fun new =>
      new.disc.nodeId = some (BitVec.ofNat 12 next) ∧ new.disc.parent = some m.port ∧ new.disc.dseq = m.tag ∧ new.disc.rootSerial = root) ∧
    (baton 1 → awaited → places (.batonBack m) fun new => new.disc.nextId = next ∧
      new.disc.children = if fld p 18 2 = 0 then d.children else d.children ++ [(m.port, d.nextId, fld p 18 2)]) ∧
    (baton 2 → awaited → places (.batonVisited m) fun new => new.disc.ring = d.ring ++ [m.port]) ∧
    (baton 3 → awaited → places (.batonConflict m) fun new =>
      (d.parent ≠ none → new.disc = { d with waitPort := none }) ∧
      (d.parent = none → d.conflict = false → new.disc = { d with waitPort := none, nodeId := none, conflict := true })) ∧
    (Heard s m 0x04 → p.length = 16 → allZero (p.drop 2) = true → d.parent = some m.port → d.dseq = m.tag → d.done = false → d.nodeId ≠ none →
      places (.discEnd m) fun new => new.disc = { d with done := true, rediscover := false }) ∧
    (s.working = true → s.isRoot = false → d.dseq = 0 → d.done = false → d.conflict = false → places .batonTimeout fun new =>
      if s.linkUp 1 = true ∨ s.linkUp 2 = true ∨ s.linkUp 3 = true then new.disc = { d with nodeId := none, conflict := true, waitPort := none }
      else new.disc = { d with nodeId := some 0, done := true, rediscover := false }) ∧
    (Heard s m 0x05 → p.length = 32 → p.headD 0 = 1 → allZero (slice p 1 15) = true → d.conflict = false → places (.conflict m) fun new =>
      new.disc = { d with nodeId := none, conflict := true, waitPort := none }) ∧
    (∀ inst (value : BitVec 32), alone → s.managerAccess inst = true → value.getLsbD 0 = true → s.isRoot = true → d.rediscover = false →
      places (.rediscover inst value) fun new =>
        new.disc = { d with linkEn := (value >>> 8).setWidth 3, rediscover := true, done := false, waitPort := none }) ∧
    (s.working = true → m.port ≠ 0 → (s.link m.port).st = .training → identOk p = true → m.tag = 0 → fld p 18 2 = 1 → places (.ident m) fun new =>
      new.link m.port = { st := .up, serial := some root, frags := [] } ∧ ∀ q, q ≠ m.port → new.link q = s.link q) ∧
    (s.working = true → alone → port ≠ 0 → (s.link port).st = .up → places (.relayLinkDown port) fun new =>
      new.link port = { s.link port with st := .training, frags := [] } ∧ new.disc = d ∧ ∀ q, q ≠ port → new.link q = s.link q) ∧
    -- instances
    (
      let f := c.f
      let i : BitVec 8 := BitVec.ofNat 8 (f 16 1)
      let ends (x : Instr) (P : State → Prop) : Prop := ∃ new, exec x s = .next new ∧ P new ∧
        (∃ e, new.cmd? t = some e ∧ e.stage = .finished) ∧ (∀ u, u ≠ t → new.cmd? u = s.cmd? u) ∧ new.queries = s.queries ∧
        ∀ j, j ≠ i → new.inst j = s.inst j ∧ new.fn j = s.fn j ∧
          ∀ tid, AMap.find? new.store.tables (j, tid) = AMap.find? s.store.tables (j, tid)
      (Runs s t 0x18 c → c.clean [(16, 1), (20, 32)] = true → (s.inst i).st = .absent → f 20 2 ≤ 4095 → f 22 2 ≤ 4095 → f 28 2 ≤ f 20 2 →
        f 30 2 ≤ f 22 2 → 1 ≤ f 24 4 → f 24 4 ≤ 65536 → 16 ≤ f 44 2 → f 44 2 ≤ 2560 → 1 ≤ f 46 1 → 1 ≤ f 47 1 → f 47 1 ≤ 100 → f 48 4 ≤ 16777215 →
        s.sqDrawn + f 20 2 + 1 ≤ 4096 → s.cqDrawn + f 22 2 + 1 ≤ 4096 → s.flowsDrawn + f 24 4 ≤ 65536 → s.lsDrawn + f 44 2 ≤ 2560 →
        s.pagesDrawn + f 32 4 + f 36 4 + f 40 4 ≤ s.poolPages →
        ends (.instanceCreate t) fun new => (new.inst i).st = (if (s.fn i).present then .serving else .detached) ∧
          (new.inst i).lsUnits = BitVec.ofNat 16 (f 44 2) ∧ (new.inst i).weight = BitVec.ofNat 8 (f 46 1)) ∧
      (Runs s t 0x19 c → c.clean [(16, 1), (18, 2), (28, 24)] = true → f 18 2 = 2 ^ 6 → (s.inst i).st ≠ .absent → f 28 2 = 0 → f 30 2 = 0 → f 32 4 = 0 →
        f 36 4 = 0 → f 40 4 = 0 → f 44 2 = 0 → 1 ≤ f 46 1 → f 47 1 = 0 → f 48 4 = 0 →
        ends (.instanceResize t) fun new => new.inst i = { s.inst i with weight := BitVec.ofNat 8 (f 46 1) }) ∧
      (Runs s t 0x1A c → c.clean [(16, 1), (18, 2)] = true → s.glb.manager ≠ some i → (s.inst i).st = .serving → (s.inst i).quiesce ≠ some t →
        (∀ e, e ∈ s.rings.cmds → e.tag.inst ≠ i) → (∀ e, e ∈ s.rings.cqs → e.1.1 = i → e.2.ready = []) →
        ends (.instanceQuiesce t) fun new => (new.inst i).st = .quiet) ∧
      (Runs s t 0x1B c → c.clean [(16, 1)] = true → s.glb.manager ≠ some i → (s.inst i).st = .quiet →
        ends (.instanceReset t) fun new => (new.inst i).st = .serving ∧ (new.inst i).images = []) ∧
      (Runs s t 0x1C c → c.clean [(16, 1)] = true → s.glb.manager ≠ some i → (s.inst i).st = .quiet ∨ (s.inst i).st = .detached →
        ends (.instanceDestroy t) fun new => new.inst i = Inst.absent ∧ ∀ tid, AMap.find? new.store.tables (i, tid) = none)) ∧
    -- an ABORT of a command that is not outstanding
    (Runs s t 0x0A c → c.clean [(16, 4)] = true → c.f 16 2 ≤ 4095 → (s.sq t.inst (BitVec.ofNat 12 (c.f 16 2))).isSome = true →
      s.cmd? ⟨t.inst, BitVec.ofNat 12 (c.f 16 2), BitVec.ofNat 16 (c.f 18 2)⟩ = none → ∀ stopped,
      ∃ new e, exec (.abort t stopped) s = .next new ∧ new.cmd? t = some e ∧ e.stage = .finished ∧ (∀ u, u ≠ t → new.cmd? u = s.cmd? u) ∧
        new = { s with rings := new.rings } ∧ new.rings.sqs = s.rings.sqs ∧ new.rings.batches = s.rings.batches)

end
end

