-- ==== Sys2Proof/Laws/Arms.lean ====
section
/-! SUPPORT. The arms of exec, one lemma a command: what exec answers is what the command's meaning answers. -/

namespace Sys2Proof.Machine

theorem exec_identify (t : Tag) (acc : HostAcc) (s : State) : exec (.identify t acc) s = execIdentify t acc s := rfl
theorem exec_getLog (t : Tag) (acc : HostAcc) (s : State) : exec (.getLog t acc) s = execGetLog t acc s := rfl
theorem exec_setFeature (t : Tag) (s : State) : exec (.setFeature t) s = execSetFeature t s := rfl
theorem exec_getFeature (t : Tag) (s : State) : exec (.getFeature t) s = execGetFeature t s := rfl
theorem exec_createSq (t : Tag) (s : State) : exec (.createSq t) s = execCreateSq t s := rfl
theorem exec_createCq (t : Tag) (s : State) : exec (.createCq t) s = execCreateCq t s := rfl
theorem exec_deleteSq (t : Tag) (stopped : List (BitVec 16)) (s : State) : exec (.deleteSq t stopped) s = execDeleteSq t stopped s := rfl
theorem exec_deleteCq (t : Tag) (s : State) : exec (.deleteCq t) s = execDeleteCq t s := rfl
theorem exec_resetQueue (t : Tag) (stopped : List (BitVec 16)) (s : State) : exec (.resetQueue t stopped) s = execResetQueue t stopped s := rfl
theorem exec_abort (t : Tag) (succeeds : Bool) (s : State) : exec (.abort t succeeds) s = execAbort t succeeds s := rfl
theorem exec_fwDownload (t : Tag) (src : HostRead) (s : State) : exec (.fwDownload t src) s = execFwDownload t src s := rfl
theorem exec_fwActivate (t : Tag) (s : State) : exec (.fwActivate t) s = execFwActivate t s := rfl
theorem exec_instanceCreate (t : Tag) (s : State) : exec (.instanceCreate t) s = execInstanceCreate t s := rfl
theorem exec_instanceResize (t : Tag) (s : State) : exec (.instanceResize t) s = execInstanceResize t s := rfl
theorem exec_instanceQuiesce (t : Tag) (s : State) : exec (.instanceQuiesce t) s = execInstanceQuiesce t s := rfl
theorem exec_instanceReset (t : Tag) (s : State) : exec (.instanceReset t) s = execInstanceReset t s := rfl
theorem exec_instanceDestroy (t : Tag) (s : State) : exec (.instanceDestroy t) s = execInstanceDestroy t s := rfl
theorem exec_poolReport (t : Tag) (acc : HostAcc) (s : State) : exec (.poolReport t acc) s = execPoolReport t acc s := rfl
theorem exec_tableCreate (t : Tag) (src : HostRead) (s : State) : exec (.tableCreate t src) s = execTableCreate t src s := rfl
theorem exec_tableDrop (t : Tag) (s : State) : exec (.tableDrop t) s = execTableDrop t s := rfl
theorem exec_segmentWrite (t : Tag) (vals vmap offs : HostRead) (s : State) : exec (.segmentWrite t vals vmap offs) s = execSegmentWrite t vals vmap offs s := rfl
theorem exec_pagesPut (t : Tag) (src : HostRead) (s : State) : exec (.pagesPut t src) s = execPagesPut t src s := rfl
theorem exec_segmentRead (t : Tag) (acc : HostAcc) (s : State) : exec (.segmentRead t acc) s = execSegmentRead t acc s := rfl
theorem exec_segmentDelete (t : Tag) (s : State) : exec (.segmentDelete t) s = execSegmentDelete t s := rfl
theorem exec_flush (t : Tag) (s : State) : exec (.flush t) s = execFlush t s := rfl
theorem exec_imageLoad (t : Tag) (src : HostRead) (s : State) : exec (.imageLoad t src) s = execImageLoad t src s := rfl
theorem exec_imageUnload (t : Tag) (s : State) : exec (.imageUnload t) s = execImageUnload t s := rfl
theorem exec_querySubmit (t : Tag) (csw : HostAcc) (s : State) : exec (.querySubmit t csw) s = execQuerySubmit t csw s := rfl
theorem exec_chainResume (t : Tag) (links : List LinkRead) (csw : HostAcc) (s : State) : exec (.chainResume t links csw) s = execChainResume t links csw s := rfl
theorem exec_sqDoorbell (inst : BitVec 8) (sqid : BitVec 12) (w : DbWidth) (value : BitVec 64) (s : State) : exec (.sqDoorbell inst sqid w value) s = execSqDoorbell inst sqid w value s := rfl
theorem exec_cqHeadDoorbell (inst : BitVec 8) (cqid : BitVec 12) (w : DbWidth) (value : BitVec 64) (s : State) : exec (.cqHeadDoorbell inst cqid w value) s = execCqHeadDoorbell inst cqid w value s := rfl
theorem exec_admCtrlEnable (inst : BitVec 8) (value : BitVec 32) (s : State) : exec (.admCtrlEnable inst value) s = execAdmCtrlEnable inst value s := rfl
theorem exec_admCtrlDisable (inst : BitVec 8) (value : BitVec 32) (s : State) : exec (.admCtrlDisable inst value) s = execAdmCtrlDisable inst value s := rfl
theorem exec_poolEnable (inst : BitVec 8) (value : BitVec 32) (s : State) : exec (.poolEnable inst value) s = execPoolEnable inst value s := rfl
theorem exec_poolDisable (inst : BitVec 8) (value : BitVec 32) (s : State) : exec (.poolDisable inst value) s = execPoolDisable inst value s := rfl
theorem exec_retrain (inst : BitVec 8) (ch : BitVec 4) (value : BitVec 32) (s : State) : exec (.retrain inst ch value) s = execRetrain inst ch value s := rfl
theorem exec_rediscover (inst : BitVec 8) (value : BitVec 32) (s : State) : exec (.rediscover inst value) s = execRediscover inst value s := rfl
theorem exec_asaCascfgEnable (inst : BitVec 8) (value : BitVec 32) (s : State) : exec (.asaCascfgEnable inst value) s = execAsaCascfgEnable inst value s := rfl
theorem exec_tDb (writer page : BitVec 8) (value : BitVec 64) (s : State) : exec (.tDb writer page value) s = execTDb writer page value s := rfl
theorem exec_mDb (writer page : BitVec 8) (value : BitVec 64) (s : State) : exec (.mDb writer page value) s = execMDb writer page value s := rfl
theorem exec_registerWrite (inst : BitVec 8) (bar : BitVec 3) (offset : BitVec 32) (size : BitVec 4) (value : BitVec 64) (s : State) : exec (.registerWrite inst bar offset size value) s = execRegisterWrite inst bar offset size value s := rfl
theorem exec_sqScan (inst : BitVec 8) (sqid : BitVec 12) (reads : List SqRead) (s : State) : exec (.sqScan inst sqid reads) s = execSqScan inst sqid reads s := rfl
theorem exec_fetchToken (inst : BitVec 8) (sqid : BitVec 12) (s : State) : exec (.fetchToken inst sqid) s = execFetchToken inst sqid s := rfl
theorem exec_completionPost (inst : BitVec 8) (cqid : BitVec 12) (acc : HostAcc) (s : State) : exec (.completionPost inst cqid acc) s = execCompletionPost inst cqid acc s := rfl
theorem exec_cqStalled (inst : BitVec 8) (cqid : BitVec 12) (s : State) : exec (.cqStalled inst cqid) s = execCqStalled inst cqid s := rfl
theorem exec_adminQueueDelete (inst : BitVec 8) (s : State) : exec (.adminQueueDelete inst) s = execAdminQueueDelete inst s := rfl
theorem exec_writeCommit (t : Tag) (s : State) : exec (.writeCommit t) s = execWriteCommit t s := rfl
theorem exec_writeDurable (seq : Nat) (s : State) : exec (.writeDurable seq) s = execWriteDurable seq s := rfl
theorem exec_stagingCopy (t : Tag) (image : HostRead) (s : State) : exec (.stagingCopy t image) s = execStagingCopy t image s := rfl
theorem exec_queryValidated (t : Tag) (params xchain : HostRead) (heads : List HostRead) (csw : HostAcc) (s : State) : exec (.queryValidated t params xchain heads csw) s = execQueryValidated t params xchain heads csw s := rfl
theorem exec_queryAdmit (t : Tag) (csw : HostAcc) (s : State) : exec (.queryAdmit t csw) s = execQueryAdmit t csw s := rfl
theorem exec_queryFinish (t : Tag) (csw : HostAcc) (s : State) : exec (.queryFinish t csw) s = execQueryFinish t csw s := rfl
theorem exec_queryStopped (t : Tag) (csw : HostAcc) (s : State) : exec (.queryStopped t csw) s = execQueryStopped t csw s := rfl
theorem exec_linkRead (t : Tag) (lr : LinkRead) (csw : HostAcc) (s : State) : exec (.linkRead t lr csw) s = execLinkRead t lr csw s := rfl
theorem exec_itemGenerate (t : Tag) (op : BitVec 16) (flow : BitVec 8) (s : State) : exec (.itemGenerate t op flow) s = execItemGenerate t op flow s := rfl
theorem exec_slotFill (r : Runner) (item : Nat) (s : State) : exec (.slotFill r item) s = execSlotFill r item s := rfl
theorem exec_itemTake (r : Runner) (s : State) : exec (.itemTake r) s = execItemTake r s := rfl
theorem exec_recall (r : Runner) (forItem : Nat) (s : State) : exec (.recall r forItem) s = execRecall r forItem s := rfl
theorem exec_preemption (r : Runner) (forItem : Nat) (s : State) : exec (.preemption r forItem) s = execPreemption r forItem s := rfl
theorem exec_itemEnd (r : Runner) (s : State) : exec (.itemEnd r) s = execItemEnd r s := rfl
theorem exec_itemPark (r : Runner) (cause : ParkCause) (s : State) : exec (.itemPark r cause) s = execItemPark r cause s := rfl
theorem exec_itemUnpark (item : Nat) (s : State) : exec (.itemUnpark item) s = execItemUnpark item s := rfl
theorem exec_stallYield (r : Runner) (cause : ParkCause) (s : State) : exec (.stallYield r cause) s = execStallYield r cause s := rfl
theorem exec_deadlineSweep (t : Tag) (s : State) : exec (.deadlineSweep t) s = execDeadlineSweep t s := rfl
theorem exec_wordCommit (r : Runner) (flaw : StreamFlaw) (s : State) : exec (.wordCommit r flaw) s = execWordCommit r flaw s := rfl
theorem exec_wordPop (r : Runner) (port : BitVec 3) (flaw : StreamFlaw) (host : List HostRead) (s : State) : exec (.wordPop r port flaw host) s = execWordPop r port flaw host s := rfl
theorem exec_headRefill (sref : StreamRef) (s : State) : exec (.headRefill sref) s = execHeadRefill sref s := rfl
theorem exec_codeSetBuild (t : Tag) (op : BitVec 16) (entry pred : BitVec 8) (slot : BitVec 20) (s : State) : exec (.codeSetBuild t op entry pred slot) s = execCodeSetBuild t op entry pred slot s := rfl
theorem exec_handleFramePush (t : Tag) (op : BitVec 16) (s : State) : exec (.handleFramePush t op) s = execHandleFramePush t op s := rfl
theorem exec_buildPartition (t : Tag) (op : BitVec 16) (s : State) : exec (.buildPartition t op) s = execBuildPartition t op s := rfl
theorem exec_unmatchedBuildPass (t : Tag) (op : BitVec 16) (s : State) : exec (.unmatchedBuildPass t op) s = execUnmatchedBuildPass t op s := rfl
theorem exec_partitionEmit (t : Tag) (op : BitVec 16) (part : BitVec 8) (s : State) : exec (.partitionEmit t op part) s = execPartitionEmit t op part s := rfl
theorem exec_mergeFlowStart (t : Tag) (op : BitVec 16) (s : State) : exec (.mergeFlowStart t op) s = execMergeFlowStart t op s := rfl
theorem exec_hurdleRelease (t : Tag) (op : BitVec 16) (s : State) : exec (.hurdleRelease t op) s = execHurdleRelease t op s := rfl
theorem exec_resultBlockWrite (r : Runner) (acc : HostAcc) (s : State) : exec (.resultBlockWrite r acc) s = execResultBlockWrite r acc s := rfl
theorem exec_unitWrite (r : Runner) (acc : HostAcc) (s : State) : exec (.unitWrite r acc) s = execUnitWrite r acc s := rfl
theorem exec_decodeJob (engine : BitVec 3) (job : CompJob) (s : State) : exec (.decodeJob engine job) s = execDecodeJob engine job s := rfl
theorem exec_encodeJob (engine : BitVec 3) (job : CompJob) (s : State) : exec (.encodeJob engine job) s = execEncodeJob engine job s := rfl
theorem exec_podLoad (pod : BitVec 4) (shadowLost : Bool) (s : State) : exec (.podLoad pod shadowLost) s = execPodLoad pod shadowLost s := rfl
theorem exec_podClear (pod : BitVec 4) (s : State) : exec (.podClear pod) s = execPodClear pod s := rfl
theorem exec_asaSearch (pod : BitVec 4) (key mask : BitVec 320) (tagFlaw : Bool) (s : State) : exec (.asaSearch pod key mask tagFlaw) s = execAsaSearch pod key mask tagFlaw s := rfl
theorem exec_parityScan (pod : BitVec 4) (slot : BitVec 12) (upset : BitVec 196) (s : State) : exec (.parityScan pod slot upset) s = execParityScan pod slot upset s := rfl
theorem exec_parityReload (pod : BitVec 4) (entry : BitVec 12) (shadowLost : Bool) (s : State) : exec (.parityReload pod entry shadowLost) s = execParityReload pod entry shadowLost s := rfl
theorem exec_asaStepEvaluation (s : State) : exec (.asaStepEvaluation) s = execAsaStepEvaluation s := rfl
theorem exec_cascadePhaseTraining (s : State) : exec (.cascadePhaseTraining) s = execCascadePhaseTraining s := rfl
theorem exec_asaKey (m : RelayMsg) (s : State) : exec (.asaKey m) s = execAsaKey m s := rfl
theorem exec_cascadeResultWord (w : BitVec 64) (s : State) : exec (.cascadeResultWord w) s = execCascadeResultWord w s := rfl
theorem exec_asaRegister (m : RelayMsg) (s : State) : exec (.asaRegister m) s = execAsaRegister m s := rfl
theorem exec_asaReady (m : RelayMsg) (s : State) : exec (.asaReady m) s = execAsaReady m s := rfl
theorem exec_asaClose (m : RelayMsg) (s : State) : exec (.asaClose m) s = execAsaClose m s := rfl
theorem exec_xchData (m : RelayMsg) (s : State) : exec (.xchData m) s = execXchData m s := rfl
theorem exec_xchCredit (m : RelayMsg) (s : State) : exec (.xchCredit m) s = execXchCredit m s := rfl
theorem exec_xchRegister (m : RelayMsg) (s : State) : exec (.xchRegister m) s = execXchRegister m s := rfl
theorem exec_xchEnd (m : RelayMsg) (s : State) : exec (.xchEnd m) s = execXchEnd m s := rfl
theorem exec_xchStop (m : RelayMsg) (s : State) : exec (.xchStop m) s = execXchStop m s := rfl
theorem exec_pageRequestResponse (k : PageKey) (a : PageAnswer) (s : State) : exec (.pageRequestResponse k a) s = execPageRequestResponse k a s := rfl
theorem exec_priTimeout (k : PageKey) (s : State) : exec (.priTimeout k) s = execPriTimeout k s := rfl
theorem exec_atsInvalidateRequest (inst : BitVec 8) (pasid : Option (BitVec 20)) (page : BitVec 52) (s : State) : exec (.atsInvalidateRequest inst pasid page) s = execAtsInvalidateRequest inst pasid page s := rfl
theorem exec_spillBlock (inst : BitVec 8) (s : State) : exec (.spillBlock inst) s = execSpillBlock inst s := rfl
theorem exec_powerFailure (drained : List Nat) (s : State) : exec (.powerFailure drained) s = execPowerFailure drained s := rfl
theorem exec_resetNFall (drained : List Nat) (s : State) : exec (.resetNFall drained) s = execResetNFall drained s := rfl
theorem exec_coldStart (straps : Straps) (fits : List ChannelFit) (links : BitVec 4) (s : State) : exec (.coldStart straps fits links) s = execColdStart straps fits links s := rfl
theorem exec_warmStart (straps : Straps) (links : BitVec 4) (badChannels : BitVec 12) (s : State) : exec (.warmStart straps links badChannels) s = execWarmStart straps links badChannels s := rfl
theorem exec_sensorEvaluation (readings : List (BitVec 8)) (drained : List Nat) (s : State) : exec (.sensorEvaluation readings drained) s = execSensorEvaluation readings drained s := rfl
theorem exec_throttleNChange (low : Bool) (s : State) : exec (.throttleNChange low) s = execThrottleNChange low s := rfl
theorem exec_leaveRequest (op : LeaveOp) (inst : BitVec 8) (prio : BitVec 4) (items : List Nat) (s : State) : exec (.leaveRequest op inst prio items) s = execLeaveRequest op inst prio items s := rfl
theorem exec_leaveGrant (s : State) : exec (.leaveGrant) s = execLeaveGrant s := rfl
theorem exec_leaveRelease (op : LeaveOp) (s : State) : exec (.leaveRelease op) s = execLeaveRelease op s := rfl
theorem exec_clusterWakeDone (c : BitVec 3) (s : State) : exec (.clusterWakeDone c) s = execClusterWakeDone c s := rfl
theorem exec_sprintIdle (c : BitVec 3) (s : State) : exec (.sprintIdle c) s = execSprintIdle c s := rfl
theorem exec_warmupIdle (c : BitVec 3) (s : State) : exec (.warmupIdle c) s = execWarmupIdle c s := rfl
theorem exec_sortUnitIdle (unit : BitVec 2) (s : State) : exec (.sortUnitIdle unit) s = execSortUnitIdle unit s := rfl
theorem exec_patrolScrub (ch : BitVec 4) (rank : BitVec 2) (line : BitVec 64) (finding : LineFinding) (s : State) : exec (.patrolScrub ch rank line finding) s = execPatrolScrub ch rank line finding s := rfl
theorem exec_refreshDue (ch : BitVec 4) (rank : BitVec 2) (queue : RankQueue) (s : State) :
    exec (.refreshDue ch rank queue) s = execRefreshDue ch rank queue s := rfl
theorem exec_driftCheck (ch : BitVec 4) (rank : BitVec 2) (steps : BitVec 8) (s : State) : exec (.driftCheck ch rank steps) s = execDriftCheck ch rank steps s := rfl
theorem exec_channelRetraining (ch : BitVec 4) (works : Bool) (s : State) : exec (.channelRetraining ch works) s = execChannelRetraining ch works s := rfl
theorem exec_migrationLineCopy (ch : BitVec 4) (source spare : LineFinding) (s : State) : exec (.migrationLineCopy ch source spare) s = execMigrationLineCopy ch source spare s := rfl
theorem exec_deviceFatal (cause : BitVec 64) (aoIntact : Bool) (drained : List Nat) (s : State) : exec (.deviceFatal cause aoIntact drained) s = execDeviceFatal cause aoIntact drained s := rfl
theorem exec_flr (inst : BitVec 8) (committed : List Tag) (s : State) : exec (.flr inst committed) s = execFlr inst committed s := rfl
theorem exec_bmeClear (inst : BitVec 8) (committed : List Tag) (s : State) : exec (.bmeClear inst committed) s = execBmeClear inst committed s := rfl
theorem exec_bmeSet (inst : BitVec 8) (s : State) : exec (.bmeSet inst) s = execBmeSet inst s := rfl
theorem exec_vfEnableClear (port : BitVec 2) (numVfs : BitVec 6) (committed : List Tag) (s : State) : exec (.vfEnableClear port numVfs committed) s = execVfEnableClear port numVfs committed s := rfl
theorem exec_perstAssert (port : BitVec 2) (committed : List Tag) (s : State) : exec (.perstAssert port committed) s = execPerstAssert port committed s := rfl
theorem exec_perstDeassert (port : BitVec 2) (s : State) : exec (.perstDeassert port) s = execPerstDeassert port s := rfl
theorem exec_hostLinkDown (port : BitVec 2) (committed : List Tag) (s : State) : exec (.hostLinkDown port committed) s = execHostLinkDown port committed s := rfl
theorem exec_hostLinkUp (port : BitVec 2) (status : BitVec 16) (flit : Bool) (s : State) : exec (.hostLinkUp port status flit) s = execHostLinkUp port status flit s := rfl
theorem exec_hostAer (port : BitVec 2) (bit : BitVec 64) (kind : AerKind) (victim : Option Tag) (s : State) : exec (.hostAer port bit kind victim) s = execHostAer port bit kind victim s := rfl
theorem exec_d3hotEntry (inst : BitVec 8) (pmeEn : Bool) (s : State) : exec (.d3hotEntry inst pmeEn) s = execD3hotEntry inst pmeEn s := rfl
theorem exec_d0Return (inst : BitVec 8) (s : State) : exec (.d0Return inst) s = execD0Return inst s := rfl
theorem exec_priEnableClear (inst : BitVec 8) (s : State) : exec (.priEnableClear inst) s = execPriEnableClear inst s := rfl
theorem exec_atsEnableClear (inst : BitVec 8) (s : State) : exec (.atsEnableClear inst) s = execAtsEnableClear inst s := rfl
theorem exec_vectorUnmask (inst : BitVec 8) (vector : Option (BitVec 11)) (s : State) : exec (.vectorUnmask inst vector) s = execVectorUnmask inst vector s := rfl
theorem exec_moderationTimer (inst : BitVec 8) (vector : BitVec 11) (s : State) : exec (.moderationTimer inst vector) s = execModerationTimer inst vector s := rfl
theorem exec_quiesceGraceEnd (inst : BitVec 8) (committed : List Tag) (s : State) : exec (.quiesceGraceEnd inst committed) s = execQuiesceGraceEnd inst committed s := rfl
theorem exec_managerTransfer (s : State) : exec (.managerTransfer) s = execManagerTransfer s := rfl
theorem exec_fwLivePause (s : State) : exec (.fwLivePause) s = execFwLivePause s := rfl
theorem exec_fwLiveHandover (ok : Bool) (s : State) : exec (.fwLiveHandover ok) s = execFwLiveHandover ok s := rfl
theorem exec_heartbeat (m : RelayMsg) (s : State) : exec (.heartbeat m) s = execHeartbeat m s := rfl
theorem exec_heartbeatSend (s : State) : exec (.heartbeatSend) s = execHeartbeatSend s := rfl
theorem exec_peerLost (s : State) : exec (.peerLost) s = execPeerLost s := rfl
theorem exec_fenceDelay (s : State) : exec (.fenceDelay) s = execFenceDelay s := rfl
theorem exec_pairTakeover (s : State) : exec (.pairTakeover) s = execPairTakeover s := rfl
theorem exec_pairFenceLow (s : State) : exec (.pairFenceLow) s = execPairFenceLow s := rfl
theorem exec_peerAliveToggle (s : State) : exec (.peerAliveToggle) s = execPeerAliveToggle s := rfl
theorem exec_peerAliveLoss (s : State) : exec (.peerAliveLoss) s = execPeerAliveLoss s := rfl
theorem exec_joiningTimeout (s : State) : exec (.joiningTimeout) s = execJoiningTimeout s := rfl
theorem exec_relayLinkDown (port : BitVec 2) (s : State) : exec (.relayLinkDown port) s = execRelayLinkDown port s := rfl
theorem exec_ident (m : RelayMsg) (s : State) : exec (.ident m) s = execIdent m s := rfl
theorem exec_mirrorCommit (m : RelayMsg) (s : State) : exec (.mirrorCommit m) s = execMirrorCommit m s := rfl
theorem exec_mirrorApplied (m : RelayMsg) (s : State) : exec (.mirrorApplied m) s = execMirrorApplied m s := rfl
theorem exec_mirrorDurable (m : RelayMsg) (s : State) : exec (.mirrorDurable m) s = execMirrorDurable m s := rfl
theorem exec_forward (m : RelayMsg) (s : State) : exec (.forward m) s = execForward m s := rfl
theorem exec_directoryRequest (m : RelayMsg) (s : State) : exec (.directoryRequest m) s = execDirectoryRequest m s := rfl
theorem exec_directoryAdmit (m : RelayMsg) (s : State) : exec (.directoryAdmit m) s = execDirectoryAdmit m s := rfl
theorem exec_directoryRefuse (m : RelayMsg) (s : State) : exec (.directoryRefuse m) s = execDirectoryRefuse m s := rfl
theorem exec_directoryRelease (m : RelayMsg) (s : State) : exec (.directoryRelease m) s = execDirectoryRelease m s := rfl
theorem exec_fetchReq (m : RelayMsg) (s : State) : exec (.fetchReq m) s = execFetchReq m s := rfl
theorem exec_fetchData (m : RelayMsg) (s : State) : exec (.fetchData m) s = execFetchData m s := rfl
theorem exec_batonStart (s : State) : exec (.batonStart) s = execBatonStart s := rfl
theorem exec_batonOut (m : RelayMsg) (s : State) : exec (.batonOut m) s = execBatonOut m s := rfl
theorem exec_batonBack (m : RelayMsg) (s : State) : exec (.batonBack m) s = execBatonBack m s := rfl
theorem exec_batonVisited (m : RelayMsg) (s : State) : exec (.batonVisited m) s = execBatonVisited m s := rfl
theorem exec_batonConflict (m : RelayMsg) (s : State) : exec (.batonConflict m) s = execBatonConflict m s := rfl
theorem exec_batonTimeout (s : State) : exec (.batonTimeout) s = execBatonTimeout s := rfl
theorem exec_discEnd (m : RelayMsg) (s : State) : exec (.discEnd m) s = execDiscEnd m s := rfl
theorem exec_conflict (m : RelayMsg) (s : State) : exec (.conflict m) s = execConflict m s := rfl
theorem exec_interrupt (core : CoreId) (raised : Option (AsyncSrc × BitVec 64)) (s : State) : exec (.interrupt core raised) s = execInterrupt core raised s := rfl
theorem exec_wdog (core : CoreId) (s : State) : exec (.wdog core) s = execWdog core s := rfl
theorem exec_maskTimeout (core : CoreId) (s : State) : exec (.maskTimeout core) s = execMaskTimeout core s := rfl
theorem exec_setManager (port : BitVec 2) (s : State) : exec (.setManager port) s = execSetManager port s := rfl
theorem exec_getState (s : State) : exec (.getState) s = execGetState s := rfl
theorem exec_pldmSensorRead (sensor : BitVec 8) (s : State) : exec (.pldmSensorRead sensor) s = execPldmSensorRead sensor s := rfl
theorem exec_pldmFirmwareUpdate (offset : BitVec 32) (bs : Bytes) (s : State) : exec (.pldmFirmwareUpdate offset bs) s = execPldmFirmwareUpdate offset bs s := rfl
theorem exec_activateFirmware (selfContained : Bool) (s : State) : exec (.activateFirmware selfContained) s = execActivateFirmware selfContained s := rfl
theorem exec_getDigests (s : State) : exec (.getDigests) s = execGetDigests s := rfl
theorem exec_getCertificate (slot : BitVec 8) (offset len : BitVec 16) (s : State) : exec (.getCertificate slot offset len) s = execGetCertificate slot offset len s := rfl
theorem exec_challenge (nonce : Bytes) (s : State) : exec (.challenge nonce) s = execChallenge nonce s := rfl
theorem exec_getMeasurements (index : BitVec 8) (s : State) : exec (.getMeasurements index) s = execGetMeasurements index s := rfl
theorem exec_add (k : At) (rd rs1 rs2 : BitVec 5) (s : State) : exec (.add k rd rs1 rs2) s = execAdd k rd rs1 rs2 s := rfl
theorem exec_sub (k : At) (rd rs1 rs2 : BitVec 5) (s : State) : exec (.sub k rd rs1 rs2) s = execSub k rd rs1 rs2 s := rfl
theorem exec_and (k : At) (rd rs1 rs2 : BitVec 5) (s : State) : exec (.and k rd rs1 rs2) s = execAnd k rd rs1 rs2 s := rfl
theorem exec_or (k : At) (rd rs1 rs2 : BitVec 5) (s : State) : exec (.or k rd rs1 rs2) s = execOr k rd rs1 rs2 s := rfl
theorem exec_xor (k : At) (rd rs1 rs2 : BitVec 5) (s : State) : exec (.xor k rd rs1 rs2) s = execXor k rd rs1 rs2 s := rfl
theorem exec_sll (k : At) (rd rs1 rs2 : BitVec 5) (s : State) : exec (.sll k rd rs1 rs2) s = execSll k rd rs1 rs2 s := rfl
theorem exec_srl (k : At) (rd rs1 rs2 : BitVec 5) (s : State) : exec (.srl k rd rs1 rs2) s = execSrl k rd rs1 rs2 s := rfl
theorem exec_sra (k : At) (rd rs1 rs2 : BitVec 5) (s : State) : exec (.sra k rd rs1 rs2) s = execSra k rd rs1 rs2 s := rfl
theorem exec_slt (k : At) (rd rs1 rs2 : BitVec 5) (s : State) : exec (.slt k rd rs1 rs2) s = execSlt k rd rs1 rs2 s := rfl
theorem exec_sltu (k : At) (rd rs1 rs2 : BitVec 5) (s : State) : exec (.sltu k rd rs1 rs2) s = execSltu k rd rs1 rs2 s := rfl
theorem exec_mul (k : At) (rd rs1 rs2 : BitVec 5) (s : State) : exec (.mul k rd rs1 rs2) s = execMul k rd rs1 rs2 s := rfl
theorem exec_mulh (k : At) (rd rs1 rs2 : BitVec 5) (s : State) : exec (.mulh k rd rs1 rs2) s = execMulh k rd rs1 rs2 s := rfl
theorem exec_mulhu (k : At) (rd rs1 rs2 : BitVec 5) (s : State) : exec (.mulhu k rd rs1 rs2) s = execMulhu k rd rs1 rs2 s := rfl
theorem exec_div (k : At) (rd rs1 rs2 : BitVec 5) (s : State) : exec (.div k rd rs1 rs2) s = execDiv k rd rs1 rs2 s := rfl
theorem exec_divu (k : At) (rd rs1 rs2 : BitVec 5) (s : State) : exec (.divu k rd rs1 rs2) s = execDivu k rd rs1 rs2 s := rfl
theorem exec_rem (k : At) (rd rs1 rs2 : BitVec 5) (s : State) : exec (.rem k rd rs1 rs2) s = execRem k rd rs1 rs2 s := rfl
theorem exec_remu (k : At) (rd rs1 rs2 : BitVec 5) (s : State) : exec (.remu k rd rs1 rs2) s = execRemu k rd rs1 rs2 s := rfl
theorem exec_min (k : At) (rd rs1 rs2 : BitVec 5) (s : State) : exec (.min k rd rs1 rs2) s = execMin k rd rs1 rs2 s := rfl
theorem exec_max (k : At) (rd rs1 rs2 : BitVec 5) (s : State) : exec (.max k rd rs1 rs2) s = execMax k rd rs1 rs2 s := rfl
theorem exec_minu (k : At) (rd rs1 rs2 : BitVec 5) (s : State) : exec (.minu k rd rs1 rs2) s = execMinu k rd rs1 rs2 s := rfl
theorem exec_maxu (k : At) (rd rs1 rs2 : BitVec 5) (s : State) : exec (.maxu k rd rs1 rs2) s = execMaxu k rd rs1 rs2 s := rfl
theorem exec_clz (k : At) (rd rs1 : BitVec 5) (s : State) : exec (.clz k rd rs1) s = execClz k rd rs1 s := rfl
theorem exec_ctz (k : At) (rd rs1 : BitVec 5) (s : State) : exec (.ctz k rd rs1) s = execCtz k rd rs1 s := rfl
theorem exec_popc (k : At) (rd rs1 : BitVec 5) (s : State) : exec (.popc k rd rs1) s = execPopc k rd rs1 s := rfl
theorem exec_bswap (k : At) (rd rs1 : BitVec 5) (s : State) : exec (.bswap k rd rs1) s = execBswap k rd rs1 s := rfl
theorem exec_addw (k : At) (rd rs1 rs2 : BitVec 5) (s : State) : exec (.addw k rd rs1 rs2) s = execAddw k rd rs1 rs2 s := rfl
theorem exec_subw (k : At) (rd rs1 rs2 : BitVec 5) (s : State) : exec (.subw k rd rs1 rs2) s = execSubw k rd rs1 rs2 s := rfl
theorem exec_addi (k : At) (rd rs1 : BitVec 5) (imm : BitVec 12) (s : State) : exec (.addi k rd rs1 imm) s = execAddi k rd rs1 imm s := rfl
theorem exec_andi (k : At) (rd rs1 : BitVec 5) (imm : BitVec 12) (s : State) : exec (.andi k rd rs1 imm) s = execAndi k rd rs1 imm s := rfl
theorem exec_ori (k : At) (rd rs1 : BitVec 5) (imm : BitVec 12) (s : State) : exec (.ori k rd rs1 imm) s = execOri k rd rs1 imm s := rfl
theorem exec_xori (k : At) (rd rs1 : BitVec 5) (imm : BitVec 12) (s : State) : exec (.xori k rd rs1 imm) s = execXori k rd rs1 imm s := rfl
theorem exec_slli (k : At) (rd rs1 : BitVec 5) (sh : BitVec 6) (s : State) : exec (.slli k rd rs1 sh) s = execSlli k rd rs1 sh s := rfl
theorem exec_srli (k : At) (rd rs1 : BitVec 5) (sh : BitVec 6) (s : State) : exec (.srli k rd rs1 sh) s = execSrli k rd rs1 sh s := rfl
theorem exec_srai (k : At) (rd rs1 : BitVec 5) (sh : BitVec 6) (s : State) : exec (.srai k rd rs1 sh) s = execSrai k rd rs1 sh s := rfl
theorem exec_slti (k : At) (rd rs1 : BitVec 5) (imm : BitVec 12) (s : State) : exec (.slti k rd rs1 imm) s = execSlti k rd rs1 imm s := rfl
theorem exec_lup (k : At) (rd : BitVec 5) (imm : BitVec 20) (s : State) : exec (.lup k rd imm) s = execLup k rd imm s := rfl
theorem exec_pcup (k : At) (rd : BitVec 5) (imm : BitVec 20) (s : State) : exec (.pcup k rd imm) s = execPcup k rd imm s := rfl
theorem exec_lb (k : At) (rt rs1 : BitVec 5) (imm : BitVec 12) (s : State) : exec (.lb k rt rs1 imm) s = execLb k rt rs1 imm s := rfl
theorem exec_lh (k : At) (rt rs1 : BitVec 5) (imm : BitVec 12) (s : State) : exec (.lh k rt rs1 imm) s = execLh k rt rs1 imm s := rfl
theorem exec_lw (k : At) (rt rs1 : BitVec 5) (imm : BitVec 12) (s : State) : exec (.lw k rt rs1 imm) s = execLw k rt rs1 imm s := rfl
theorem exec_ld (k : At) (rt rs1 : BitVec 5) (imm : BitVec 12) (s : State) : exec (.ld k rt rs1 imm) s = execLd k rt rs1 imm s := rfl
theorem exec_lbu (k : At) (rt rs1 : BitVec 5) (imm : BitVec 12) (s : State) : exec (.lbu k rt rs1 imm) s = execLbu k rt rs1 imm s := rfl
theorem exec_lhu (k : At) (rt rs1 : BitVec 5) (imm : BitVec 12) (s : State) : exec (.lhu k rt rs1 imm) s = execLhu k rt rs1 imm s := rfl
theorem exec_lwu (k : At) (rt rs1 : BitVec 5) (imm : BitVec 12) (s : State) : exec (.lwu k rt rs1 imm) s = execLwu k rt rs1 imm s := rfl
theorem exec_sb (k : At) (rt rs1 : BitVec 5) (imm : BitVec 12) (s : State) : exec (.sb k rt rs1 imm) s = execSb k rt rs1 imm s := rfl
theorem exec_sh (k : At) (rt rs1 : BitVec 5) (imm : BitVec 12) (s : State) : exec (.sh k rt rs1 imm) s = execSh k rt rs1 imm s := rfl
theorem exec_sw (k : At) (rt rs1 : BitVec 5) (imm : BitVec 12) (s : State) : exec (.sw k rt rs1 imm) s = execSw k rt rs1 imm s := rfl
theorem exec_sd (k : At) (rt rs1 : BitVec 5) (imm : BitVec 12) (s : State) : exec (.sd k rt rs1 imm) s = execSd k rt rs1 imm s := rfl
theorem exec_beq (k : At) (rs1 rs2 : BitVec 5) (off : BitVec 12) (s : State) : exec (.beq k rs1 rs2 off) s = execBeq k rs1 rs2 off s := rfl
theorem exec_bne (k : At) (rs1 rs2 : BitVec 5) (off : BitVec 12) (s : State) : exec (.bne k rs1 rs2 off) s = execBne k rs1 rs2 off s := rfl
theorem exec_blt (k : At) (rs1 rs2 : BitVec 5) (off : BitVec 12) (s : State) : exec (.blt k rs1 rs2 off) s = execBlt k rs1 rs2 off s := rfl
theorem exec_bge (k : At) (rs1 rs2 : BitVec 5) (off : BitVec 12) (s : State) : exec (.bge k rs1 rs2 off) s = execBge k rs1 rs2 off s := rfl
theorem exec_bltu (k : At) (rs1 rs2 : BitVec 5) (off : BitVec 12) (s : State) : exec (.bltu k rs1 rs2 off) s = execBltu k rs1 rs2 off s := rfl
theorem exec_bgeu (k : At) (rs1 rs2 : BitVec 5) (off : BitVec 12) (s : State) : exec (.bgeu k rs1 rs2 off) s = execBgeu k rs1 rs2 off s := rfl
theorem exec_j (k : At) (off : BitVec 20) (s : State) : exec (.j k off) s = execJ k off s := rfl
theorem exec_call (k : At) (rd : BitVec 5) (off : BitVec 20) (s : State) : exec (.call k rd off) s = execCall k rd off s := rfl
theorem exec_jr (k : At) (rs1 : BitVec 5) (imm : BitVec 12) (s : State) : exec (.jr k rs1 imm) s = execJr k rs1 imm s := rfl
theorem exec_callr (k : At) (rd rs1 : BitVec 5) (imm : BitVec 12) (s : State) : exec (.callr k rd rs1 imm) s = execCallr k rd rs1 imm s := rfl
theorem exec_ret (k : At) (rs1 : BitVec 5) (s : State) : exec (.ret k rs1) s = execRet k rs1 s := rfl
theorem exec_loop (k : At) (lvl : BitVec 1) (rs1 : BitVec 5) (off : BitVec 15) (s : State) : exec (.loop k lvl rs1 off) s = execLoop k lvl rs1 off s := rfl
theorem exec_scopy (k : At) (rd rs1 rs2 : BitVec 5) (s : State) : exec (.scopy k rd rs1 rs2) s = execScopy k rd rs1 rs2 s := rfl
theorem exec_csrget (k : At) (rd : BitVec 5) (csr : BitVec 12) (s : State) : exec (.csrget k rd csr) s = execCsrget k rd csr s := rfl
theorem exec_csrput (k : At) (csr : BitVec 12) (rs1 : BitVec 5) (s : State) : exec (.csrput k csr rs1) s = execCsrput k csr rs1 s := rfl
theorem exec_csrputm (k : At) (csr : BitVec 12) (rs1 rm : BitVec 5) (s : State) : exec (.csrputm k csr rs1 rm) s = execCsrputm k csr rs1 rm s := rfl
theorem exec_callk (k : At) (s : State) : exec (.callk k) s = execCallk k s := rfl
theorem exec_retk (k : At) (s : State) : exec (.retk k) s = execRetk k s := rfl
theorem exec_fence (k : At) (s : State) : exec (.fence k) s = execFence k s := rfl
theorem exec_wfe (k : At) (s : State) : exec (.wfe k) s = execWfe k s := rfl
theorem exec_brk (k : At) (s : State) : exec (.brk k) s = execBrk k s := rfl
theorem exec_fadd (k : At) (d : Prec) (fd fs1 fs2 : BitVec 5) (s : State) : exec (.fadd k d fd fs1 fs2) s = execFadd k d fd fs1 fs2 s := rfl
theorem exec_fsub (k : At) (d : Prec) (fd fs1 fs2 : BitVec 5) (s : State) : exec (.fsub k d fd fs1 fs2) s = execFsub k d fd fs1 fs2 s := rfl
theorem exec_fmul (k : At) (d : Prec) (fd fs1 fs2 : BitVec 5) (s : State) : exec (.fmul k d fd fs1 fs2) s = execFmul k d fd fs1 fs2 s := rfl
theorem exec_fdiv (k : At) (d : Prec) (fd fs1 fs2 : BitVec 5) (s : State) : exec (.fdiv k d fd fs1 fs2) s = execFdiv k d fd fs1 fs2 s := rfl
theorem exec_fsqrt (k : At) (d : Prec) (fd fs1 : BitVec 5) (s : State) : exec (.fsqrt k d fd fs1) s = execFsqrt k d fd fs1 s := rfl
theorem exec_fmin (k : At) (d : Prec) (fd fs1 fs2 : BitVec 5) (s : State) : exec (.fmin k d fd fs1 fs2) s = execFmin k d fd fs1 fs2 s := rfl
theorem exec_fmax (k : At) (d : Prec) (fd fs1 fs2 : BitVec 5) (s : State) : exec (.fmax k d fd fs1 fs2) s = execFmax k d fd fs1 fs2 s := rfl
theorem exec_fmacc (k : At) (d : Prec) (fd fs1 fs2 : BitVec 5) (s : State) : exec (.fmacc k d fd fs1 fs2) s = execFmacc k d fd fs1 fs2 s := rfl
theorem exec_feq (k : At) (d : Prec) (rd fs1 fs2 : BitVec 5) (s : State) : exec (.feq k d rd fs1 fs2) s = execFeq k d rd fs1 fs2 s := rfl
theorem exec_flt (k : At) (d : Prec) (rd fs1 fs2 : BitVec 5) (s : State) : exec (.flt k d rd fs1 fs2) s = execFlt k d rd fs1 fs2 s := rfl
theorem exec_fle (k : At) (d : Prec) (rd fs1 fs2 : BitVec 5) (s : State) : exec (.fle k d rd fs1 fs2) s = execFle k d rd fs1 fs2 s := rfl
theorem exec_fcvtxf (k : At) (d : Prec) (rd fs1 : BitVec 5) (s : State) : exec (.fcvtxf k d rd fs1) s = execFcvtxf k d rd fs1 s := rfl
theorem exec_fcvtfx (k : At) (d : Prec) (fd rs1 : BitVec 5) (s : State) : exec (.fcvtfx k d fd rs1) s = execFcvtfx k d fd rs1 s := rfl
theorem exec_fmvxf (k : At) (d : Prec) (rd fs1 : BitVec 5) (s : State) : exec (.fmvxf k d rd fs1) s = execFmvxf k d rd fs1 s := rfl
theorem exec_fmvfx (k : At) (d : Prec) (fd rs1 : BitVec 5) (s : State) : exec (.fmvfx k d fd rs1) s = execFmvfx k d fd rs1 s := rfl
theorem exec_fcvtp (k : At) (d : Prec) (fd fs1 : BitVec 5) (s : State) : exec (.fcvtp k d fd fs1) s = execFcvtp k d fd fs1 s := rfl
theorem exec_flw (k : At) (fd rs1 : BitVec 5) (imm : BitVec 12) (s : State) : exec (.flw k fd rs1 imm) s = execFlw k fd rs1 imm s := rfl
theorem exec_fld (k : At) (fd rs1 : BitVec 5) (imm : BitVec 12) (s : State) : exec (.fld k fd rs1 imm) s = execFld k fd rs1 imm s := rfl
theorem exec_fsw (k : At) (fs rs1 : BitVec 5) (imm : BitVec 12) (s : State) : exec (.fsw k fs rs1 imm) s = execFsw k fs rs1 imm s := rfl
theorem exec_fsd (k : At) (fs rs1 : BitVec 5) (imm : BitVec 12) (s : State) : exec (.fsd k fs rs1 imm) s = execFsd k fs rs1 imm s := rfl
theorem exec_setvl (k : At) (rd rs1 : BitVec 5) (sew : BitVec 2) (s : State) : exec (.setvl k rd rs1 sew) s = execSetvl k rd rs1 sew s := rfl
theorem exec_setvlmax (k : At) (rd : BitVec 5) (sew : BitVec 2) (s : State) : exec (.setvlmax k rd sew) s = execSetvlmax k rd sew s := rfl
theorem exec_vadd (k : At) (vd vs1 : BitVec 5) (s2 : VSrc) (pg : BitVec 3) (z : Bool) (s : State) : exec (.vadd k vd vs1 s2 pg z) s = execVadd k vd vs1 s2 pg z s := rfl
theorem exec_vsub (k : At) (vd vs1 : BitVec 5) (s2 : VSrc) (pg : BitVec 3) (z : Bool) (s : State) : exec (.vsub k vd vs1 s2 pg z) s = execVsub k vd vs1 s2 pg z s := rfl
theorem exec_vand (k : At) (vd vs1 : BitVec 5) (s2 : VSrc) (pg : BitVec 3) (z : Bool) (s : State) : exec (.vand k vd vs1 s2 pg z) s = execVand k vd vs1 s2 pg z s := rfl
theorem exec_vor (k : At) (vd vs1 : BitVec 5) (s2 : VSrc) (pg : BitVec 3) (z : Bool) (s : State) : exec (.vor k vd vs1 s2 pg z) s = execVor k vd vs1 s2 pg z s := rfl
theorem exec_vxor (k : At) (vd vs1 : BitVec 5) (s2 : VSrc) (pg : BitVec 3) (z : Bool) (s : State) : exec (.vxor k vd vs1 s2 pg z) s = execVxor k vd vs1 s2 pg z s := rfl
theorem exec_vsll (k : At) (vd vs1 : BitVec 5) (s2 : VSrc) (pg : BitVec 3) (z : Bool) (s : State) : exec (.vsll k vd vs1 s2 pg z) s = execVsll k vd vs1 s2 pg z s := rfl
theorem exec_vsrl (k : At) (vd vs1 : BitVec 5) (s2 : VSrc) (pg : BitVec 3) (z : Bool) (s : State) : exec (.vsrl k vd vs1 s2 pg z) s = execVsrl k vd vs1 s2 pg z s := rfl
theorem exec_vsra (k : At) (vd vs1 : BitVec 5) (s2 : VSrc) (pg : BitVec 3) (z : Bool) (s : State) : exec (.vsra k vd vs1 s2 pg z) s = execVsra k vd vs1 s2 pg z s := rfl
theorem exec_vmul (k : At) (vd vs1 : BitVec 5) (s2 : VSrc) (pg : BitVec 3) (z : Bool) (s : State) : exec (.vmul k vd vs1 s2 pg z) s = execVmul k vd vs1 s2 pg z s := rfl
theorem exec_vmulh (k : At) (vd vs1 : BitVec 5) (s2 : VSrc) (pg : BitVec 3) (z : Bool) (s : State) : exec (.vmulh k vd vs1 s2 pg z) s = execVmulh k vd vs1 s2 pg z s := rfl
theorem exec_vmin (k : At) (vd vs1 : BitVec 5) (s2 : VSrc) (pg : BitVec 3) (z : Bool) (s : State) : exec (.vmin k vd vs1 s2 pg z) s = execVmin k vd vs1 s2 pg z s := rfl
theorem exec_vmax (k : At) (vd vs1 : BitVec 5) (s2 : VSrc) (pg : BitVec 3) (z : Bool) (s : State) : exec (.vmax k vd vs1 s2 pg z) s = execVmax k vd vs1 s2 pg z s := rfl
theorem exec_vminu (k : At) (vd vs1 : BitVec 5) (s2 : VSrc) (pg : BitVec 3) (z : Bool) (s : State) : exec (.vminu k vd vs1 s2 pg z) s = execVminu k vd vs1 s2 pg z s := rfl
theorem exec_vmaxu (k : At) (vd vs1 : BitVec 5) (s2 : VSrc) (pg : BitVec 3) (z : Bool) (s : State) : exec (.vmaxu k vd vs1 s2 pg z) s = execVmaxu k vd vs1 s2 pg z s := rfl
theorem exec_vsaddu (k : At) (vd vs1 : BitVec 5) (s2 : VSrc) (pg : BitVec 3) (z : Bool) (s : State) : exec (.vsaddu k vd vs1 s2 pg z) s = execVsaddu k vd vs1 s2 pg z s := rfl
theorem exec_vmacc (k : At) (vd vs1 : BitVec 5) (s2 : VSrc) (pg : BitVec 3) (z : Bool) (s : State) : exec (.vmacc k vd vs1 s2 pg z) s = execVmacc k vd vs1 s2 pg z s := rfl
theorem exec_vfadd (k : At) (vd vs1 : BitVec 5) (s2 : VSrc) (pg : BitVec 3) (z : Bool) (s : State) : exec (.vfadd k vd vs1 s2 pg z) s = execVfadd k vd vs1 s2 pg z s := rfl
theorem exec_vfsub (k : At) (vd vs1 : BitVec 5) (s2 : VSrc) (pg : BitVec 3) (z : Bool) (s : State) : exec (.vfsub k vd vs1 s2 pg z) s = execVfsub k vd vs1 s2 pg z s := rfl
theorem exec_vfmul (k : At) (vd vs1 : BitVec 5) (s2 : VSrc) (pg : BitVec 3) (z : Bool) (s : State) : exec (.vfmul k vd vs1 s2 pg z) s = execVfmul k vd vs1 s2 pg z s := rfl
theorem exec_vfdiv (k : At) (vd vs1 : BitVec 5) (s2 : VSrc) (pg : BitVec 3) (z : Bool) (s : State) : exec (.vfdiv k vd vs1 s2 pg z) s = execVfdiv k vd vs1 s2 pg z s := rfl
theorem exec_vfmin (k : At) (vd vs1 : BitVec 5) (s2 : VSrc) (pg : BitVec 3) (z : Bool) (s : State) : exec (.vfmin k vd vs1 s2 pg z) s = execVfmin k vd vs1 s2 pg z s := rfl
theorem exec_vfmax (k : At) (vd vs1 : BitVec 5) (s2 : VSrc) (pg : BitVec 3) (z : Bool) (s : State) : exec (.vfmax k vd vs1 s2 pg z) s = execVfmax k vd vs1 s2 pg z s := rfl
theorem exec_vfmacc (k : At) (vd vs1 : BitVec 5) (s2 : VSrc) (pg : BitVec 3) (z : Bool) (s : State) : exec (.vfmacc k vd vs1 s2 pg z) s = execVfmacc k vd vs1 s2 pg z s := rfl
theorem exec_vfnmsac (k : At) (vd vs1 : BitVec 5) (s2 : VSrc) (pg : BitVec 3) (z : Bool) (s : State) : exec (.vfnmsac k vd vs1 s2 pg z) s = execVfnmsac k vd vs1 s2 pg z s := rfl
theorem exec_vfsqrt (k : At) (vd vs1 : BitVec 5) (pg : BitVec 3) (z : Bool) (s : State) : exec (.vfsqrt k vd vs1 pg z) s = execVfsqrt k vd vs1 pg z s := rfl
theorem exec_vfabs (k : At) (vd vs1 : BitVec 5) (pg : BitVec 3) (z : Bool) (s : State) : exec (.vfabs k vd vs1 pg z) s = execVfabs k vd vs1 pg z s := rfl
theorem exec_vfneg (k : At) (vd vs1 : BitVec 5) (pg : BitVec 3) (z : Bool) (s : State) : exec (.vfneg k vd vs1 pg z) s = execVfneg k vd vs1 pg z s := rfl
theorem exec_vfcvtxf (k : At) (vd vs1 : BitVec 5) (pg : BitVec 3) (z : Bool) (s : State) : exec (.vfcvtxf k vd vs1 pg z) s = execVfcvtxf k vd vs1 pg z s := rfl
theorem exec_vfcvtfx (k : At) (vd vs1 : BitVec 5) (pg : BitVec 3) (z : Bool) (s : State) : exec (.vfcvtfx k vd vs1 pg z) s = execVfcvtfx k vd vs1 pg z s := rfl
theorem exec_vceq (k : At) (pd vs1 : BitVec 5) (s2 : VSrc) (pg : BitVec 3) (z : Bool) (s : State) : exec (.vceq k pd vs1 s2 pg z) s = execVceq k pd vs1 s2 pg z s := rfl
theorem exec_vcne (k : At) (pd vs1 : BitVec 5) (s2 : VSrc) (pg : BitVec 3) (z : Bool) (s : State) : exec (.vcne k pd vs1 s2 pg z) s = execVcne k pd vs1 s2 pg z s := rfl
theorem exec_vclt (k : At) (pd vs1 : BitVec 5) (s2 : VSrc) (pg : BitVec 3) (z : Bool) (s : State) : exec (.vclt k pd vs1 s2 pg z) s = execVclt k pd vs1 s2 pg z s := rfl
theorem exec_vcle (k : At) (pd vs1 : BitVec 5) (s2 : VSrc) (pg : BitVec 3) (z : Bool) (s : State) : exec (.vcle k pd vs1 s2 pg z) s = execVcle k pd vs1 s2 pg z s := rfl
theorem exec_vcltu (k : At) (pd vs1 : BitVec 5) (s2 : VSrc) (pg : BitVec 3) (z : Bool) (s : State) : exec (.vcltu k pd vs1 s2 pg z) s = execVcltu k pd vs1 s2 pg z s := rfl
theorem exec_vcleu (k : At) (pd vs1 : BitVec 5) (s2 : VSrc) (pg : BitVec 3) (z : Bool) (s : State) : exec (.vcleu k pd vs1 s2 pg z) s = execVcleu k pd vs1 s2 pg z s := rfl
theorem exec_vcgt (k : At) (pd vs1 : BitVec 5) (s2 : VSrc) (pg : BitVec 3) (z : Bool) (s : State) : exec (.vcgt k pd vs1 s2 pg z) s = execVcgt k pd vs1 s2 pg z s := rfl
theorem exec_vcgtu (k : At) (pd vs1 : BitVec 5) (s2 : VSrc) (pg : BitVec 3) (z : Bool) (s : State) : exec (.vcgtu k pd vs1 s2 pg z) s = execVcgtu k pd vs1 s2 pg z s := rfl
theorem exec_vfceq (k : At) (pd vs1 : BitVec 5) (s2 : VSrc) (pg : BitVec 3) (z : Bool) (s : State) : exec (.vfceq k pd vs1 s2 pg z) s = execVfceq k pd vs1 s2 pg z s := rfl
theorem exec_vfclt (k : At) (pd vs1 : BitVec 5) (s2 : VSrc) (pg : BitVec 3) (z : Bool) (s : State) : exec (.vfclt k pd vs1 s2 pg z) s = execVfclt k pd vs1 s2 pg z s := rfl
theorem exec_vfcle (k : At) (pd vs1 : BitVec 5) (s2 : VSrc) (pg : BitVec 3) (z : Bool) (s : State) : exec (.vfcle k pd vs1 s2 pg z) s = execVfcle k pd vs1 s2 pg z s := rfl
theorem exec_pand (k : At) (pd ps1 ps2 : BitVec 5) (s : State) : exec (.pand k pd ps1 ps2) s = execPand k pd ps1 ps2 s := rfl
theorem exec_por (k : At) (pd ps1 ps2 : BitVec 5) (s : State) : exec (.por k pd ps1 ps2) s = execPor k pd ps1 ps2 s := rfl
theorem exec_pandn (k : At) (pd ps1 ps2 : BitVec 5) (s : State) : exec (.pandn k pd ps1 ps2) s = execPandn k pd ps1 ps2 s := rfl
theorem exec_vcompress (k : At) (vd vs1 : BitVec 5) (pg : BitVec 3) (z : Bool) (s : State) : exec (.vcompress k vd vs1 pg z) s = execVcompress k vd vs1 pg z s := rfl
theorem exec_vslidedn (k : At) (vd vs1 : BitVec 5) (s2 : VSrc) (pg : BitVec 3) (z : Bool) (s : State) : exec (.vslidedn k vd vs1 s2 pg z) s = execVslidedn k vd vs1 s2 pg z s := rfl
theorem exec_vslideup (k : At) (vd vs1 : BitVec 5) (s2 : VSrc) (pg : BitVec 3) (z : Bool) (s : State) : exec (.vslideup k vd vs1 s2 pg z) s = execVslideup k vd vs1 s2 pg z s := rfl
theorem exec_vmv (k : At) (vd : BitVec 5) (s2 : VSrc) (pg : BitVec 3) (z : Bool) (s : State) : exec (.vmv k vd s2 pg z) s = execVmv k vd s2 pg z s := rfl
theorem exec_vext (k : At) (rd vs1 : BitVec 5) (idx : VSrc) (s : State) : exec (.vext k rd vs1 idx) s = execVext k rd vs1 idx s := rfl
theorem exec_vins (k : At) (vd rs : BitVec 5) (idx : VSrc) (s : State) : exec (.vins k vd rs idx) s = execVins k vd rs idx s := rfl
theorem exec_vredsum (k : At) (vd vs1 : BitVec 5) (pg : BitVec 3) (z : Bool) (s : State) : exec (.vredsum k vd vs1 pg z) s = execVredsum k vd vs1 pg z s := rfl
theorem exec_vredmin (k : At) (vd vs1 : BitVec 5) (pg : BitVec 3) (z : Bool) (s : State) : exec (.vredmin k vd vs1 pg z) s = execVredmin k vd vs1 pg z s := rfl
theorem exec_vredmax (k : At) (vd vs1 : BitVec 5) (pg : BitVec 3) (z : Bool) (s : State) : exec (.vredmax k vd vs1 pg z) s = execVredmax k vd vs1 pg z s := rfl
theorem exec_vfredsum (k : At) (vd vs1 : BitVec 5) (pg : BitVec 3) (z : Bool) (s : State) : exec (.vfredsum k vd vs1 pg z) s = execVfredsum k vd vs1 pg z s := rfl
theorem exec_pcnt (k : At) (rd ps : BitVec 5) (pg : BitVec 3) (z : Bool) (s : State) : exec (.pcnt k rd ps pg z) s = execPcnt k rd ps pg z s := rfl
theorem exec_pfirst (k : At) (rd ps : BitVec 5) (pg : BitVec 3) (z : Bool) (s : State) : exec (.pfirst k rd ps pg z) s = execPfirst k rd ps pg z s := rfl
theorem exec_vgather (k : At) (vd vs1 vidx : BitVec 5) (pg : BitVec 3) (z : Bool) (s : State) : exec (.vgather k vd vs1 vidx pg z) s = execVgather k vd vs1 vidx pg z s := rfl
theorem exec_vld (k : At) (vt rs1 : BitVec 5) (pg : BitVec 3) (z : Bool) (s : State) : exec (.vld k vt rs1 pg z) s = execVld k vt rs1 pg z s := rfl
theorem exec_vst (k : At) (vt rs1 : BitVec 5) (pg : BitVec 3) (z : Bool) (s : State) : exec (.vst k vt rs1 pg z) s = execVst k vt rs1 pg z s := rfl
theorem exec_vlda (k : At) (vt rs1 : BitVec 5) (pg : BitVec 3) (z : Bool) (s : State) : exec (.vlda k vt rs1 pg z) s = execVlda k vt rs1 pg z s := rfl
theorem exec_vsta (k : At) (vt rs1 : BitVec 5) (pg : BitVec 3) (z : Bool) (s : State) : exec (.vsta k vt rs1 pg z) s = execVsta k vt rs1 pg z s := rfl
theorem exec_spop (k : At) (vt rd : BitVec 5) (ip : BitVec 3) (s : State) : exec (.spop k vt rd ip) s = execSpop k vt rd ip s := rfl
theorem exec_spush (k : At) (vt : BitVec 5) (op : BitVec 3) (s : State) : exec (.spush k vt op) s = execSpush k vt op s := rfl
theorem exec_sclose (k : At) (op : BitVec 3) (s : State) : exec (.sclose k op) s = execSclose k op s := rfl
theorem exec_savail (k : At) (rd : BitVec 5) (ip : BitVec 3) (s : State) : exec (.savail k rd ip) s = execSavail k rd ip s := rfl
theorem exec_vfEnableSet (port : BitVec 2) (numVfs : BitVec 6) (s : State) : exec (.vfEnableSet port numVfs) s = execVfEnableSet port numVfs s := rfl
theorem exec_priEnableSet (inst : BitVec 8) (s : State) : exec (.priEnableSet inst) s = execPriEnableSet inst s := rfl
theorem exec_outstandingPageRequestAllocation (inst : BitVec 8) (n : BitVec 32) (s : State) : exec (.outstandingPageRequestAllocation inst n) s = execOutstandingPageRequestAllocation inst n s := rfl
theorem exec_completionTimeout (inst : BitVec 8) (owner : Tag) (s : State) : exec (.completionTimeout inst owner) s = execCompletionTimeout inst owner s := rfl
theorem exec_registerRead (inst : BitVec 8) (bar : BitVec 3) (offset : BitVec 32) (size : BitVec 4) (s : State) : exec (.registerRead inst bar offset size) s = execRegisterRead inst bar offset size s := rfl

end Sys2Proof.Machine
end

