-- ==== Sys2Proof/Laws/Maps.lean ====
section
/-! SUPPORT. What the maps, the lists of commands and the byte memories of the state answer after a change. -/

namespace Sys2Proof.Machine

/-! ### Maps -/

section Maps

variable {κ α : Type} [DecidableEq κ]

theorem AMap.find?_erase (m : AMap κ α) (k j : κ) :
    AMap.find? (AMap.erase m k) j = if k = j then none else AMap.find? m j := by
  induction m with
  | nil => simp [AMap.erase, AMap.find?]
  | cons e r ih => obtain ⟨a, b⟩ := e; simp only [AMap.erase, AMap.find?]; grind [AMap.find?]

@[simp] theorem AMap.find?_insert_self (m : AMap κ α) (k : κ) (a : α) : AMap.find? (AMap.insert m k a) k = some a := by
  simp [AMap.insert, AMap.find?]

theorem AMap.find?_insert_ne (m : AMap κ α) (k j : κ) (a : α) (h : j ≠ k) :
    AMap.find? (AMap.insert m k a) j = AMap.find? m j := by
  simp [AMap.insert, AMap.find?, AMap.find?_erase, h.symm]

@[simp] theorem AMap.find?_erase_self (m : AMap κ α) (k : κ) : AMap.find? (AMap.erase m k) k = none := by
  simp [AMap.find?_erase]

theorem AMap.find?_erase_ne (m : AMap κ α) (k j : κ) (h : j ≠ k) : AMap.find? (AMap.erase m k) j = AMap.find? m j := by
  simp [AMap.find?_erase, h.symm]

@[simp] theorem AMap.get_insert_self (m : AMap κ α) (k : κ) (a d : α) : AMap.get (AMap.insert m k a) k d = a := by
  simp [AMap.get]

theorem AMap.get_insert_ne (m : AMap κ α) (k j : κ) (a d : α) (h : j ≠ k) :
    AMap.get (AMap.insert m k a) j d = AMap.get m j d := by
  simp [AMap.get, AMap.find?_insert_ne m k j a h]

theorem AMap.get_insert (m : AMap κ α) (k j : κ) (a d : α) :
    AMap.get (AMap.insert m k a) j d = if j = k then a else AMap.get m j d := by
  split
  · subst_vars; simp
  · rename_i h; exact AMap.get_insert_ne m k j a d h

theorem AMap.mem_erase (m : AMap κ α) (k : κ) (e : κ × α) (h : e ∈ AMap.erase m k) : e ∈ m := by
  induction m with
  | nil => simp [AMap.erase] at h
  | cons x r ih => obtain ⟨a, b⟩ := x; simp only [AMap.erase] at h; split at h <;> grind

theorem AMap.mem_insert (m : AMap κ α) (k : κ) (a : α) (e : κ × α) (h : e ∈ AMap.insert m k a) : e = (k, a) ∨ e ∈ m := by
  simp only [AMap.insert, List.mem_cons] at h
  exact h.imp_right (AMap.mem_erase m k e)

theorem AMap.mem_of_find? (m : AMap κ α) (k : κ) (a : α) (h : AMap.find? m k = some a) : (k, a) ∈ m := by
  induction m with
  | nil => simp [AMap.find?] at h
  | cons x r ih => obtain ⟨b, c⟩ := x; simp only [AMap.find?] at h; split at h <;> simp_all

end Maps

end Sys2Proof.Machine
end

