-- ==== Sys2Proof/Laws/State.lean ====
section
/-! SUPPORT. What each update of the state leaves as it was: one lemma per field, so that no proof unfolds an update. -/

namespace Sys2Proof.Machine

variable (s : State)

/-! ### setFn -/
@[simp] theorem setFn_pending (i : BitVec 8) (v : Fn) : (s.setFn i v).pending = s.pending := rfl
@[simp] theorem setFn_time (i : BitVec 8) (v : Fn) : (s.setFn i v).time = s.time := rfl
@[simp] theorem setFn_glb (i : BitVec 8) (v : Fn) : (s.setFn i v).glb = s.glb := rfl
@[simp] theorem setFn_insts (i : BitVec 8) (v : Fn) : (s.setFn i v).insts = s.insts := rfl
@[simp] theorem setFn_rings (i : BitVec 8) (v : Fn) : (s.setFn i v).rings = s.rings := rfl
@[simp] theorem setFn_store (i : BitVec 8) (v : Fn) : (s.setFn i v).store = s.store := rfl
@[simp] theorem setFn_xlat (i : BitVec 8) (v : Fn) : (s.setFn i v).xlat = s.xlat := rfl
@[simp] theorem setFn_queries (i : BitVec 8) (v : Fn) : (s.setFn i v).queries = s.queries := rfl
@[simp] theorem setFn_disp (i : BitVec 8) (v : Fn) : (s.setFn i v).disp = s.disp := rfl
@[simp] theorem setFn_streams (i : BitVec 8) (v : Fn) : (s.setFn i v).streams = s.streams := rfl
@[simp] theorem setFn_ops (i : BitVec 8) (v : Fn) : (s.setFn i v).ops = s.ops := rfl
@[simp] theorem setFn_asa (i : BitVec 8) (v : Fn) : (s.setFn i v).asa = s.asa := rfl
@[simp] theorem setFn_cores (i : BitVec 8) (v : Fn) : (s.setFn i v).cores = s.cores := rfl
@[simp] theorem setFn_jobs (i : BitVec 8) (v : Fn) : (s.setFn i v).jobs = s.jobs := rfl
@[simp] theorem setFn_dram (i : BitVec 8) (v : Fn) : (s.setFn i v).dram = s.dram := rfl
@[simp] theorem setFn_pair (i : BitVec 8) (v : Fn) : (s.setFn i v).pair = s.pair := rfl
@[simp] theorem setFn_disc (i : BitVec 8) (v : Fn) : (s.setFn i v).disc = s.disc := rfl
@[simp] theorem setFn_power (i : BitVec 8) (v : Fn) : (s.setFn i v).power = s.power := rfl
@[simp] theorem setFn_ras (i : BitVec 8) (v : Fn) : (s.setFn i v).ras = s.ras := rfl
@[simp] theorem setFn_fw (i : BitVec 8) (v : Fn) : (s.setFn i v).fw = s.fw := rfl
@[simp] theorem setFn_out (i : BitVec 8) (v : Fn) : (s.setFn i v).out = s.out := rfl
@[simp] theorem setFn_free (i : BitVec 8) (v : Fn) : (s.setFn i v).free = s.free := rfl

/-! ### setInst -/
@[simp] theorem setInst_pending (i : BitVec 8) (v : Inst) : (s.setInst i v).pending = s.pending := rfl
@[simp] theorem setInst_time (i : BitVec 8) (v : Inst) : (s.setInst i v).time = s.time := rfl
@[simp] theorem setInst_glb (i : BitVec 8) (v : Inst) : (s.setInst i v).glb = s.glb := rfl
@[simp] theorem setInst_fns (i : BitVec 8) (v : Inst) : (s.setInst i v).fns = s.fns := rfl
@[simp] theorem setInst_rings (i : BitVec 8) (v : Inst) : (s.setInst i v).rings = s.rings := rfl
@[simp] theorem setInst_store (i : BitVec 8) (v : Inst) : (s.setInst i v).store = s.store := rfl
@[simp] theorem setInst_xlat (i : BitVec 8) (v : Inst) : (s.setInst i v).xlat = s.xlat := rfl
@[simp] theorem setInst_queries (i : BitVec 8) (v : Inst) : (s.setInst i v).queries = s.queries := rfl
@[simp] theorem setInst_disp (i : BitVec 8) (v : Inst) : (s.setInst i v).disp = s.disp := rfl
@[simp] theorem setInst_streams (i : BitVec 8) (v : Inst) : (s.setInst i v).streams = s.streams := rfl
@[simp] theorem setInst_ops (i : BitVec 8) (v : Inst) : (s.setInst i v).ops = s.ops := rfl
@[simp] theorem setInst_asa (i : BitVec 8) (v : Inst) : (s.setInst i v).asa = s.asa := rfl
@[simp] theorem setInst_cores (i : BitVec 8) (v : Inst) : (s.setInst i v).cores = s.cores := rfl
@[simp] theorem setInst_jobs (i : BitVec 8) (v : Inst) : (s.setInst i v).jobs = s.jobs := rfl
@[simp] theorem setInst_dram (i : BitVec 8) (v : Inst) : (s.setInst i v).dram = s.dram := rfl
@[simp] theorem setInst_pair (i : BitVec 8) (v : Inst) : (s.setInst i v).pair = s.pair := rfl
@[simp] theorem setInst_disc (i : BitVec 8) (v : Inst) : (s.setInst i v).disc = s.disc := rfl
@[simp] theorem setInst_power (i : BitVec 8) (v : Inst) : (s.setInst i v).power = s.power := rfl
@[simp] theorem setInst_ras (i : BitVec 8) (v : Inst) : (s.setInst i v).ras = s.ras := rfl
@[simp] theorem setInst_fw (i : BitVec 8) (v : Inst) : (s.setInst i v).fw = s.fw := rfl
@[simp] theorem setInst_out (i : BitVec 8) (v : Inst) : (s.setInst i v).out = s.out := rfl
@[simp] theorem setInst_free (i : BitVec 8) (v : Inst) : (s.setInst i v).free = s.free := rfl

/-! ### modFn -/
@[simp] theorem modFn_pending (i : BitVec 8) (g : Fn → Fn) : (s.modFn i g).pending = s.pending := rfl
@[simp] theorem modFn_time (i : BitVec 8) (g : Fn → Fn) : (s.modFn i g).time = s.time := rfl
@[simp] theorem modFn_glb (i : BitVec 8) (g : Fn → Fn) : (s.modFn i g).glb = s.glb := rfl
@[simp] theorem modFn_insts (i : BitVec 8) (g : Fn → Fn) : (s.modFn i g).insts = s.insts := rfl
@[simp] theorem modFn_rings (i : BitVec 8) (g : Fn → Fn) : (s.modFn i g).rings = s.rings := rfl
@[simp] theorem modFn_store (i : BitVec 8) (g : Fn → Fn) : (s.modFn i g).store = s.store := rfl
@[simp] theorem modFn_xlat (i : BitVec 8) (g : Fn → Fn) : (s.modFn i g).xlat = s.xlat := rfl
@[simp] theorem modFn_queries (i : BitVec 8) (g : Fn → Fn) : (s.modFn i g).queries = s.queries := rfl
@[simp] theorem modFn_disp (i : BitVec 8) (g : Fn → Fn) : (s.modFn i g).disp = s.disp := rfl
@[simp] theorem modFn_streams (i : BitVec 8) (g : Fn → Fn) : (s.modFn i g).streams = s.streams := rfl
@[simp] theorem modFn_ops (i : BitVec 8) (g : Fn → Fn) : (s.modFn i g).ops = s.ops := rfl
@[simp] theorem modFn_asa (i : BitVec 8) (g : Fn → Fn) : (s.modFn i g).asa = s.asa := rfl
@[simp] theorem modFn_cores (i : BitVec 8) (g : Fn → Fn) : (s.modFn i g).cores = s.cores := rfl
@[simp] theorem modFn_jobs (i : BitVec 8) (g : Fn → Fn) : (s.modFn i g).jobs = s.jobs := rfl
@[simp] theorem modFn_dram (i : BitVec 8) (g : Fn → Fn) : (s.modFn i g).dram = s.dram := rfl
@[simp] theorem modFn_pair (i : BitVec 8) (g : Fn → Fn) : (s.modFn i g).pair = s.pair := rfl
@[simp] theorem modFn_disc (i : BitVec 8) (g : Fn → Fn) : (s.modFn i g).disc = s.disc := rfl
@[simp] theorem modFn_power (i : BitVec 8) (g : Fn → Fn) : (s.modFn i g).power = s.power := rfl
@[simp] theorem modFn_ras (i : BitVec 8) (g : Fn → Fn) : (s.modFn i g).ras = s.ras := rfl
@[simp] theorem modFn_fw (i : BitVec 8) (g : Fn → Fn) : (s.modFn i g).fw = s.fw := rfl
@[simp] theorem modFn_out (i : BitVec 8) (g : Fn → Fn) : (s.modFn i g).out = s.out := rfl
@[simp] theorem modFn_free (i : BitVec 8) (g : Fn → Fn) : (s.modFn i g).free = s.free := rfl

/-! ### modInst -/
@[simp] theorem modInst_pending (i : BitVec 8) (g : Inst → Inst) : (s.modInst i g).pending = s.pending := rfl
@[simp] theorem modInst_time (i : BitVec 8) (g : Inst → Inst) : (s.modInst i g).time = s.time := rfl
@[simp] theorem modInst_glb (i : BitVec 8) (g : Inst → Inst) : (s.modInst i g).glb = s.glb := rfl
@[simp] theorem modInst_fns (i : BitVec 8) (g : Inst → Inst) : (s.modInst i g).fns = s.fns := rfl
@[simp] theorem modInst_rings (i : BitVec 8) (g : Inst → Inst) : (s.modInst i g).rings = s.rings := rfl
@[simp] theorem modInst_store (i : BitVec 8) (g : Inst → Inst) : (s.modInst i g).store = s.store := rfl
@[simp] theorem modInst_xlat (i : BitVec 8) (g : Inst → Inst) : (s.modInst i g).xlat = s.xlat := rfl
@[simp] theorem modInst_queries (i : BitVec 8) (g : Inst → Inst) : (s.modInst i g).queries = s.queries := rfl
@[simp] theorem modInst_disp (i : BitVec 8) (g : Inst → Inst) : (s.modInst i g).disp = s.disp := rfl
@[simp] theorem modInst_streams (i : BitVec 8) (g : Inst → Inst) : (s.modInst i g).streams = s.streams := rfl
@[simp] theorem modInst_ops (i : BitVec 8) (g : Inst → Inst) : (s.modInst i g).ops = s.ops := rfl
@[simp] theorem modInst_asa (i : BitVec 8) (g : Inst → Inst) : (s.modInst i g).asa = s.asa := rfl
@[simp] theorem modInst_cores (i : BitVec 8) (g : Inst → Inst) : (s.modInst i g).cores = s.cores := rfl
@[simp] theorem modInst_jobs (i : BitVec 8) (g : Inst → Inst) : (s.modInst i g).jobs = s.jobs := rfl
@[simp] theorem modInst_dram (i : BitVec 8) (g : Inst → Inst) : (s.modInst i g).dram = s.dram := rfl
@[simp] theorem modInst_pair (i : BitVec 8) (g : Inst → Inst) : (s.modInst i g).pair = s.pair := rfl
@[simp] theorem modInst_disc (i : BitVec 8) (g : Inst → Inst) : (s.modInst i g).disc = s.disc := rfl
@[simp] theorem modInst_power (i : BitVec 8) (g : Inst → Inst) : (s.modInst i g).power = s.power := rfl
@[simp] theorem modInst_ras (i : BitVec 8) (g : Inst → Inst) : (s.modInst i g).ras = s.ras := rfl
@[simp] theorem modInst_fw (i : BitVec 8) (g : Inst → Inst) : (s.modInst i g).fw = s.fw := rfl
@[simp] theorem modInst_out (i : BitVec 8) (g : Inst → Inst) : (s.modInst i g).out = s.out := rfl
@[simp] theorem modInst_free (i : BitVec 8) (g : Inst → Inst) : (s.modInst i g).free = s.free := rfl

/-! ### emit -/
@[simp] theorem emit_pending (x : Sent) : (s.emit x).pending = s.pending := rfl
@[simp] theorem emit_time (x : Sent) : (s.emit x).time = s.time := rfl
@[simp] theorem emit_glb (x : Sent) : (s.emit x).glb = s.glb := rfl
@[simp] theorem emit_fns (x : Sent) : (s.emit x).fns = s.fns := rfl
@[simp] theorem emit_insts (x : Sent) : (s.emit x).insts = s.insts := rfl
@[simp] theorem emit_rings (x : Sent) : (s.emit x).rings = s.rings := rfl
@[simp] theorem emit_store (x : Sent) : (s.emit x).store = s.store := rfl
@[simp] theorem emit_xlat (x : Sent) : (s.emit x).xlat = s.xlat := rfl
@[simp] theorem emit_queries (x : Sent) : (s.emit x).queries = s.queries := rfl
@[simp] theorem emit_disp (x : Sent) : (s.emit x).disp = s.disp := rfl
@[simp] theorem emit_streams (x : Sent) : (s.emit x).streams = s.streams := rfl
@[simp] theorem emit_ops (x : Sent) : (s.emit x).ops = s.ops := rfl
@[simp] theorem emit_asa (x : Sent) : (s.emit x).asa = s.asa := rfl
@[simp] theorem emit_cores (x : Sent) : (s.emit x).cores = s.cores := rfl
@[simp] theorem emit_jobs (x : Sent) : (s.emit x).jobs = s.jobs := rfl
@[simp] theorem emit_dram (x : Sent) : (s.emit x).dram = s.dram := rfl
@[simp] theorem emit_pair (x : Sent) : (s.emit x).pair = s.pair := rfl
@[simp] theorem emit_disc (x : Sent) : (s.emit x).disc = s.disc := rfl
@[simp] theorem emit_power (x : Sent) : (s.emit x).power = s.power := rfl
@[simp] theorem emit_ras (x : Sent) : (s.emit x).ras = s.ras := rfl
@[simp] theorem emit_fw (x : Sent) : (s.emit x).fw = s.fw := rfl
@[simp] theorem emit_free (x : Sent) : (s.emit x).free = s.free := rfl

/-! ### tick -/
@[simp] theorem tick_pending : (s.tick).pending = s.pending := rfl
@[simp] theorem tick_time : (s.tick).time = s.time := rfl
@[simp] theorem tick_glb : (s.tick).glb = s.glb := rfl
@[simp] theorem tick_fns : (s.tick).fns = s.fns := rfl
@[simp] theorem tick_insts : (s.tick).insts = s.insts := rfl
@[simp] theorem tick_rings : (s.tick).rings = s.rings := rfl
@[simp] theorem tick_store : (s.tick).store = s.store := rfl
@[simp] theorem tick_xlat : (s.tick).xlat = s.xlat := rfl
@[simp] theorem tick_queries : (s.tick).queries = s.queries := rfl
@[simp] theorem tick_disp : (s.tick).disp = s.disp := rfl
@[simp] theorem tick_streams : (s.tick).streams = s.streams := rfl
@[simp] theorem tick_ops : (s.tick).ops = s.ops := rfl
@[simp] theorem tick_asa : (s.tick).asa = s.asa := rfl
@[simp] theorem tick_cores : (s.tick).cores = s.cores := rfl
@[simp] theorem tick_jobs : (s.tick).jobs = s.jobs := rfl
@[simp] theorem tick_dram : (s.tick).dram = s.dram := rfl
@[simp] theorem tick_pair : (s.tick).pair = s.pair := rfl
@[simp] theorem tick_disc : (s.tick).disc = s.disc := rfl
@[simp] theorem tick_power : (s.tick).power = s.power := rfl
@[simp] theorem tick_ras : (s.tick).ras = s.ras := rfl
@[simp] theorem tick_fw : (s.tick).fw = s.fw := rfl
@[simp] theorem tick_out : (s.tick).out = s.out := rfl

/-! ### setSq -/
@[simp] theorem setSq_pending (i : BitVec 8) (q : BitVec 12) (v : Sq) : (s.setSq i q v).pending = s.pending := rfl
@[simp] theorem setSq_time (i : BitVec 8) (q : BitVec 12) (v : Sq) : (s.setSq i q v).time = s.time := rfl
@[simp] theorem setSq_glb (i : BitVec 8) (q : BitVec 12) (v : Sq) : (s.setSq i q v).glb = s.glb := rfl
@[simp] theorem setSq_fns (i : BitVec 8) (q : BitVec 12) (v : Sq) : (s.setSq i q v).fns = s.fns := rfl
@[simp] theorem setSq_insts (i : BitVec 8) (q : BitVec 12) (v : Sq) : (s.setSq i q v).insts = s.insts := rfl
@[simp] theorem setSq_store (i : BitVec 8) (q : BitVec 12) (v : Sq) : (s.setSq i q v).store = s.store := rfl
@[simp] theorem setSq_xlat (i : BitVec 8) (q : BitVec 12) (v : Sq) : (s.setSq i q v).xlat = s.xlat := rfl
@[simp] theorem setSq_queries (i : BitVec 8) (q : BitVec 12) (v : Sq) : (s.setSq i q v).queries = s.queries := rfl
@[simp] theorem setSq_disp (i : BitVec 8) (q : BitVec 12) (v : Sq) : (s.setSq i q v).disp = s.disp := rfl
@[simp] theorem setSq_streams (i : BitVec 8) (q : BitVec 12) (v : Sq) : (s.setSq i q v).streams = s.streams := rfl
@[simp] theorem setSq_ops (i : BitVec 8) (q : BitVec 12) (v : Sq) : (s.setSq i q v).ops = s.ops := rfl
@[simp] theorem setSq_asa (i : BitVec 8) (q : BitVec 12) (v : Sq) : (s.setSq i q v).asa = s.asa := rfl
@[simp] theorem setSq_cores (i : BitVec 8) (q : BitVec 12) (v : Sq) : (s.setSq i q v).cores = s.cores := rfl
@[simp] theorem setSq_jobs (i : BitVec 8) (q : BitVec 12) (v : Sq) : (s.setSq i q v).jobs = s.jobs := rfl
@[simp] theorem setSq_dram (i : BitVec 8) (q : BitVec 12) (v : Sq) : (s.setSq i q v).dram = s.dram := rfl
@[simp] theorem setSq_pair (i : BitVec 8) (q : BitVec 12) (v : Sq) : (s.setSq i q v).pair = s.pair := rfl
@[simp] theorem setSq_disc (i : BitVec 8) (q : BitVec 12) (v : Sq) : (s.setSq i q v).disc = s.disc := rfl
@[simp] theorem setSq_power (i : BitVec 8) (q : BitVec 12) (v : Sq) : (s.setSq i q v).power = s.power := rfl
@[simp] theorem setSq_ras (i : BitVec 8) (q : BitVec 12) (v : Sq) : (s.setSq i q v).ras = s.ras := rfl
@[simp] theorem setSq_fw (i : BitVec 8) (q : BitVec 12) (v : Sq) : (s.setSq i q v).fw = s.fw := rfl
@[simp] theorem setSq_out (i : BitVec 8) (q : BitVec 12) (v : Sq) : (s.setSq i q v).out = s.out := rfl
@[simp] theorem setSq_free (i : BitVec 8) (q : BitVec 12) (v : Sq) : (s.setSq i q v).free = s.free := rfl

/-! ### setCq -/
@[simp] theorem setCq_pending (i : BitVec 8) (q : BitVec 12) (v : Cq) : (s.setCq i q v).pending = s.pending := rfl
@[simp] theorem setCq_time (i : BitVec 8) (q : BitVec 12) (v : Cq) : (s.setCq i q v).time = s.time := rfl
@[simp] theorem setCq_glb (i : BitVec 8) (q : BitVec 12) (v : Cq) : (s.setCq i q v).glb = s.glb := rfl
@[simp] theorem setCq_fns (i : BitVec 8) (q : BitVec 12) (v : Cq) : (s.setCq i q v).fns = s.fns := rfl
@[simp] theorem setCq_insts (i : BitVec 8) (q : BitVec 12) (v : Cq) : (s.setCq i q v).insts = s.insts := rfl
@[simp] theorem setCq_store (i : BitVec 8) (q : BitVec 12) (v : Cq) : (s.setCq i q v).store = s.store := rfl
@[simp] theorem setCq_xlat (i : BitVec 8) (q : BitVec 12) (v : Cq) : (s.setCq i q v).xlat = s.xlat := rfl
@[simp] theorem setCq_queries (i : BitVec 8) (q : BitVec 12) (v : Cq) : (s.setCq i q v).queries = s.queries := rfl
@[simp] theorem setCq_disp (i : BitVec 8) (q : BitVec 12) (v : Cq) : (s.setCq i q v).disp = s.disp := rfl
@[simp] theorem setCq_streams (i : BitVec 8) (q : BitVec 12) (v : Cq) : (s.setCq i q v).streams = s.streams := rfl
@[simp] theorem setCq_ops (i : BitVec 8) (q : BitVec 12) (v : Cq) : (s.setCq i q v).ops = s.ops := rfl
@[simp] theorem setCq_asa (i : BitVec 8) (q : BitVec 12) (v : Cq) : (s.setCq i q v).asa = s.asa := rfl
@[simp] theorem setCq_cores (i : BitVec 8) (q : BitVec 12) (v : Cq) : (s.setCq i q v).cores = s.cores := rfl
@[simp] theorem setCq_jobs (i : BitVec 8) (q : BitVec 12) (v : Cq) : (s.setCq i q v).jobs = s.jobs := rfl
@[simp] theorem setCq_dram (i : BitVec 8) (q : BitVec 12) (v : Cq) : (s.setCq i q v).dram = s.dram := rfl
@[simp] theorem setCq_pair (i : BitVec 8) (q : BitVec 12) (v : Cq) : (s.setCq i q v).pair = s.pair := rfl
@[simp] theorem setCq_disc (i : BitVec 8) (q : BitVec 12) (v : Cq) : (s.setCq i q v).disc = s.disc := rfl
@[simp] theorem setCq_power (i : BitVec 8) (q : BitVec 12) (v : Cq) : (s.setCq i q v).power = s.power := rfl
@[simp] theorem setCq_ras (i : BitVec 8) (q : BitVec 12) (v : Cq) : (s.setCq i q v).ras = s.ras := rfl
@[simp] theorem setCq_fw (i : BitVec 8) (q : BitVec 12) (v : Cq) : (s.setCq i q v).fw = s.fw := rfl
@[simp] theorem setCq_out (i : BitVec 8) (q : BitVec 12) (v : Cq) : (s.setCq i q v).out = s.out := rfl
@[simp] theorem setCq_free (i : BitVec 8) (q : BitVec 12) (v : Cq) : (s.setCq i q v).free = s.free := rfl

/-! ### dropSq -/
@[simp] theorem dropSq_pending (i : BitVec 8) (q : BitVec 12) : (s.dropSq i q).pending = s.pending := rfl
@[simp] theorem dropSq_time (i : BitVec 8) (q : BitVec 12) : (s.dropSq i q).time = s.time := rfl
@[simp] theorem dropSq_glb (i : BitVec 8) (q : BitVec 12) : (s.dropSq i q).glb = s.glb := rfl
@[simp] theorem dropSq_fns (i : BitVec 8) (q : BitVec 12) : (s.dropSq i q).fns = s.fns := rfl
@[simp] theorem dropSq_insts (i : BitVec 8) (q : BitVec 12) : (s.dropSq i q).insts = s.insts := rfl
@[simp] theorem dropSq_store (i : BitVec 8) (q : BitVec 12) : (s.dropSq i q).store = s.store := rfl
@[simp] theorem dropSq_xlat (i : BitVec 8) (q : BitVec 12) : (s.dropSq i q).xlat = s.xlat := rfl
@[simp] theorem dropSq_queries (i : BitVec 8) (q : BitVec 12) : (s.dropSq i q).queries = s.queries := rfl
@[simp] theorem dropSq_disp (i : BitVec 8) (q : BitVec 12) : (s.dropSq i q).disp = s.disp := rfl
@[simp] theorem dropSq_streams (i : BitVec 8) (q : BitVec 12) : (s.dropSq i q).streams = s.streams := rfl
@[simp] theorem dropSq_ops (i : BitVec 8) (q : BitVec 12) : (s.dropSq i q).ops = s.ops := rfl
@[simp] theorem dropSq_asa (i : BitVec 8) (q : BitVec 12) : (s.dropSq i q).asa = s.asa := rfl
@[simp] theorem dropSq_cores (i : BitVec 8) (q : BitVec 12) : (s.dropSq i q).cores = s.cores := rfl
@[simp] theorem dropSq_jobs (i : BitVec 8) (q : BitVec 12) : (s.dropSq i q).jobs = s.jobs := rfl
@[simp] theorem dropSq_dram (i : BitVec 8) (q : BitVec 12) : (s.dropSq i q).dram = s.dram := rfl
@[simp] theorem dropSq_pair (i : BitVec 8) (q : BitVec 12) : (s.dropSq i q).pair = s.pair := rfl
@[simp] theorem dropSq_disc (i : BitVec 8) (q : BitVec 12) : (s.dropSq i q).disc = s.disc := rfl
@[simp] theorem dropSq_power (i : BitVec 8) (q : BitVec 12) : (s.dropSq i q).power = s.power := rfl
@[simp] theorem dropSq_ras (i : BitVec 8) (q : BitVec 12) : (s.dropSq i q).ras = s.ras := rfl
@[simp] theorem dropSq_fw (i : BitVec 8) (q : BitVec 12) : (s.dropSq i q).fw = s.fw := rfl
@[simp] theorem dropSq_out (i : BitVec 8) (q : BitVec 12) : (s.dropSq i q).out = s.out := rfl
@[simp] theorem dropSq_free (i : BitVec 8) (q : BitVec 12) : (s.dropSq i q).free = s.free := rfl

/-! ### dropCq -/
@[simp] theorem dropCq_pending (i : BitVec 8) (q : BitVec 12) : (s.dropCq i q).pending = s.pending := rfl
@[simp] theorem dropCq_time (i : BitVec 8) (q : BitVec 12) : (s.dropCq i q).time = s.time := rfl
@[simp] theorem dropCq_glb (i : BitVec 8) (q : BitVec 12) : (s.dropCq i q).glb = s.glb := rfl
@[simp] theorem dropCq_fns (i : BitVec 8) (q : BitVec 12) : (s.dropCq i q).fns = s.fns := rfl
@[simp] theorem dropCq_insts (i : BitVec 8) (q : BitVec 12) : (s.dropCq i q).insts = s.insts := rfl
@[simp] theorem dropCq_store (i : BitVec 8) (q : BitVec 12) : (s.dropCq i q).store = s.store := rfl
@[simp] theorem dropCq_xlat (i : BitVec 8) (q : BitVec 12) : (s.dropCq i q).xlat = s.xlat := rfl
@[simp] theorem dropCq_queries (i : BitVec 8) (q : BitVec 12) : (s.dropCq i q).queries = s.queries := rfl
@[simp] theorem dropCq_disp (i : BitVec 8) (q : BitVec 12) : (s.dropCq i q).disp = s.disp := rfl
@[simp] theorem dropCq_streams (i : BitVec 8) (q : BitVec 12) : (s.dropCq i q).streams = s.streams := rfl
@[simp] theorem dropCq_ops (i : BitVec 8) (q : BitVec 12) : (s.dropCq i q).ops = s.ops := rfl
@[simp] theorem dropCq_asa (i : BitVec 8) (q : BitVec 12) : (s.dropCq i q).asa = s.asa := rfl
@[simp] theorem dropCq_cores (i : BitVec 8) (q : BitVec 12) : (s.dropCq i q).cores = s.cores := rfl
@[simp] theorem dropCq_jobs (i : BitVec 8) (q : BitVec 12) : (s.dropCq i q).jobs = s.jobs := rfl
@[simp] theorem dropCq_dram (i : BitVec 8) (q : BitVec 12) : (s.dropCq i q).dram = s.dram := rfl
@[simp] theorem dropCq_pair (i : BitVec 8) (q : BitVec 12) : (s.dropCq i q).pair = s.pair := rfl
@[simp] theorem dropCq_disc (i : BitVec 8) (q : BitVec 12) : (s.dropCq i q).disc = s.disc := rfl
@[simp] theorem dropCq_power (i : BitVec 8) (q : BitVec 12) : (s.dropCq i q).power = s.power := rfl
@[simp] theorem dropCq_ras (i : BitVec 8) (q : BitVec 12) : (s.dropCq i q).ras = s.ras := rfl
@[simp] theorem dropCq_fw (i : BitVec 8) (q : BitVec 12) : (s.dropCq i q).fw = s.fw := rfl
@[simp] theorem dropCq_out (i : BitVec 8) (q : BitVec 12) : (s.dropCq i q).out = s.out := rfl
@[simp] theorem dropCq_free (i : BitVec 8) (q : BitVec 12) : (s.dropCq i q).free = s.free := rfl

/-! ### modCmd -/
@[simp] theorem modCmd_pending (t : Tag) (g : Cmd → Cmd) : (s.modCmd t g).pending = s.pending := rfl
@[simp] theorem modCmd_time (t : Tag) (g : Cmd → Cmd) : (s.modCmd t g).time = s.time := rfl
@[simp] theorem modCmd_glb (t : Tag) (g : Cmd → Cmd) : (s.modCmd t g).glb = s.glb := rfl
@[simp] theorem modCmd_fns (t : Tag) (g : Cmd → Cmd) : (s.modCmd t g).fns = s.fns := rfl
@[simp] theorem modCmd_insts (t : Tag) (g : Cmd → Cmd) : (s.modCmd t g).insts = s.insts := rfl
@[simp] theorem modCmd_store (t : Tag) (g : Cmd → Cmd) : (s.modCmd t g).store = s.store := rfl
@[simp] theorem modCmd_xlat (t : Tag) (g : Cmd → Cmd) : (s.modCmd t g).xlat = s.xlat := rfl
@[simp] theorem modCmd_queries (t : Tag) (g : Cmd → Cmd) : (s.modCmd t g).queries = s.queries := rfl
@[simp] theorem modCmd_disp (t : Tag) (g : Cmd → Cmd) : (s.modCmd t g).disp = s.disp := rfl
@[simp] theorem modCmd_streams (t : Tag) (g : Cmd → Cmd) : (s.modCmd t g).streams = s.streams := rfl
@[simp] theorem modCmd_ops (t : Tag) (g : Cmd → Cmd) : (s.modCmd t g).ops = s.ops := rfl
@[simp] theorem modCmd_asa (t : Tag) (g : Cmd → Cmd) : (s.modCmd t g).asa = s.asa := rfl
@[simp] theorem modCmd_cores (t : Tag) (g : Cmd → Cmd) : (s.modCmd t g).cores = s.cores := rfl
@[simp] theorem modCmd_jobs (t : Tag) (g : Cmd → Cmd) : (s.modCmd t g).jobs = s.jobs := rfl
@[simp] theorem modCmd_dram (t : Tag) (g : Cmd → Cmd) : (s.modCmd t g).dram = s.dram := rfl
@[simp] theorem modCmd_pair (t : Tag) (g : Cmd → Cmd) : (s.modCmd t g).pair = s.pair := rfl
@[simp] theorem modCmd_disc (t : Tag) (g : Cmd → Cmd) : (s.modCmd t g).disc = s.disc := rfl
@[simp] theorem modCmd_power (t : Tag) (g : Cmd → Cmd) : (s.modCmd t g).power = s.power := rfl
@[simp] theorem modCmd_ras (t : Tag) (g : Cmd → Cmd) : (s.modCmd t g).ras = s.ras := rfl
@[simp] theorem modCmd_fw (t : Tag) (g : Cmd → Cmd) : (s.modCmd t g).fw = s.fw := rfl
@[simp] theorem modCmd_out (t : Tag) (g : Cmd → Cmd) : (s.modCmd t g).out = s.out := rfl
@[simp] theorem modCmd_free (t : Tag) (g : Cmd → Cmd) : (s.modCmd t g).free = s.free := rfl

/-! ### dropCmds -/
@[simp] theorem dropCmds_pending (f : Cmd → Bool) : (s.dropCmds f).pending = s.pending := rfl
@[simp] theorem dropCmds_time (f : Cmd → Bool) : (s.dropCmds f).time = s.time := rfl
@[simp] theorem dropCmds_glb (f : Cmd → Bool) : (s.dropCmds f).glb = s.glb := rfl
@[simp] theorem dropCmds_fns (f : Cmd → Bool) : (s.dropCmds f).fns = s.fns := rfl
@[simp] theorem dropCmds_insts (f : Cmd → Bool) : (s.dropCmds f).insts = s.insts := rfl
@[simp] theorem dropCmds_store (f : Cmd → Bool) : (s.dropCmds f).store = s.store := rfl
@[simp] theorem dropCmds_xlat (f : Cmd → Bool) : (s.dropCmds f).xlat = s.xlat := rfl
@[simp] theorem dropCmds_queries (f : Cmd → Bool) : (s.dropCmds f).queries = s.queries := rfl
@[simp] theorem dropCmds_disp (f : Cmd → Bool) : (s.dropCmds f).disp = s.disp := rfl
@[simp] theorem dropCmds_streams (f : Cmd → Bool) : (s.dropCmds f).streams = s.streams := rfl
@[simp] theorem dropCmds_ops (f : Cmd → Bool) : (s.dropCmds f).ops = s.ops := rfl
@[simp] theorem dropCmds_asa (f : Cmd → Bool) : (s.dropCmds f).asa = s.asa := rfl
@[simp] theorem dropCmds_cores (f : Cmd → Bool) : (s.dropCmds f).cores = s.cores := rfl
@[simp] theorem dropCmds_jobs (f : Cmd → Bool) : (s.dropCmds f).jobs = s.jobs := rfl
@[simp] theorem dropCmds_dram (f : Cmd → Bool) : (s.dropCmds f).dram = s.dram := rfl
@[simp] theorem dropCmds_pair (f : Cmd → Bool) : (s.dropCmds f).pair = s.pair := rfl
@[simp] theorem dropCmds_disc (f : Cmd → Bool) : (s.dropCmds f).disc = s.disc := rfl
@[simp] theorem dropCmds_power (f : Cmd → Bool) : (s.dropCmds f).power = s.power := rfl
@[simp] theorem dropCmds_ras (f : Cmd → Bool) : (s.dropCmds f).ras = s.ras := rfl
@[simp] theorem dropCmds_fw (f : Cmd → Bool) : (s.dropCmds f).fw = s.fw := rfl
@[simp] theorem dropCmds_out (f : Cmd → Bool) : (s.dropCmds f).out = s.out := rfl
@[simp] theorem dropCmds_free (f : Cmd → Bool) : (s.dropCmds f).free = s.free := rfl

/-! ### modQuery -/
@[simp] theorem modQuery_pending (t : Tag) (g : Query → Query) : (s.modQuery t g).pending = s.pending := rfl
@[simp] theorem modQuery_time (t : Tag) (g : Query → Query) : (s.modQuery t g).time = s.time := rfl
@[simp] theorem modQuery_glb (t : Tag) (g : Query → Query) : (s.modQuery t g).glb = s.glb := rfl
@[simp] theorem modQuery_fns (t : Tag) (g : Query → Query) : (s.modQuery t g).fns = s.fns := rfl
@[simp] theorem modQuery_insts (t : Tag) (g : Query → Query) : (s.modQuery t g).insts = s.insts := rfl
@[simp] theorem modQuery_rings (t : Tag) (g : Query → Query) : (s.modQuery t g).rings = s.rings := rfl
@[simp] theorem modQuery_store (t : Tag) (g : Query → Query) : (s.modQuery t g).store = s.store := rfl
@[simp] theorem modQuery_xlat (t : Tag) (g : Query → Query) : (s.modQuery t g).xlat = s.xlat := rfl
@[simp] theorem modQuery_disp (t : Tag) (g : Query → Query) : (s.modQuery t g).disp = s.disp := rfl
@[simp] theorem modQuery_streams (t : Tag) (g : Query → Query) : (s.modQuery t g).streams = s.streams := rfl
@[simp] theorem modQuery_ops (t : Tag) (g : Query → Query) : (s.modQuery t g).ops = s.ops := rfl
@[simp] theorem modQuery_asa (t : Tag) (g : Query → Query) : (s.modQuery t g).asa = s.asa := rfl
@[simp] theorem modQuery_cores (t : Tag) (g : Query → Query) : (s.modQuery t g).cores = s.cores := rfl
@[simp] theorem modQuery_jobs (t : Tag) (g : Query → Query) : (s.modQuery t g).jobs = s.jobs := rfl
@[simp] theorem modQuery_dram (t : Tag) (g : Query → Query) : (s.modQuery t g).dram = s.dram := rfl
@[simp] theorem modQuery_pair (t : Tag) (g : Query → Query) : (s.modQuery t g).pair = s.pair := rfl
@[simp] theorem modQuery_disc (t : Tag) (g : Query → Query) : (s.modQuery t g).disc = s.disc := rfl
@[simp] theorem modQuery_power (t : Tag) (g : Query → Query) : (s.modQuery t g).power = s.power := rfl
@[simp] theorem modQuery_ras (t : Tag) (g : Query → Query) : (s.modQuery t g).ras = s.ras := rfl
@[simp] theorem modQuery_fw (t : Tag) (g : Query → Query) : (s.modQuery t g).fw = s.fw := rfl
@[simp] theorem modQuery_out (t : Tag) (g : Query → Query) : (s.modQuery t g).out = s.out := rfl
@[simp] theorem modQuery_free (t : Tag) (g : Query → Query) : (s.modQuery t g).free = s.free := rfl

/-! ### setStream -/
@[simp] theorem setStream_pending (r : StreamRef) (v : Stream) : (s.setStream r v).pending = s.pending := rfl
@[simp] theorem setStream_time (r : StreamRef) (v : Stream) : (s.setStream r v).time = s.time := rfl
@[simp] theorem setStream_glb (r : StreamRef) (v : Stream) : (s.setStream r v).glb = s.glb := rfl
@[simp] theorem setStream_fns (r : StreamRef) (v : Stream) : (s.setStream r v).fns = s.fns := rfl
@[simp] theorem setStream_insts (r : StreamRef) (v : Stream) : (s.setStream r v).insts = s.insts := rfl
@[simp] theorem setStream_rings (r : StreamRef) (v : Stream) : (s.setStream r v).rings = s.rings := rfl
@[simp] theorem setStream_store (r : StreamRef) (v : Stream) : (s.setStream r v).store = s.store := rfl
@[simp] theorem setStream_xlat (r : StreamRef) (v : Stream) : (s.setStream r v).xlat = s.xlat := rfl
@[simp] theorem setStream_queries (r : StreamRef) (v : Stream) : (s.setStream r v).queries = s.queries := rfl
@[simp] theorem setStream_disp (r : StreamRef) (v : Stream) : (s.setStream r v).disp = s.disp := rfl
@[simp] theorem setStream_ops (r : StreamRef) (v : Stream) : (s.setStream r v).ops = s.ops := rfl
@[simp] theorem setStream_asa (r : StreamRef) (v : Stream) : (s.setStream r v).asa = s.asa := rfl
@[simp] theorem setStream_cores (r : StreamRef) (v : Stream) : (s.setStream r v).cores = s.cores := rfl
@[simp] theorem setStream_jobs (r : StreamRef) (v : Stream) : (s.setStream r v).jobs = s.jobs := rfl
@[simp] theorem setStream_dram (r : StreamRef) (v : Stream) : (s.setStream r v).dram = s.dram := rfl
@[simp] theorem setStream_pair (r : StreamRef) (v : Stream) : (s.setStream r v).pair = s.pair := rfl
@[simp] theorem setStream_disc (r : StreamRef) (v : Stream) : (s.setStream r v).disc = s.disc := rfl
@[simp] theorem setStream_power (r : StreamRef) (v : Stream) : (s.setStream r v).power = s.power := rfl
@[simp] theorem setStream_ras (r : StreamRef) (v : Stream) : (s.setStream r v).ras = s.ras := rfl
@[simp] theorem setStream_fw (r : StreamRef) (v : Stream) : (s.setStream r v).fw = s.fw := rfl
@[simp] theorem setStream_out (r : StreamRef) (v : Stream) : (s.setStream r v).out = s.out := rfl
@[simp] theorem setStream_free (r : StreamRef) (v : Stream) : (s.setStream r v).free = s.free := rfl

/-! ### modItem -/
@[simp] theorem modItem_pending (n : Nat) (g : Item → Item) : (s.modItem n g).pending = s.pending := rfl
@[simp] theorem modItem_time (n : Nat) (g : Item → Item) : (s.modItem n g).time = s.time := rfl
@[simp] theorem modItem_glb (n : Nat) (g : Item → Item) : (s.modItem n g).glb = s.glb := rfl
@[simp] theorem modItem_fns (n : Nat) (g : Item → Item) : (s.modItem n g).fns = s.fns := rfl
@[simp] theorem modItem_insts (n : Nat) (g : Item → Item) : (s.modItem n g).insts = s.insts := rfl
@[simp] theorem modItem_rings (n : Nat) (g : Item → Item) : (s.modItem n g).rings = s.rings := rfl
@[simp] theorem modItem_store (n : Nat) (g : Item → Item) : (s.modItem n g).store = s.store := rfl
@[simp] theorem modItem_xlat (n : Nat) (g : Item → Item) : (s.modItem n g).xlat = s.xlat := rfl
@[simp] theorem modItem_queries (n : Nat) (g : Item → Item) : (s.modItem n g).queries = s.queries := rfl
@[simp] theorem modItem_streams (n : Nat) (g : Item → Item) : (s.modItem n g).streams = s.streams := rfl
@[simp] theorem modItem_ops (n : Nat) (g : Item → Item) : (s.modItem n g).ops = s.ops := rfl
@[simp] theorem modItem_asa (n : Nat) (g : Item → Item) : (s.modItem n g).asa = s.asa := rfl
@[simp] theorem modItem_cores (n : Nat) (g : Item → Item) : (s.modItem n g).cores = s.cores := rfl
@[simp] theorem modItem_jobs (n : Nat) (g : Item → Item) : (s.modItem n g).jobs = s.jobs := rfl
@[simp] theorem modItem_dram (n : Nat) (g : Item → Item) : (s.modItem n g).dram = s.dram := rfl
@[simp] theorem modItem_pair (n : Nat) (g : Item → Item) : (s.modItem n g).pair = s.pair := rfl
@[simp] theorem modItem_disc (n : Nat) (g : Item → Item) : (s.modItem n g).disc = s.disc := rfl
@[simp] theorem modItem_power (n : Nat) (g : Item → Item) : (s.modItem n g).power = s.power := rfl
@[simp] theorem modItem_ras (n : Nat) (g : Item → Item) : (s.modItem n g).ras = s.ras := rfl
@[simp] theorem modItem_fw (n : Nat) (g : Item → Item) : (s.modItem n g).fw = s.fw := rfl
@[simp] theorem modItem_out (n : Nat) (g : Item → Item) : (s.modItem n g).out = s.out := rfl
@[simp] theorem modItem_free (n : Nat) (g : Item → Item) : (s.modItem n g).free = s.free := rfl

/-! ### setOp -/
@[simp] theorem setOp_pending (t : Tag) (o : BitVec 16) (v : OpCtx) : (s.setOp t o v).pending = s.pending := rfl
@[simp] theorem setOp_time (t : Tag) (o : BitVec 16) (v : OpCtx) : (s.setOp t o v).time = s.time := rfl
@[simp] theorem setOp_glb (t : Tag) (o : BitVec 16) (v : OpCtx) : (s.setOp t o v).glb = s.glb := rfl
@[simp] theorem setOp_fns (t : Tag) (o : BitVec 16) (v : OpCtx) : (s.setOp t o v).fns = s.fns := rfl
@[simp] theorem setOp_insts (t : Tag) (o : BitVec 16) (v : OpCtx) : (s.setOp t o v).insts = s.insts := rfl
@[simp] theorem setOp_rings (t : Tag) (o : BitVec 16) (v : OpCtx) : (s.setOp t o v).rings = s.rings := rfl
@[simp] theorem setOp_store (t : Tag) (o : BitVec 16) (v : OpCtx) : (s.setOp t o v).store = s.store := rfl
@[simp] theorem setOp_xlat (t : Tag) (o : BitVec 16) (v : OpCtx) : (s.setOp t o v).xlat = s.xlat := rfl
@[simp] theorem setOp_queries (t : Tag) (o : BitVec 16) (v : OpCtx) : (s.setOp t o v).queries = s.queries := rfl
@[simp] theorem setOp_disp (t : Tag) (o : BitVec 16) (v : OpCtx) : (s.setOp t o v).disp = s.disp := rfl
@[simp] theorem setOp_streams (t : Tag) (o : BitVec 16) (v : OpCtx) : (s.setOp t o v).streams = s.streams := rfl
@[simp] theorem setOp_asa (t : Tag) (o : BitVec 16) (v : OpCtx) : (s.setOp t o v).asa = s.asa := rfl
@[simp] theorem setOp_cores (t : Tag) (o : BitVec 16) (v : OpCtx) : (s.setOp t o v).cores = s.cores := rfl
@[simp] theorem setOp_jobs (t : Tag) (o : BitVec 16) (v : OpCtx) : (s.setOp t o v).jobs = s.jobs := rfl
@[simp] theorem setOp_dram (t : Tag) (o : BitVec 16) (v : OpCtx) : (s.setOp t o v).dram = s.dram := rfl
@[simp] theorem setOp_pair (t : Tag) (o : BitVec 16) (v : OpCtx) : (s.setOp t o v).pair = s.pair := rfl
@[simp] theorem setOp_disc (t : Tag) (o : BitVec 16) (v : OpCtx) : (s.setOp t o v).disc = s.disc := rfl
@[simp] theorem setOp_power (t : Tag) (o : BitVec 16) (v : OpCtx) : (s.setOp t o v).power = s.power := rfl
@[simp] theorem setOp_ras (t : Tag) (o : BitVec 16) (v : OpCtx) : (s.setOp t o v).ras = s.ras := rfl
@[simp] theorem setOp_fw (t : Tag) (o : BitVec 16) (v : OpCtx) : (s.setOp t o v).fw = s.fw := rfl
@[simp] theorem setOp_out (t : Tag) (o : BitVec 16) (v : OpCtx) : (s.setOp t o v).out = s.out := rfl
@[simp] theorem setOp_free (t : Tag) (o : BitVec 16) (v : OpCtx) : (s.setOp t o v).free = s.free := rfl

/-! ### setChan -/
@[simp] theorem setChan_pending (n : BitVec 4) (v : Chan) : (s.setChan n v).pending = s.pending := rfl
@[simp] theorem setChan_time (n : BitVec 4) (v : Chan) : (s.setChan n v).time = s.time := rfl
@[simp] theorem setChan_glb (n : BitVec 4) (v : Chan) : (s.setChan n v).glb = s.glb := rfl
@[simp] theorem setChan_fns (n : BitVec 4) (v : Chan) : (s.setChan n v).fns = s.fns := rfl
@[simp] theorem setChan_insts (n : BitVec 4) (v : Chan) : (s.setChan n v).insts = s.insts := rfl
@[simp] theorem setChan_rings (n : BitVec 4) (v : Chan) : (s.setChan n v).rings = s.rings := rfl
@[simp] theorem setChan_store (n : BitVec 4) (v : Chan) : (s.setChan n v).store = s.store := rfl
@[simp] theorem setChan_xlat (n : BitVec 4) (v : Chan) : (s.setChan n v).xlat = s.xlat := rfl
@[simp] theorem setChan_queries (n : BitVec 4) (v : Chan) : (s.setChan n v).queries = s.queries := rfl
@[simp] theorem setChan_disp (n : BitVec 4) (v : Chan) : (s.setChan n v).disp = s.disp := rfl
@[simp] theorem setChan_streams (n : BitVec 4) (v : Chan) : (s.setChan n v).streams = s.streams := rfl
@[simp] theorem setChan_ops (n : BitVec 4) (v : Chan) : (s.setChan n v).ops = s.ops := rfl
@[simp] theorem setChan_asa (n : BitVec 4) (v : Chan) : (s.setChan n v).asa = s.asa := rfl
@[simp] theorem setChan_cores (n : BitVec 4) (v : Chan) : (s.setChan n v).cores = s.cores := rfl
@[simp] theorem setChan_jobs (n : BitVec 4) (v : Chan) : (s.setChan n v).jobs = s.jobs := rfl
@[simp] theorem setChan_pair (n : BitVec 4) (v : Chan) : (s.setChan n v).pair = s.pair := rfl
@[simp] theorem setChan_disc (n : BitVec 4) (v : Chan) : (s.setChan n v).disc = s.disc := rfl
@[simp] theorem setChan_power (n : BitVec 4) (v : Chan) : (s.setChan n v).power = s.power := rfl
@[simp] theorem setChan_ras (n : BitVec 4) (v : Chan) : (s.setChan n v).ras = s.ras := rfl
@[simp] theorem setChan_fw (n : BitVec 4) (v : Chan) : (s.setChan n v).fw = s.fw := rfl
@[simp] theorem setChan_out (n : BitVec 4) (v : Chan) : (s.setChan n v).out = s.out := rfl
@[simp] theorem setChan_free (n : BitVec 4) (v : Chan) : (s.setChan n v).free = s.free := rfl

/-! ### setPod -/
@[simp] theorem setPod_pending (p : BitVec 4) (v : Pod) : (s.setPod p v).pending = s.pending := rfl
@[simp] theorem setPod_time (p : BitVec 4) (v : Pod) : (s.setPod p v).time = s.time := rfl
@[simp] theorem setPod_glb (p : BitVec 4) (v : Pod) : (s.setPod p v).glb = s.glb := rfl
@[simp] theorem setPod_fns (p : BitVec 4) (v : Pod) : (s.setPod p v).fns = s.fns := rfl
@[simp] theorem setPod_insts (p : BitVec 4) (v : Pod) : (s.setPod p v).insts = s.insts := rfl
@[simp] theorem setPod_rings (p : BitVec 4) (v : Pod) : (s.setPod p v).rings = s.rings := rfl
@[simp] theorem setPod_store (p : BitVec 4) (v : Pod) : (s.setPod p v).store = s.store := rfl
@[simp] theorem setPod_xlat (p : BitVec 4) (v : Pod) : (s.setPod p v).xlat = s.xlat := rfl
@[simp] theorem setPod_queries (p : BitVec 4) (v : Pod) : (s.setPod p v).queries = s.queries := rfl
@[simp] theorem setPod_disp (p : BitVec 4) (v : Pod) : (s.setPod p v).disp = s.disp := rfl
@[simp] theorem setPod_streams (p : BitVec 4) (v : Pod) : (s.setPod p v).streams = s.streams := rfl
@[simp] theorem setPod_ops (p : BitVec 4) (v : Pod) : (s.setPod p v).ops = s.ops := rfl
@[simp] theorem setPod_cores (p : BitVec 4) (v : Pod) : (s.setPod p v).cores = s.cores := rfl
@[simp] theorem setPod_jobs (p : BitVec 4) (v : Pod) : (s.setPod p v).jobs = s.jobs := rfl
@[simp] theorem setPod_dram (p : BitVec 4) (v : Pod) : (s.setPod p v).dram = s.dram := rfl
@[simp] theorem setPod_pair (p : BitVec 4) (v : Pod) : (s.setPod p v).pair = s.pair := rfl
@[simp] theorem setPod_disc (p : BitVec 4) (v : Pod) : (s.setPod p v).disc = s.disc := rfl
@[simp] theorem setPod_power (p : BitVec 4) (v : Pod) : (s.setPod p v).power = s.power := rfl
@[simp] theorem setPod_ras (p : BitVec 4) (v : Pod) : (s.setPod p v).ras = s.ras := rfl
@[simp] theorem setPod_fw (p : BitVec 4) (v : Pod) : (s.setPod p v).fw = s.fw := rfl
@[simp] theorem setPod_out (p : BitVec 4) (v : Pod) : (s.setPod p v).out = s.out := rfl
@[simp] theorem setPod_free (p : BitVec 4) (v : Pod) : (s.setPod p v).free = s.free := rfl

/-! ### setLink -/
@[simp] theorem setLink_pending (p : BitVec 2) (v : Link) : (s.setLink p v).pending = s.pending := rfl
@[simp] theorem setLink_time (p : BitVec 2) (v : Link) : (s.setLink p v).time = s.time := rfl
@[simp] theorem setLink_glb (p : BitVec 2) (v : Link) : (s.setLink p v).glb = s.glb := rfl
@[simp] theorem setLink_fns (p : BitVec 2) (v : Link) : (s.setLink p v).fns = s.fns := rfl
@[simp] theorem setLink_insts (p : BitVec 2) (v : Link) : (s.setLink p v).insts = s.insts := rfl
@[simp] theorem setLink_rings (p : BitVec 2) (v : Link) : (s.setLink p v).rings = s.rings := rfl
@[simp] theorem setLink_store (p : BitVec 2) (v : Link) : (s.setLink p v).store = s.store := rfl
@[simp] theorem setLink_xlat (p : BitVec 2) (v : Link) : (s.setLink p v).xlat = s.xlat := rfl
@[simp] theorem setLink_queries (p : BitVec 2) (v : Link) : (s.setLink p v).queries = s.queries := rfl
@[simp] theorem setLink_disp (p : BitVec 2) (v : Link) : (s.setLink p v).disp = s.disp := rfl
@[simp] theorem setLink_streams (p : BitVec 2) (v : Link) : (s.setLink p v).streams = s.streams := rfl
@[simp] theorem setLink_ops (p : BitVec 2) (v : Link) : (s.setLink p v).ops = s.ops := rfl
@[simp] theorem setLink_asa (p : BitVec 2) (v : Link) : (s.setLink p v).asa = s.asa := rfl
@[simp] theorem setLink_cores (p : BitVec 2) (v : Link) : (s.setLink p v).cores = s.cores := rfl
@[simp] theorem setLink_jobs (p : BitVec 2) (v : Link) : (s.setLink p v).jobs = s.jobs := rfl
@[simp] theorem setLink_dram (p : BitVec 2) (v : Link) : (s.setLink p v).dram = s.dram := rfl
@[simp] theorem setLink_disc (p : BitVec 2) (v : Link) : (s.setLink p v).disc = s.disc := rfl
@[simp] theorem setLink_power (p : BitVec 2) (v : Link) : (s.setLink p v).power = s.power := rfl
@[simp] theorem setLink_ras (p : BitVec 2) (v : Link) : (s.setLink p v).ras = s.ras := rfl
@[simp] theorem setLink_fw (p : BitVec 2) (v : Link) : (s.setLink p v).fw = s.fw := rfl
@[simp] theorem setLink_out (p : BitVec 2) (v : Link) : (s.setLink p v).out = s.out := rfl
@[simp] theorem setLink_free (p : BitVec 2) (v : Link) : (s.setLink p v).free = s.free := rfl

/-! ### setRunner -/
@[simp] theorem setRunner_pending (r : Runner) (v : RunnerState) : (s.setRunner r v).pending = s.pending := rfl
@[simp] theorem setRunner_time (r : Runner) (v : RunnerState) : (s.setRunner r v).time = s.time := rfl
@[simp] theorem setRunner_glb (r : Runner) (v : RunnerState) : (s.setRunner r v).glb = s.glb := rfl
@[simp] theorem setRunner_fns (r : Runner) (v : RunnerState) : (s.setRunner r v).fns = s.fns := rfl
@[simp] theorem setRunner_insts (r : Runner) (v : RunnerState) : (s.setRunner r v).insts = s.insts := rfl
@[simp] theorem setRunner_rings (r : Runner) (v : RunnerState) : (s.setRunner r v).rings = s.rings := rfl
@[simp] theorem setRunner_store (r : Runner) (v : RunnerState) : (s.setRunner r v).store = s.store := rfl
@[simp] theorem setRunner_xlat (r : Runner) (v : RunnerState) : (s.setRunner r v).xlat = s.xlat := rfl
@[simp] theorem setRunner_queries (r : Runner) (v : RunnerState) : (s.setRunner r v).queries = s.queries := rfl
@[simp] theorem setRunner_streams (r : Runner) (v : RunnerState) : (s.setRunner r v).streams = s.streams := rfl
@[simp] theorem setRunner_ops (r : Runner) (v : RunnerState) : (s.setRunner r v).ops = s.ops := rfl
@[simp] theorem setRunner_asa (r : Runner) (v : RunnerState) : (s.setRunner r v).asa = s.asa := rfl
@[simp] theorem setRunner_cores (r : Runner) (v : RunnerState) : (s.setRunner r v).cores = s.cores := rfl
@[simp] theorem setRunner_jobs (r : Runner) (v : RunnerState) : (s.setRunner r v).jobs = s.jobs := rfl
@[simp] theorem setRunner_dram (r : Runner) (v : RunnerState) : (s.setRunner r v).dram = s.dram := rfl
@[simp] theorem setRunner_pair (r : Runner) (v : RunnerState) : (s.setRunner r v).pair = s.pair := rfl
@[simp] theorem setRunner_disc (r : Runner) (v : RunnerState) : (s.setRunner r v).disc = s.disc := rfl
@[simp] theorem setRunner_power (r : Runner) (v : RunnerState) : (s.setRunner r v).power = s.power := rfl
@[simp] theorem setRunner_ras (r : Runner) (v : RunnerState) : (s.setRunner r v).ras = s.ras := rfl
@[simp] theorem setRunner_fw (r : Runner) (v : RunnerState) : (s.setRunner r v).fw = s.fw := rfl
@[simp] theorem setRunner_out (r : Runner) (v : RunnerState) : (s.setRunner r v).out = s.out := rfl
@[simp] theorem setRunner_free (r : Runner) (v : RunnerState) : (s.setRunner r v).free = s.free := rfl

/-! ### setCore -/
@[simp] theorem setCore_pending (k : CoreId) (v : Core) : (s.setCore k v).pending = s.pending := rfl
@[simp] theorem setCore_time (k : CoreId) (v : Core) : (s.setCore k v).time = s.time := rfl
@[simp] theorem setCore_glb (k : CoreId) (v : Core) : (s.setCore k v).glb = s.glb := rfl
@[simp] theorem setCore_fns (k : CoreId) (v : Core) : (s.setCore k v).fns = s.fns := rfl
@[simp] theorem setCore_insts (k : CoreId) (v : Core) : (s.setCore k v).insts = s.insts := rfl
@[simp] theorem setCore_rings (k : CoreId) (v : Core) : (s.setCore k v).rings = s.rings := rfl
@[simp] theorem setCore_store (k : CoreId) (v : Core) : (s.setCore k v).store = s.store := rfl
@[simp] theorem setCore_xlat (k : CoreId) (v : Core) : (s.setCore k v).xlat = s.xlat := rfl
@[simp] theorem setCore_queries (k : CoreId) (v : Core) : (s.setCore k v).queries = s.queries := rfl
@[simp] theorem setCore_disp (k : CoreId) (v : Core) : (s.setCore k v).disp = s.disp := rfl
@[simp] theorem setCore_streams (k : CoreId) (v : Core) : (s.setCore k v).streams = s.streams := rfl
@[simp] theorem setCore_ops (k : CoreId) (v : Core) : (s.setCore k v).ops = s.ops := rfl
@[simp] theorem setCore_asa (k : CoreId) (v : Core) : (s.setCore k v).asa = s.asa := rfl
@[simp] theorem setCore_jobs (k : CoreId) (v : Core) : (s.setCore k v).jobs = s.jobs := rfl
@[simp] theorem setCore_dram (k : CoreId) (v : Core) : (s.setCore k v).dram = s.dram := rfl
@[simp] theorem setCore_pair (k : CoreId) (v : Core) : (s.setCore k v).pair = s.pair := rfl
@[simp] theorem setCore_disc (k : CoreId) (v : Core) : (s.setCore k v).disc = s.disc := rfl
@[simp] theorem setCore_power (k : CoreId) (v : Core) : (s.setCore k v).power = s.power := rfl
@[simp] theorem setCore_ras (k : CoreId) (v : Core) : (s.setCore k v).ras = s.ras := rfl
@[simp] theorem setCore_fw (k : CoreId) (v : Core) : (s.setCore k v).fw = s.fw := rfl
@[simp] theorem setCore_out (k : CoreId) (v : Core) : (s.setCore k v).out = s.out := rfl
@[simp] theorem setCore_free (k : CoreId) (v : Core) : (s.setCore k v).free = s.free := rfl

end Sys2Proof.Machine
end

