-- ==== Sys2Proof/Laws/Cores.lean ====
section
/-! SUPPORT. What the frame of an instruction does: cycles pass, the loop-end step, the trap, and the three ends of a body. -/

namespace Sys2Proof.Machine

open Sys2Proof.Claims

/-! ### Registers -/

@[simp] theorem State.core_setCore_self (s : State) (k : CoreId) (c : Core) : (s.setCore k c).core k = c := by
  simp [State.core, State.setCore]

theorem State.core_setCore_ne (s : State) (k j : CoreId) (c : Core) (h : j ≠ k) : (s.setCore k c).core j = s.core j := by
  simp [State.core, State.setCore, AMap.get_insert_ne _ _ _ _ _ h]

@[simp] theorem State.core_tick (s : State) (k : CoreId) : s.tick.core k = s.core k := rfl

@[simp] theorem Core.getX_zero (c : Core) : c.getX 0 = 0 := by simp [Core.getX]

theorem Core.getX_setX (c : Core) (r q : BitVec 5) (w : BitVec 64) :
    (c.setX r w).getX q = if q = 0 then 0 else if q = r then w else c.getX q := by
  unfold Core.setX Core.getX
  by_cases hr : r = 0 <;> by_cases hq : q = 0 <;> grind [AMap.get_insert]

theorem Core.getV_setV (c : Core) (r q : BitVec 5) (w : BitVec 2048) :
    (c.setV r w).getV q = if q = r then w else c.getV q := by
  simp [Core.setV, Core.getV, AMap.get_insert]

theorem Core.getP_setP (c : Core) (k : CoreId) (r q : BitVec 3) (w : BitVec 256) :
    (c.setP r w).getP k q = if q = 0 then BitVec.ofNat 256 (2 ^ k.vlenb - 1) else if q = r then w else c.getP k q := by
  unfold Core.setP Core.getP
  by_cases hr : r = 0 <;> by_cases hq : q = 0 <;> grind [AMap.get_insert]

/-! ### Time -/

theorem Core.spend_elapsed (c : Core) (n : BitVec 64) : Elapsed c (c.spend n) := by
  unfold Elapsed Core.spend
  refine ⟨?_, ?_, ?_⟩
  · dsimp only
    split
    · rfl
    · split
      · simp [Core.pend]
      · rfl
  · dsimp only
    split
    · simp
    · split <;> simp [Core.pend, AsyncSrc.bit]
  · intro h; simp [h]

theorem Core.loopEnd_step (c : Core) (a : BitVec 64) : LoopStep a c (c.loopEnd a) := by
  have e : ∀ x : BitVec 64, x - 1#64 = 0#64 ↔ x = 1#64 := by intro x; bv_omega
  obtain ⟨_, _, _, _, _, _, _, _, n0, _, e0, n1, _, e1⟩ := c
  simp only [LoopStep, Core.loopEnd, bne_iff_ne, ne_eq, Bool.and_eq_true, beq_iff_eq]
  by_cases h1 : n1 = 0 <;> by_cases h2 : a = e1 <;> by_cases h3 : n1 = 1 <;>
    by_cases h4 : n0 = 0 <;> by_cases h5 : a = e0 <;> by_cases h6 : n0 = 1 <;> simp_all

/-! ### The trap -/

/-- A change into the trap mode from another mode. -/
theorem Core.swapSp_setMode (c : Core) (m : BitVec 2) (h : ¬c.mode = m) :
    c.swapSp.setMode m = { c with
      x := AMap.insert c.x 30 c.kentrySp, kentrySp := c.getX 30, mode := m
      ssp := c.lssp, ssbase := c.lssbase, sslimit := c.lsslimit
      lssp := c.ssp, lssbase := c.ssbase, lsslimit := c.sslimit } := by
  have hs : c.swapSp = { c with x := AMap.insert c.x 30 c.kentrySp, kentrySp := c.getX 30 } := rfl
  have hm : ¬m = (c.swapSp).mode := by rw [hs]; exact fun e => h e.symm
  unfold Core.setMode
  rw [if_neg hm, hs]

theorem Core.trap_trapped (c : Core) (k : CoreId) (code : BitVec 8) (intr : Bool) (eval epc : BitVec 64) :
    Trapped k c (c.trap k code intr eval epc) (if intr then code.setWidth 64 ||| 0x8000000000000000 else code.setWidth 64)
      eval epc := by
  have hc : BitVec.ofNat 64 (code.toNat + 256 * Bool.asNat c.gm + 2 ^ 63 * Bool.asNat intr) =
      (if c.gm then (if intr then code.setWidth 64 ||| 0x8000000000000000 else code.setWidth 64) ||| 0x100
       else (if intr then code.setWidth 64 ||| 0x8000000000000000 else code.setWidth 64)) := by
    revert code; cases c.gm <;> cases intr <;> decide
  have hs : c.status = BitVec.ofNat 64 (c.mode.toNat + (if c.gm then 4 else 0)) := by
    unfold Core.status; cases c.gm <;> rfl
  unfold Trapped Core.trap
  dsimp only
  by_cases h : c.mode = k.trapMode
  · simp only [h, hc, hs, if_true]
    simp [Core.getX]
  · rw [if_neg h, Core.swapSp_setMode]
    · simp only [h, if_false, hc, hs]
      simp [Core.getX, AMap.get_insert]
      intro r hr
      simp [hr]
    · exact h

/-! ### The ends of a body -/

theorem onlyCore_setCore (s : State) (k : CoreId) (c : Core) : OnlyCore s (s.tick.setCore k c) k :=
  ⟨rfl, fun j h => by rw [State.core_setCore_ne _ _ _ _ h]; rfl⟩

/-- A body that completes. -/
theorem completes_of {s : State} {k : CoreId} {i : Instr} {e : Core}
    (h : exec i s = .next (s.tick.setCore k ((e.complete (s.core k).pc).spend (Config.cycles s.free))))
    (hi : e.instret = (s.core k).instret) : Completes s k i e := by
  refine ⟨_, h, onlyCore_setCore _ _ _, _, Core.loopEnd_step _ _, ?_⟩
  rw [State.core_setCore_self, Core.complete, hi]
  exact Core.spend_elapsed _ _

/-- A control body that completes. -/
theorem jumps_of {s : State} {k : CoreId} {i : Instr} {e : Core}
    (h : exec i s = .next (s.tick.setCore k (e.counted.spend (Config.cycles s.free))))
    (hi : e.instret = (s.core k).instret) : Jumps s k i e := by
  refine ⟨_, h, onlyCore_setCore _ _ _, ?_⟩
  rw [State.core_setCore_self, Core.counted, hi]
  exact Core.spend_elapsed _ _

/-- A body that raises a cause. -/
theorem raises_of {s : State} {k : CoreId} {i : Instr} {code : BitVec 8} {eval : BitVec 64}
    (h : exec i s = .next (s.tick.setCore k (((s.core k).raise k code eval).spend (Config.cycles s.free)))) :
    Raises s k i (code.setWidth 64) eval := by
  refine ⟨_, _, h, onlyCore_setCore _ _ _, Core.trap_trapped _ _ _ false _ _, ?_⟩
  rw [State.core_setCore_self]
  exact Core.spend_elapsed _ _

/-- The body runs, if the core is ready, the instruction is legal and no LEND forbids it. -/
theorem State.instr_ready {s : State} {k : CoreId} {w : BitVec 32} {res ctl : Bool} {legal : Core → Bool}
    {body : State → Core → CoreEnd} (r : Ready s k) (hv : res = true ∨ (s.core k).vprog = 0)
    (hc : ctl = false ∨ (s.core k).atLend (s.core k).pc = false) (hl : legal (s.core k) = true) :
    s.instr k w res ctl legal body =
      (body s.tick (s.core k)).leave k (s.core k).pc (Config.cycles s.free) := by
  obtain ⟨r1, r2, r3, r4, r5⟩ := r
  have h3 : (decide ((s.core k).mode = 0) && decide ((s.core k).pc = kretAddr)) = false := by
    by_cases h : (s.core k).mode = 0
    · have : (s.core k).pc ≠ kretAddr := fun e => r3 ⟨h, e⟩
      rw [decide_eq_false this, Bool.and_false]
    · rw [decide_eq_false h, Bool.false_and]
  have h5 : (!res && (s.core k).vprog != 0 || ctl && (s.core k).atLend (s.core k).pc) = false := by
    rcases hv with h | h <;> rcases hc with h' | h' <;> rw [h, h'] <;> simp
  unfold State.instr
  simp only [r1, r2, Bool.or_self, Bool.false_eq_true, if_false, r4, r5, Bool.not_true, hl, h3, h5]

end Sys2Proof.Machine
end

