-- ==== Sys2Proof/Laws/Events.lean ====
section
/-! SUPPORT. What recording and signalling events leave alone: everything but the functions, the RAS logs and what has left the engine. -/

namespace Sys2Proof.Machine

/-- From one state to the next only functions, the RAS logs and counters, and what has left the engine differ. -/
def EventsOnly (s t : State) : Prop := t = { s with fns := t.fns, ras := t.ras, out := t.out }

theorem EventsOnly.refl (s : State) : EventsOnly s s := rfl

theorem EventsOnly.trans {s t u : State} (h : EventsOnly s t) (g : EventsOnly t u) : EventsOnly s u := by
  rw [EventsOnly] at h g ⊢
  rw [g, h]

/-- A fold of such steps is such a step. -/
theorem EventsOnly.forEach {α : Type} (l : List α) (f : State → α → State) (h : ∀ s x, EventsOnly s (f s x)) (s : State) :
    EventsOnly s (forEach l s f) := by
  unfold Machine.forEach
  induction l generalizing s with
  | nil => exact .refl s
  | cons a r ih => exact (h s a).trans (ih (f s a))

theorem State.messageDue_rest (s : State) (i : BitVec 8) (v : BitVec 11) : EventsOnly s (s.messageDue i v) := by
  unfold State.messageDue
  dsimp only
  (repeat' split) <;> rfl

theorem State.occur_rest (s : State) (i : BitVec 8) (v : BitVec 11) : EventsOnly s (s.occur i v) := by
  have h : ∀ (c : Prop) [Decidable c] (u : State), EventsOnly s u → EventsOnly s (if c then u.messageDue i v else u) := by
    intro c _ u hu
    split
    · exact hu.trans (State.messageDue_rest u i v)
    · exact hu
  unfold State.occur
  dsimp only
  split
  · rfl
  · exact h _ _ rfl

theorem State.deliver_rest (s : State) (dst : BitVec 8) (r : EvRec) : EventsOnly s (s.deliver dst r) := by
  unfold State.deliver
  dsimp only
  split
  · exact EventsOnly.trans (t := s.setFn dst _) rfl (State.occur_rest _ _ _)
  · rfl

theorem State.deliverManager_rest (s : State) (r : EvRec) : EventsOnly s (s.deliverManager r) := by
  unfold State.deliverManager
  split
  · exact State.deliver_rest s _ r
  · rfl

theorem State.raiseDeviceX_rest (s : State) (id : Nat) (inst : BitVec 8) (d0 d1 : BitVec 64) (sev : BitVec 8) (extra : BitVec 256) :
    EventsOnly s (s.raiseDeviceX id inst d0 d1 sev extra) := by
  have tail : ∀ (t : State) (r : Ras), EventsOnly s t → EventsOnly s { t with ras := r } := fun t r h => h.trans rfl
  have again : ∀ (t : State) (r : EvRec), EventsOnly s t → EventsOnly s (t.deliverManager r) :=
    fun t r h => h.trans (State.deliverManager_rest t r)
  have h := State.deliverManager_rest s (s.record id inst d0 d1)
  unfold State.raiseDeviceX
  dsimp only
  (repeat' split)
  · exact tail _ _ (again _ _ (tail _ _ h))
  · exact tail _ _ h
  · exact h

/-- Raising a device-scope event leaves everything else alone. -/
theorem State.raiseDevice_rest (s : State) (id : Nat) (inst : BitVec 8) (d0 d1 : BitVec 64) :
    EventsOnly s (s.raiseDevice id inst d0 d1) := State.raiseDeviceX_rest ..

/-- Raising an instance-scope event leaves everything else alone. -/
theorem State.raiseInst_rest (s : State) (id : Nat) (inst : BitVec 8) (d0 d1 : BitVec 64) :
    EventsOnly s (s.raiseInst id inst d0 d1) := State.deliver_rest ..

theorem State.raiseAll_rest (s : State) (id : Nat) (d0 : BitVec 64) : EventsOnly s (s.raiseAll id d0) :=
  EventsOnly.forEach _ _ (fun s _ => State.raiseInst_rest s _ _ _ _) s

theorem State.count_rest (s : State) (off : BitVec 16) : EventsOnly s (s.count off) := rfl

end Sys2Proof.Machine
end

