-- ==== Sys2Proof/Laws/Memory.lean ====
section
/-! SUPPORT. The byte-addressed memories: what a byte reads after a write, and that every operation on a memory keeps its canonical
form. -/

namespace Sys2Proof.Machine

/-! ### Reading after writing -/

theorem Memory.read_drop (m : Memory) (a x : Nat) : (m.drop a).read x = if x = a then 0 else m.read x := by
  induction m with
  | nil => simp [Memory.drop, Memory.read]
  | cons e r ih => grind [Memory.drop, Memory.read]

theorem Memory.read_put (m : Memory) (a x : Nat) (v : Byte) : (m.put a v).read x = if x = a then v else m.read x := by
  induction m with
  | nil => grind [Memory.put, Memory.read]
  | cons e r ih => grind [Memory.put, Memory.read]

/-- A byte written reads as written, and no other byte changes. -/
theorem Memory.read_write (m : Memory) (a x : Nat) (v : Byte) : (m.write a v).read x = if x = a then v else m.read x := by
  unfold Memory.write
  split
  · rw [Memory.read_drop]; simp_all
  · rw [Memory.read_put]

/-- Bytes written from an address up read as written, and no other byte changes. -/
theorem Memory.read_writeBytes (m : Memory) (a x : Nat) (bs : Bytes) :
    (m.writeBytes a bs).read x = if a ≤ x ∧ x < a + bs.length then bs.getD (x - a) 0 else m.read x := by
  induction bs generalizing m a with
  | nil => simp only [Memory.writeBytes, List.length_nil]; rw [if_neg (by omega)]
  | cons b r ih =>
    simp only [Memory.writeBytes, ih, Memory.read_write, List.length_cons]
    by_cases h : x = a
    · subst h; rw [if_neg (by omega), if_pos rfl, if_pos (by omega)]; simp
    · by_cases g : a + 1 ≤ x ∧ x < a + 1 + r.length
      · rw [if_pos g, if_pos (by omega)]
        obtain ⟨k, rfl⟩ : ∃ k, x = a + 1 + k := ⟨x - (a + 1), by omega⟩
        rw [show a + 1 + k - (a + 1) = k by omega, show a + 1 + k - a = k + 1 by omega]; simp
      · rw [if_neg g, if_neg h, if_neg (by omega)]

/-! ### The canonical form -/

theorem Memory.wfFrom_mono {m : Memory} {lo hi : Nat} (h : m.wfFrom hi = true) (le : lo ≤ hi) : m.wfFrom lo = true := by
  cases m with
  | nil => rfl
  | cons e r => simp only [Memory.wfFrom, Bool.and_eq_true, decide_eq_true_eq] at h ⊢; exact ⟨⟨by omega, h.1.2⟩, h.2⟩

theorem Memory.wfFrom_drop {m : Memory} {lo : Nat} (a : Nat) (h : m.wfFrom lo = true) : (m.drop a).wfFrom lo = true := by
  induction m generalizing lo with
  | nil => rfl
  | cons e r ih =>
    simp only [Memory.wfFrom, Bool.and_eq_true, decide_eq_true_eq] at h
    simp only [Memory.drop]
    split
    · exact ih (Memory.wfFrom_mono h.2 (by omega))
    · simp only [Memory.wfFrom, Bool.and_eq_true, decide_eq_true_eq]; exact ⟨h.1, ih h.2⟩

theorem Memory.wfFrom_put {m : Memory} {lo a : Nat} {v : Byte} (h : m.wfFrom lo = true) (le : lo ≤ a) (nz : v ≠ 0) :
    (m.put a v).wfFrom lo = true := by
  induction m generalizing lo with
  | nil => simpa [Memory.put, Memory.wfFrom, le] using nz
  | cons e r ih =>
    simp only [Memory.wfFrom, Bool.and_eq_true, decide_eq_true_eq] at h
    simp only [Memory.put]
    split
    · simp only [Memory.wfFrom, Bool.and_eq_true, decide_eq_true_eq]; exact ⟨⟨le, nz⟩, ⟨by omega, h.1.2⟩, h.2⟩
    · split
      · subst_vars; simp only [Memory.wfFrom, Bool.and_eq_true, decide_eq_true_eq]; exact ⟨⟨le, nz⟩, h.2⟩
      · simp only [Memory.wfFrom, Bool.and_eq_true, decide_eq_true_eq]; exact ⟨h.1, ih h.2 (by omega)⟩

/-- A write keeps the canonical form. -/
theorem Memory.wf_write {m : Memory} (a : Nat) (v : Byte) (h : m.wf = true) : (m.write a v).wf = true := by
  unfold Memory.write
  split
  · exact Memory.wfFrom_drop a h
  · exact Memory.wfFrom_put h (Nat.zero_le a) ‹_›

/-- Writing bytes keeps the canonical form. -/
theorem Memory.wf_writeBytes {m : Memory} (a : Nat) (bs : Bytes) (h : m.wf = true) : (m.writeBytes a bs).wf = true := by
  induction bs generalizing m a with
  | nil => exact h
  | cons b r ih => exact ih (a + 1) (Memory.wf_write a b h)

theorem Memory.wfFrom_filter {m : Memory} {lo : Nat} (p : Nat × Byte → Bool) (h : m.wfFrom lo = true) :
    Memory.wfFrom (List.filter p m) lo = true := by
  induction m generalizing lo with
  | nil => rfl
  | cons e r ih =>
    simp only [Memory.wfFrom, Bool.and_eq_true, decide_eq_true_eq] at h
    by_cases he : p e = true
    · rw [List.filter_cons_of_pos he]; simp only [Memory.wfFrom, Bool.and_eq_true, decide_eq_true_eq]; exact ⟨h.1, ih h.2⟩
    · rw [List.filter_cons_of_neg he]; exact ih (Memory.wfFrom_mono h.2 (by omega))

/-- Taking over the listed bytes of another memory keeps the canonical form. -/
theorem Memory.wf_splice {m : Memory} (old : Memory) (p : Nat → Bool) (h : m.wf = true) : (m.splice old p).wf = true := by
  have base : Memory.wf (List.filter (fun e => !(p e.1)) m) = true := Memory.wfFrom_filter _ h
  unfold Memory.splice
  generalize List.filter (fun e => !(p e.1)) m = n at base ⊢
  generalize List.filter (fun e : Nat × Byte => p e.1) old = l
  induction l generalizing n with
  | nil => exact base
  | cons e r ih => exact ih _ (Memory.wf_write e.1 e.2 base)

/-- After reset every memory has its canonical form. -/
theorem State.reset_memories (k : CoreId) : State.reset.cores.ls.wf = true ∧ State.reset.cores.runtime.wf = true ∧
    State.reset.cores.pool.wf = true ∧ (State.reset.core k).scratch.wf = true :=
  ⟨rfl, rfl, rfl, rfl⟩

end Sys2Proof.Machine
end

