-- ==== Sys2Proof/Laws/Quiet.lean ====
section
/-! SUPPORT. Which shared operations leave the queue and the cores as they are. -/

namespace Sys2Proof.Machine

@[simp] theorem forEach_quiet {α : Type} (l : List α) (s : State) (f : State → α → State)
    (h : ∀ s x, (f s x).pending = s.pending ∧ (f s x).cores = s.cores) :
    (forEach l s f).pending = s.pending ∧ (forEach l s f).cores = s.cores := by
  unfold forEach
  induction l generalizing s with
  | nil => simp
  | cons a r ih => simp [ih, h]

@[simp] theorem ite_pending (c : Prop) [Decidable c] (a b : State) : (if c then a else b).pending = if c then a.pending else b.pending := by
  split <;> rfl
@[simp] theorem ite_cores (c : Prop) [Decidable c] (a b : State) : (if c then a else b).cores = if c then a.cores else b.cores := by
  split <;> rfl

@[simp] theorem accessed_quiet (s : State) (i : BitVec 8) (pasid : Option (BitVec 20)) (addr : BitVec 64) (len : Nat) (write : Bool) :
    (State.accessed s i pasid addr len write).pending = s.pending ∧ (State.accessed s i pasid addr len write).cores = s.cores := by simp [State.accessed]

@[simp] theorem sendRequests_quiet (s : State) (i : BitVec 8) (pasid : Option (BitVec 20)) (addr : BitVec 64) (bs : Bytes) (data : Bool) :
    (State.sendRequests s i pasid addr bs data).pending = s.pending ∧ (State.sendRequests s i pasid addr bs data).cores = s.cores := by simp [State.sendRequests]

@[simp] theorem sendData_quiet (s : State) (i : BitVec 8) (pasid : Option (BitVec 20)) (addr : BitVec 64) (bs : Bytes) :
    (State.sendData s i pasid addr bs).pending = s.pending ∧ (State.sendData s i pasid addr bs).cores = s.cores := by simp [State.sendData]

@[simp] theorem sendOrdered_quiet (s : State) (i : BitVec 8) (pasid : Option (BitVec 20)) (addr : BitVec 64) (bs : Bytes) :
    (State.sendOrdered s i pasid addr bs).pending = s.pending ∧ (State.sendOrdered s i pasid addr bs).cores = s.cores := by unfold State.sendOrdered; dsimp only; (repeat' split) <;> simp

@[simp] theorem dataWrite_quiet (s : State) (i : BitVec 8) (pasid : Option (BitVec 20)) (addr : BitVec 64) (bs : Bytes) :
    (State.dataWrite s i pasid addr bs).pending = s.pending ∧ (State.dataWrite s i pasid addr bs).cores = s.cores := by simp [State.dataWrite]

@[simp] theorem orderedWrite_quiet (s : State) (i : BitVec 8) (pasid : Option (BitVec 20)) (addr : BitVec 64) (bs : Bytes) :
    (State.orderedWrite s i pasid addr bs).pending = s.pending ∧ (State.orderedWrite s i pasid addr bs).cores = s.cores := by simp [State.orderedWrite]

@[simp] theorem gcSegs_quiet (s : State) :
    (State.gcSegs s).pending = s.pending ∧ (State.gcSegs s).cores = s.cores := by simp [State.gcSegs]

@[simp] theorem messageDue_quiet (s : State) (i : BitVec 8) (v : BitVec 11) :
    (State.messageDue s i v).pending = s.pending ∧ (State.messageDue s i v).cores = s.cores := by simp [State.messageDue]

@[simp] theorem occur_quiet (s : State) (i : BitVec 8) (v : BitVec 11) :
    (State.occur s i v).pending = s.pending ∧ (State.occur s i v).cores = s.cores := by simp [State.occur]

@[simp] theorem signalHeld_quiet (s : State) (i : BitVec 8) :
    (State.signalHeld s i).pending = s.pending ∧ (State.signalHeld s i).cores = s.cores := by simp [State.signalHeld]

@[simp] theorem signalAll_quiet (s : State) (i : BitVec 8) :
    (State.signalAll s i).pending = s.pending ∧ (State.signalAll s i).cores = s.cores := by simp [State.signalAll]

@[simp] theorem deliver_quiet (s : State) (dst : BitVec 8) (r : EvRec) :
    (State.deliver s dst r).pending = s.pending ∧ (State.deliver s dst r).cores = s.cores := by simp [State.deliver]

@[simp] theorem deliverManager_quiet (s : State) (r : EvRec) :
    (State.deliverManager s r).pending = s.pending ∧ (State.deliverManager s r).cores = s.cores := by unfold State.deliverManager; split <;> simp

@[simp] theorem raiseDeviceX_quiet (s : State) (id : Nat) (inst : BitVec 8) (d0 d1 : BitVec 64) (sev : BitVec 8) (extra : BitVec 256) :
    (State.raiseDeviceX s id inst d0 d1 sev extra).pending = s.pending ∧ (State.raiseDeviceX s id inst d0 d1 sev extra).cores = s.cores := by simp [State.raiseDeviceX]

@[simp] theorem raiseDevice_quiet (s : State) (id : Nat) (inst : BitVec 8) (d0 d1 : BitVec 64) :
    (State.raiseDevice s id inst d0 d1).pending = s.pending ∧ (State.raiseDevice s id inst d0 d1).cores = s.cores := by simp [State.raiseDevice]

@[simp] theorem raiseInst_quiet (s : State) (id : Nat) (inst : BitVec 8) (d0 d1 : BitVec 64) :
    (State.raiseInst s id inst d0 d1).pending = s.pending ∧ (State.raiseInst s id inst d0 d1).cores = s.cores := by simp [State.raiseInst]

@[simp] theorem raiseAll_quiet (s : State) (id : Nat) (d0 : BitVec 64) :
    (State.raiseAll s id d0).pending = s.pending ∧ (State.raiseAll s id d0).cores = s.cores := by simp [State.raiseAll]

@[simp] theorem count_quiet (s : State) (off : BitVec 16) :
    (State.count s off).pending = s.pending ∧ (State.count s off).cores = s.cores := by simp [State.count]

@[simp] theorem alertLow_quiet (s : State) :
    (State.alertLow s).pending = s.pending ∧ (State.alertLow s).cores = s.cores := by simp [State.alertLow]

@[simp] theorem unmaskVector_quiet (s : State) (inst : BitVec 8) (vector : Option (BitVec 11)) :
    (State.unmaskVector s inst vector).pending = s.pending ∧ (State.unmaskVector s inst vector).cores = s.cores := by unfold State.unmaskVector; split <;> simp

@[simp] theorem pushCpl_quiet (s : State) (inst : BitVec 8) (c : Cpl) :
    (State.pushCpl s inst c).pending = s.pending ∧ (State.pushCpl s inst c).cores = s.cores := by unfold State.pushCpl; (repeat' split) <;> simp

@[simp] theorem setBatch_quiet (s : State) (b : Batch) :
    (State.setBatch s b).pending = s.pending ∧ (State.setBatch s b).cores = s.cores := by simp [State.setBatch]

@[simp] theorem dropBatch_quiet (s : State) (n : Nat) :
    (State.dropBatch s n).pending = s.pending ∧ (State.dropBatch s n).cores = s.cores := by simp [State.dropBatch]

@[simp] theorem batchCheck_quiet (s : State) (n : Nat) :
    (State.batchCheck s n).pending = s.pending ∧ (State.batchCheck s n).cores = s.cores := by unfold State.batchCheck; split <;> simp

@[simp] theorem closeBatch_quiet (s : State) (inst : BitVec 8) (sqid : BitVec 12) :
    (State.closeBatch s inst sqid).pending = s.pending ∧ (State.closeBatch s inst sqid).cores = s.cores := by unfold State.closeBatch; dsimp only; (repeat' split) <;> simp

@[simp] theorem batchEntryDone_quiet (s : State) (n : Nat) (t : Tag) (status : BitVec 15) (result : BitVec 64) (after : List Tag) :
    (State.batchEntryDone s n t status result after).pending = s.pending ∧ (State.batchEntryDone s n t status result after).cores = s.cores := by unfold State.batchEntryDone; split <;> simp

@[simp] theorem dropWaiters_quiet (s : State) (f : Waiter → Bool) :
    (State.dropWaiters s f).pending = s.pending ∧ (State.dropWaiters s f).cores = s.cores := by simp [State.dropWaiters]

@[simp] theorem unwait_quiet (s : State) (w : Waiter) :
    (State.unwait s w).pending = s.pending ∧ (State.unwait s w).cores = s.cores := by simp [State.unwait]

@[simp] theorem dropJobs_quiet (s : State) (f : JobOwner → Bool) :
    (State.dropJobs s f).pending = s.pending ∧ (State.dropJobs s f).cores = s.cores := by simp [State.dropJobs]

@[simp] theorem forget_quiet (s : State) (c : Cmd) :
    (State.forget s c).pending = s.pending ∧ (State.forget s c).cores = s.cores := by simp [State.forget]

@[simp] theorem finishAfter_quiet (s : State) (t : Tag) (status : BitVec 15) (result : BitVec 64) (after : List Tag) :
    (State.finishAfter s t status result after).pending = s.pending ∧ (State.finishAfter s t status result after).cores = s.cores := by unfold State.finishAfter; (repeat' split) <;> simp

@[simp] theorem finish_quiet (s : State) (t : Tag) (status : BitVec 15) (result : BitVec 64) :
    (State.finish s t status result).pending = s.pending ∧ (State.finish s t status result).cores = s.cores := by simp [State.finish]

@[simp] theorem begun_quiet (s : State) (t : Tag) :
    (State.begun s t).pending = s.pending ∧ (State.begun s t).cores = s.cores := by simp [State.begun]

@[simp] theorem drainCheck_quiet (s : State) (inst : BitVec 8) (sqid : BitVec 12) :
    (State.drainCheck s inst sqid).pending = s.pending ∧ (State.drainCheck s inst sqid).cores = s.cores := by unfold State.drainCheck; (repeat' split) <;> simp

@[simp] theorem drainSq_quiet (s : State) (inst : BitVec 8) (sqid : BitVec 12) (d : Drain) :
    (State.drainSq s inst sqid d).pending = s.pending ∧ (State.drainSq s inst sqid d).cores = s.cores := by unfold State.drainSq; split <;> simp

@[simp] theorem sendLink_quiet (s : State) (port : BitVec 2) (cls : BitVec 8) (tag : BitVec 32) (payload : Bytes) :
    (State.sendLink s port cls tag payload).pending = s.pending ∧ (State.sendLink s port cls tag payload).cores = s.cores := by simp [State.sendLink]

@[simp] theorem sendNode_quiet (s : State) (dst : BitVec 16) (cls : BitVec 8) (tag : BitVec 32) (payload : Bytes) :
    (State.sendNode s dst cls tag payload).pending = s.pending ∧ (State.sendNode s dst cls tag payload).cores = s.cores := by unfold State.sendNode; split <;> simp

@[simp] theorem sendPair_quiet (s : State) (cls : BitVec 8) (tag : BitVec 32) (bs : Bytes) :
    (State.sendPair s cls tag bs).pending = s.pending ∧ (State.sendPair s cls tag bs).cores = s.cores := by simp [State.sendPair]

@[simp] theorem protocolError_quiet (s : State) (port : BitVec 2) :
    (State.protocolError s port).pending = s.pending ∧ (State.protocolError s port).cores = s.cores := by simp [State.protocolError]

@[simp] theorem receive_quiet (s : State) (m : RelayMsg) (cls : Nat) (k : State → State) (hk : ∀ s, (k s).pending = s.pending ∧ (k s).cores = s.cores) :
    (State.receive s m cls k).pending = s.pending ∧ (State.receive s m cls k).cores = s.cores := by unfold State.receive; (repeat' split) <;> simp_all

@[simp] theorem receiveLen_quiet (s : State) (m : RelayMsg) (cls len : Nat) (ok : Bytes → Bool) (k : State → State) (hk : ∀ s, (k s).pending = s.pending ∧ (k s).cores = s.cores) :
    (State.receiveLen s m cls len ok k).pending = s.pending ∧ (State.receiveLen s m cls len ok k).cores = s.cores := by unfold State.receiveLen; (repeat' split) <;> simp_all

@[simp] theorem receiveFrag_quiet (s : State) (m : RelayMsg) (cls : BitVec 8) (most : Nat) (k : Bytes → State → State) (hk : ∀ a s, (k a s).pending = s.pending ∧ (k a s).cores = s.cores) :
    (State.receiveFrag s m cls most k).pending = s.pending ∧ (State.receiveFrag s m cls most k).cores = s.cores := by unfold State.receiveFrag; simp_all

@[simp] theorem holdCsw_quiet (s : State) (t : Tag) :
    (State.holdCsw s t).pending = s.pending ∧ (State.holdCsw s t).cores = s.cores := by simp [State.holdCsw]

@[simp] theorem emitCsw_quiet (s : State) (t : Tag) :
    (State.emitCsw s t).pending = s.pending ∧ (State.emitCsw s t).cores = s.cores := by unfold State.emitCsw; split <;> simp

@[simp] theorem refill_quiet (s : State) :
    (State.refill s).pending = s.pending ∧ (State.refill s).cores = s.cores := by simp [State.refill]

@[simp] theorem removeItems_quiet (s : State) (f : Item → Bool) :
    (State.removeItems s f).pending = s.pending ∧ (State.removeItems s f).cores = s.cores := by simp [State.removeItems]

@[simp] theorem addTotalNs_quiet (s : State) (t : Tag) (k : Nat) (ns : BitVec 64) :
    (State.addTotalNs s t k ns).pending = s.pending ∧ (State.addTotalNs s t k ns).cores = s.cores := by simp [State.addTotalNs]

@[simp] theorem addTotal_quiet (s : State) (t : Tag) (k : Nat) (counts : BitVec 64) :
    (State.addTotal s t k counts).pending = s.pending ∧ (State.addTotal s t k counts).cores = s.cores := by simp [State.addTotal]

@[simp] theorem stallItem_quiet (s : State) (n : Nat) :
    (State.stallItem s n).pending = s.pending ∧ (State.stallItem s n).cores = s.cores := by simp [State.stallItem]

@[simp] theorem endStall_quiet (s : State) (n : Nat) (least : BitVec 64) :
    (State.endStall s n least).pending = s.pending ∧ (State.endStall s n least).cores = s.cores := by unfold State.endStall; (repeat' split) <;> simp

@[simp] theorem closeTotals_quiet (s : State) (f : Item → Bool) :
    (State.closeTotals s f).pending = s.pending ∧ (State.closeTotals s f).cores = s.cores := by unfold State.closeTotals; apply forEach_quiet; intro s x; (repeat' split) <;> simp

@[simp] theorem withdraw_quiet (s : State) (t : Tag) :
    (State.withdraw s t).pending = s.pending ∧ (State.withdraw s t).cores = s.cores := by simp [State.withdraw]

@[simp] theorem dropLeave_quiet (s : State) (t : Tag) :
    (State.dropLeave s t).pending = s.pending ∧ (State.dropLeave s t).cores = s.cores := by simp [State.dropLeave]

@[simp] theorem stopExchanges_quiet (s : State) (t : Tag) :
    (State.stopExchanges s t).pending = s.pending ∧ (State.stopExchanges s t).cores = s.cores := by
  unfold State.stopExchanges
  apply forEach_quiet
  intro s x
  (repeat' split) <;> simp

@[simp] theorem dropExchanges_quiet (s : State) (t : Tag) :
    (State.dropExchanges s t).pending = s.pending ∧ (State.dropExchanges s t).cores = s.cores := by simp [State.dropExchanges]

@[simp] theorem closeCascade_quiet (s : State) (t : Tag) :
    (State.closeCascade s t).pending = s.pending ∧ (State.closeCascade s t).cores = s.cores := by simp [State.closeCascade]

@[simp] theorem releasePods_quiet (s : State) (t : Tag) :
    (State.releasePods s t).pending = s.pending ∧ (State.releasePods s t).cores = s.cores := by simp [State.releasePods]

@[simp] theorem dropQueryWaits_quiet (s : State) (t : Tag) :
    (State.dropQueryWaits s t).pending = s.pending ∧ (State.dropQueryWaits s t).cores = s.cores := by simp [State.dropQueryWaits]

@[simp] theorem queryClose_quiet (s : State) (t : Tag) (status : BitVec 15) :
    (State.queryClose s t status).pending = s.pending ∧ (State.queryClose s t status).cores = s.cores := by unfold State.queryClose; dsimp only; (repeat' split) <;> simp

@[simp] theorem completeQuery_quiet (s : State) (t : Tag) :
    (State.completeQuery s t).pending = s.pending ∧ (State.completeQuery s t).cores = s.cores := by unfold State.completeQuery; split <;> simp

@[simp] theorem queryDone_quiet (s : State) (t : Tag) (status : BitVec 15) :
    (State.queryDone s t status).pending = s.pending ∧ (State.queryDone s t status).cores = s.cores := by simp [State.queryDone]

@[simp] theorem stopQueryAt_quiet (s : State) (t : Tag) (status : BitVec 15) (reason index : BitVec 16) :
    (State.stopQueryAt s t status reason index).pending = s.pending ∧ (State.stopQueryAt s t status reason index).cores = s.cores := by unfold State.stopQueryAt; (repeat' split) <;> simp

@[simp] theorem stopQuery_quiet (s : State) (t : Tag) (status : BitVec 15) :
    (State.stopQuery s t status).pending = s.pending ∧ (State.stopQuery s t status).cores = s.cores := by simp [State.stopQuery]

@[simp] theorem dropQuery_quiet (s : State) (t : Tag) :
    (State.dropQuery s t).pending = s.pending ∧ (State.dropQuery s t).cores = s.cores := by simp [State.dropQuery]

@[simp] theorem deadlineCheck_quiet (s : State) (t : Tag) :
    (State.deadlineCheck s t).pending = s.pending ∧ (State.deadlineCheck s t).cores = s.cores := by unfold State.deadlineCheck; split <;> simp

@[simp] theorem catchCmd_quiet (s : State) (c : Cmd) (status : BitVec 15) :
    (State.catchCmd s c status).pending = s.pending ∧ (State.catchCmd s c status).cores = s.cores := by unfold State.catchCmd; dsimp only; (repeat' split) <;> simp

@[simp] theorem parkItem_quiet (s : State) (n : Nat) (cause : ParkCause) (lastStop : BitVec 8) :
    (State.parkItem s n cause lastStop).pending = s.pending ∧ (State.parkItem s n cause lastStop).cores = s.cores := by simp [State.parkItem]

@[simp] theorem unresolved_quiet (s : State) (w : Waiter) :
    (State.unresolved s w).pending = s.pending ∧ (State.unresolved s w).cores = s.cores := by unfold State.unresolved; dsimp only; (repeat' split) <;> simp

@[simp] theorem joinRequest_quiet (s : State) (k : PageKey) (w : Waiter) :
    (State.joinRequest s k w).pending = s.pending ∧ (State.joinRequest s k w).cores = s.cores := by simp [State.joinRequest]

@[simp] theorem hostFault_quiet (s : State) (i : BitVec 8) (pasid : Option (BitVec 20)) (page : BitVec 64) (write : Bool) (w : Waiter) :
    (State.hostFault s i pasid page write w).pending = s.pending ∧ (State.hostFault s i pasid page write w).cores = s.cores := by simp [State.hostFault]

@[simp] theorem withRead_quiet (s : State) (t : Tag) (pasid : Option (BitVec 20)) (addr : BitVec 64) (len : Nat) (r : HostRead) (k : Bytes → State → State) (hk : ∀ a s, (k a s).pending = s.pending ∧ (k a s).cores = s.cores) :
    (State.withRead s t pasid addr len r k).pending = s.pending ∧ (State.withRead s t pasid addr len r k).cores = s.cores := by unfold State.withRead; (repeat' split) <;> simp_all

@[simp] theorem withWrite_quiet (s : State) (t : Tag) (pasid : Option (BitVec 20)) (addr : BitVec 64) (bs : Bytes) (a : HostAcc) (k : State → State) (hk : ∀ s, (k s).pending = s.pending ∧ (k s).cores = s.cores) :
    (State.withWrite s t pasid addr bs a k).pending = s.pending ∧ (State.withWrite s t pasid addr bs a k).cores = s.cores := by
  unfold State.withWrite
  split
  · simp [hk]
  · dsimp only
    split <;> simp

@[simp] theorem writeCsw_quiet (s : State) (t : Tag) (a : HostAcc) :
    (State.writeCsw s t a).pending = s.pending ∧ (State.writeCsw s t a).cores = s.cores := by unfold State.writeCsw; (repeat' split) <;> simp

@[simp] theorem cswEvent_quiet (s : State) (t : Tag) (mask : BitVec 64) :
    (State.cswEvent s t mask).pending = s.pending ∧ (State.cswEvent s t mask).cores = s.cores := by simp [State.cswEvent]

@[simp] theorem flushCsw_quiet (s : State) (t : Tag) :
    (State.flushCsw s t).pending = s.pending ∧ (State.flushCsw s t).cores = s.cores := by unfold State.flushCsw; (repeat' split) <;> simp (disch := (intros; (repeat' split) <;> first | rfl | simp | simp_all))

@[simp] theorem unparkItem_quiet (s : State) (n : Nat) (total : Nat) :
    (State.unparkItem s n total).pending = s.pending ∧ (State.unparkItem s n total).cores = s.cores := by unfold State.unparkItem; split <;> simp

@[simp] theorem resolved_quiet (s : State) (w : Waiter) :
    (State.resolved s w).pending = s.pending ∧ (State.resolved s w).cores = s.cores := by unfold State.resolved; (repeat' split) <;> simp

@[simp] theorem issueWaiting_quiet (s : State) :
    (State.issueWaiting s).pending = s.pending ∧ (State.issueWaiting s).cores = s.cores := by simp [State.issueWaiting]

@[simp] theorem dropReq_quiet (s : State) (k : PageKey) :
    (State.dropReq s k).pending = s.pending ∧ (State.dropReq s k).cores = s.cores := by simp [State.dropReq]

@[simp] theorem failRequests_quiet (s : State) (i : BitVec 8) :
    (State.failRequests s i).pending = s.pending ∧ (State.failRequests s i).cores = s.cores := by simp [State.failRequests]

@[simp] theorem dropRequests_quiet (s : State) (i : BitVec 8) :
    (State.dropRequests s i).pending = s.pending ∧ (State.dropRequests s i).cores = s.cores := by simp [State.dropRequests]

@[simp] theorem joinBatch_quiet (s : State) (inst : BitVec 8) (sqid : BitVec 12) (q : Sq) (cid : BitVec 16) (nc close : Bool) :
    ((State.joinBatch s inst sqid q cid nc close).1).pending = s.pending ∧ ((State.joinBatch s inst sqid q cid nc close).1).cores = s.cores := by unfold State.joinBatch; split <;> simp

@[simp] theorem fetchEntry_quiet (s : State) (inst : BitVec 8) (sqid : BitVec 12) (q : Sq) (e : BitVec 512) :
    (State.fetchEntry s inst sqid q e).pending = s.pending ∧ (State.fetchEntry s inst sqid q e).cores = s.cores := by simp [State.fetchEntry]

@[simp] theorem malformedEntry_quiet (s : State) (inst : BitVec 8) (sqid : BitVec 12) (q : Sq) (e : BitVec 512) (reason : BitVec 4) :
    (State.malformedEntry s inst sqid q e reason).pending = s.pending ∧ (State.malformedEntry s inst sqid q e reason).cores = s.cores := by simp [State.malformedEntry]

@[simp] theorem scan_quiet (s : State) (inst : BitVec 8) (sqid : BitVec 12) (l : List SqRead) :
    (s.scan inst sqid l).pending = s.pending ∧ (s.scan inst sqid l).cores = s.cores := by
  induction l generalizing s with
  | nil => simp [State.scan]
  | cons r rest ih =>
    unfold State.scan
    dsimp only
    (repeat' split) <;> simp [ih]

@[simp] theorem takeTurn_quiet (s : State) (inst : BitVec 8) (sqid : BitVec 12) :
    (State.takeTurn s inst sqid).pending = s.pending ∧ (State.takeTurn s inst sqid).cores = s.cores := by simp [State.takeTurn]

@[simp] theorem quiesceCheck_quiet (s : State) (inst : BitVec 8) :
    (State.quiesceCheck s inst).pending = s.pending ∧ (State.quiesceCheck s inst).cores = s.cores := by unfold State.quiesceCheck; dsimp only; (repeat' split) <;> simp

@[simp] theorem endTags_quiet (s : State) (inst : BitVec 8) (sqid : BitVec 12) (cids : List (BitVec 16)) :
    (State.endTags s inst sqid cids).pending = s.pending ∧ (State.endTags s inst sqid cids).cores = s.cores := by unfold State.endTags; dsimp only; apply forEach_quiet; intro s x; (repeat' split) <;> simp

@[simp] theorem post_quiet (s : State) (inst : BitVec 8) (cqid : BitVec 12) (cq : Cq) (c : Cpl) :
    (State.post s inst cqid cq c).pending = s.pending ∧ (State.post s inst cqid cq c).cores = s.cores := by simp [State.post]

@[simp] theorem ringSq_quiet (s : State) (inst : BitVec 8) (sqid : BitVec 12) (w : DbWidth) (value : BitVec 64) :
    (State.ringSq s inst sqid w value).pending = s.pending ∧ (State.ringSq s inst sqid w value).cores = s.cores := by unfold State.ringSq; split <;> simp

@[simp] theorem ringCq_quiet (s : State) (inst : BitVec 8) (cqid : BitVec 12) (w : DbWidth) (value : BitVec 64) :
    (State.ringCq s inst cqid w value).pending = s.pending ∧ (State.ringCq s inst cqid w value).cores = s.cores := by unfold State.ringCq; split <;> simp

@[simp] theorem admSizes_quiet (s : State) (inst : BitVec 8) (value : BitVec 32) :
    (State.admSizes s inst value).pending = s.pending ∧ (State.admSizes s inst value).cores = s.cores := by simp [State.admSizes]

@[simp] theorem admEnable_quiet (s : State) (inst : BitVec 8) (value : BitVec 32) :
    (State.admEnable s inst value).pending = s.pending ∧ (State.admEnable s inst value).cores = s.cores := by simp [State.admEnable]

@[simp] theorem admDisable_quiet (s : State) (inst : BitVec 8) (value : BitVec 32) :
    (State.admDisable s inst value).pending = s.pending ∧ (State.admDisable s inst value).cores = s.cores := by simp [State.admDisable]

@[simp] theorem stopCmds_quiet (s : State) (inst : BitVec 8) (sqid : BitVec 12) (stopped : List (BitVec 16)) :
    (State.stopCmds s inst sqid stopped).pending = s.pending ∧ (State.stopCmds s inst sqid stopped).cores = s.cores := by unfold State.stopCmds; apply forEach_quiet; intro s x; (repeat' split) <;> simp

@[simp] theorem drainCmd_quiet (s : State) (t : Tag) (c : Cmd) (d : Drain) (stopped : List (BitVec 16)) :
    (State.drainCmd s t c d stopped).pending = s.pending ∧ (State.drainCmd s t c d stopped).cores = s.cores := by unfold State.drainCmd; dsimp only; (repeat' split) <;> simp

@[simp] theorem addWrite_quiet (s : State) (w : Write) :
    (State.addWrite s w).pending = s.pending ∧ (State.addWrite s w).cores = s.cores := by simp [State.addWrite]

@[simp] theorem setWrites_quiet (s : State) (f : Write → Write) :
    (State.setWrites s f).pending = s.pending ∧ (State.setWrites s f).cores = s.cores := by simp [State.setWrites]

theorem applyRecord_quiet (s : State) (w : Write) (r : State × BitVec 64 × Option Nat × Option Table) (h : s.applyRecord w = .ok r) :
    (r.1).pending = s.pending ∧ (r.1).cores = s.cores := by
  unfold State.applyRecord at h
  (repeat' split at h) <;> simp_all <;> subst h <;> simp

@[simp] theorem settleWrites_quiet (s : State) :
    (State.settleWrites s).pending = s.pending ∧ (State.settleWrites s).cores = s.cores := by unfold State.settleWrites; apply forEach_quiet; intro s x; (repeat' split) <;> simp

@[simp] theorem settleFlushes_quiet (s : State) :
    (State.settleFlushes s).pending = s.pending ∧ (State.settleFlushes s).cores = s.cores := by unfold State.settleFlushes; dsimp only; apply forEach_quiet; intro s x; (repeat' split) <;> simp

@[simp] theorem commitWrite_quiet (s : State) (w : Write) (fwd : Bool) (fwdId : BitVec 32) (refuse : BitVec 15 → State → State) (hrefuse : ∀ a s, (refuse a s).pending = s.pending ∧ (refuse a s).cores = s.cores) :
    (State.commitWrite s w fwd fwdId refuse).pending = s.pending ∧ (State.commitWrite s w fwd fwdId refuse).cores = s.cores := by
  unfold State.commitWrite
  split
  · simp [hrefuse]
  · have h := applyRecord_quiet _ _ _ (by assumption)
    obtain ⟨h1, h2⟩ := h
    dsimp only at h1 h2
    simp [h1, h2]

@[simp] theorem withTable_quiet (s : State) (t : Tag) (c : Cmd) (k : Table → State → State) (hk : ∀ a s, (k a s).pending = s.pending ∧ (k a s).cores = s.cores) :
    (State.withTable s t c k).pending = s.pending ∧ (State.withTable s t c k).cores = s.cores := by unfold State.withTable; (repeat' split) <;> simp_all

@[simp] theorem jobError_quiet (s : State) (j : CompJob) (d : Decoded) :
    (State.jobError s j d).pending = s.pending ∧ (State.jobError s j d).cores = s.cores := by simp [State.jobError]

@[simp] theorem queueJobs_quiet (s : State) (t : Tag) (decode : Bool) (jobs : List CompJob) :
    (State.queueJobs s t decode jobs).pending = s.pending ∧ (State.queueJobs s t decode jobs).cores = s.cores := by simp [State.queueJobs]

@[simp] theorem buildWrite_quiet (s : State) (t : Tag) (c : Cmd) (ty gen : Nat) (vs : Option Vals) :
    (State.buildWrite s t c ty gen vs).pending = s.pending ∧ (State.buildWrite s t c ty gen vs).cores = s.cores := by unfold State.buildWrite; split <;> simp

@[simp] theorem putRefused_quiet (s : State) (i : BitVec 8) (ty : Nat) (bs : Bytes) :
    (State.putRefused s i ty bs).pending = s.pending ∧ (State.putRefused s i ty bs).cores = s.cores := by unfold State.putRefused; split <;> simp

@[simp] theorem pageCrcEvent_quiet (s : State) (i : BitVec 8) (tid : BitVec 16) (col : BitVec 12) (slot : BitVec 20) :
    (State.pageCrcEvent s i tid col slot).pending = s.pending ∧ (State.pageCrcEvent s i tid col slot).cores = s.cores := by simp [State.pageCrcEvent]

theorem commitOwn_quiet (s : State) (w : Write) (refuse : BitVec 15 → State → State) (hrefuse : ∀ a s, (refuse a s).pending = s.pending ∧ (refuse a s).cores = s.cores) :
    (State.commitOwn s w refuse).pending = s.pending ∧ (State.commitOwn s w refuse).cores = s.cores := by
  unfold State.commitOwn
  split
  · simp [hrefuse]
  · rw [(commitWrite_quiet _ w false 0 refuse hrefuse).1, (commitWrite_quiet _ w false 0 refuse hrefuse).2]
    split <;> simp

@[simp] theorem dropQueries_quiet (s : State) (i : BitVec 8) :
    (State.dropQueries s i).pending = s.pending ∧ (State.dropQueries s i).cores = s.cores := by simp [State.dropQueries]

@[simp] theorem stopWrites_quiet (s : State) (i : BitVec 8) (committed : List Tag) :
    (State.stopWrites s i committed).pending = s.pending ∧ (State.stopWrites s i committed).cores = s.cores := by unfold State.stopWrites; apply forEach_quiet; intro s x; (repeat' split) <;> simp

@[simp] theorem dropCommands_quiet (s : State) (i : BitVec 8) :
    ((State.dropCommands s i).1).pending = s.pending ∧ ((State.dropCommands s i).1).cores = s.cores := by simp [State.dropCommands]

@[simp] theorem dropInterrupts_quiet (s : State) (i : BitVec 8) :
    (State.dropInterrupts s i).pending = s.pending ∧ (State.dropInterrupts s i).cores = s.cores := by simp [State.dropInterrupts]

@[simp] theorem forcedStop_quiet (s : State) (i : BitVec 8) (committed : List Tag) :
    ((State.forcedStop s i committed).1).pending = s.pending ∧ ((State.forcedStop s i committed).1).cores = s.cores := by simp [State.forcedStop]

@[simp] theorem resetEffect_quiet (s : State) (i : BitVec 8) :
    (State.resetEffect s i).pending = s.pending ∧ (State.resetEffect s i).cores = s.cores := by simp [State.resetEffect]

@[simp] theorem endQuiesce_quiet (s : State) (t : Option Tag) (discarded : Nat) :
    (State.endQuiesce s t discarded).pending = s.pending ∧ (State.endQuiesce s t discarded).cores = s.cores := by unfold State.endQuiesce; split <;> simp

@[simp] theorem stopForReset_quiet (s : State) (i : BitVec 8) (committed : List Tag) :
    (State.stopForReset s i committed).pending = s.pending ∧ (State.stopForReset s i committed).cores = s.cores := by unfold State.stopForReset; dsimp only; (repeat' split) <;> simp

@[simp] theorem detach_quiet (s : State) (i : BitVec 8) (committed : List Tag) :
    (State.detach s i committed).pending = s.pending ∧ (State.detach s i committed).cores = s.cores := by unfold State.detach; dsimp only; (repeat' split) <;> simp

@[simp] theorem attach_quiet (s : State) (i : BitVec 8) :
    (State.attach s i).pending = s.pending ∧ (State.attach s i).cores = s.cores := by simp [State.attach]

@[simp] theorem attachPort_quiet (s : State) (port : BitVec 2) :
    (State.attachPort s port).pending = s.pending ∧ (State.attachPort s port).cores = s.cores := by simp [State.attachPort]

@[simp] theorem detachPort_quiet (s : State) (port : BitVec 2) (committed : List Tag) :
    (State.detachPort s port committed).pending = s.pending ∧ (State.detachPort s port committed).cores = s.cores := by simp [State.detachPort]

@[simp] theorem flr_quiet (s : State) (inst : BitVec 8) (committed : List Tag) :
    (State.flr s inst committed).pending = s.pending ∧ (State.flr s inst committed).cores = s.cores := by simp [State.flr]

@[simp] theorem serveFlrs_quiet (s : State) :
    (State.serveFlrs s).pending = s.pending ∧ (State.serveFlrs s).cores = s.cores := by simp [State.serveFlrs]

@[simp] theorem unparkSpill_quiet (s : State) (i : BitVec 8) :
    (State.unparkSpill s i).pending = s.pending ∧ (State.unparkSpill s i).cores = s.cores := by simp [State.unparkSpill]

@[simp] theorem ringTenant_quiet (s : State) (writer page : BitVec 8) (value : BitVec 64) :
    (State.ringTenant s writer page value).pending = s.pending ∧ (State.ringTenant s writer page value).cores = s.cores := by unfold State.ringTenant; (repeat' split) <;> simp

@[simp] theorem ringManager_quiet (s : State) (writer page : BitVec 8) (value : BitVec 64) :
    (State.ringManager s writer page value).pending = s.pending ∧ (State.ringManager s writer page value).cores = s.cores := by simp [State.ringManager]

theorem activate_quiet (s : State) (a : Nat) (tag : Option Tag) (t : State) (h : s.activate a tag = .ok t) :
    (t).pending = s.pending ∧ (t).cores = s.cores := by
  unfold State.activate at h
  dsimp only at h
  (repeat' split at h) <;> cases h <;> simp

@[simp] theorem endActivation_quiet (s : State) (a : Activation) (st : BitVec 15) (result : BitVec 64) :
    (State.endActivation s a st result).pending = s.pending ∧ (State.endActivation s a st result).cores = s.cores := by unfold State.endActivation; (repeat' split) <;> simp

@[simp] theorem modChan_quiet (s : State) (n : BitVec 4) (f : Chan → Chan) :
    (State.modChan s n f).pending = s.pending ∧ (State.modChan s n f).cores = s.cores := by simp [State.modChan]

@[simp] theorem modSeg_quiet (s : State) (n : Nat) (f : Segment → Segment) :
    (State.modSeg s n f).pending = s.pending ∧ (State.modSeg s n f).cores = s.cores := by simp [State.modSeg]

@[simp] theorem fetchReq_quiet (s : State) (use : FetchUse) (i : BitVec 8) (tid : BitVec 16) (col : BitVec 12) (slot : BitVec 20) (off len : Nat) (epoch : BitVec 32) (cseq : BitVec 64) :
    (State.fetchReq s use i tid col slot off len epoch cseq).pending = s.pending ∧ (State.fetchReq s use i tid col slot off len epoch cseq).cores = s.cores := by simp [State.fetchReq]

@[simp] theorem dramEvent_quiet (s : State) (id : Nat) (ch : BitVec 4) (rank : BitVec 8) (d1 : BitVec 64) :
    (State.dramEvent s id ch rank d1).pending = s.pending ∧ (State.dramEvent s id ch rank d1).cores = s.cores := by simp [State.dramEvent]

@[simp] theorem scheduleRetrain_quiet (s : State) (ch : BitVec 4) :
    (State.scheduleRetrain s ch).pending = s.pending ∧ (State.scheduleRetrain s ch).cores = s.cores := by simp [State.scheduleRetrain]

@[simp] theorem nextRetrain_quiet (s : State) :
    (State.nextRetrain s).pending = s.pending ∧ (State.nextRetrain s).cores = s.cores := by unfold State.nextRetrain; split <;> simp

@[simp] theorem triggerMigration_quiet (s : State) (ch : BitVec 4) (rank : Nat) :
    (State.triggerMigration s ch rank).pending = s.pending ∧ (State.triggerMigration s ch rank).cores = s.cores := by unfold State.triggerMigration; dsimp only; (repeat' split) <;> simp

@[simp] theorem spareFails_quiet (s : State) (ch : BitVec 4) (sp : Nat) :
    (State.spareFails s ch sp).pending = s.pending ∧ (State.spareFails s ch sp).cores = s.cores := by simp [State.spareFails]

@[simp] theorem corrected_quiet (s : State) (ch : BitVec 4) (rank : BitVec 2) (lane : Option (BitVec 7)) :
    (State.corrected s ch rank lane).pending = s.pending ∧ (State.corrected s ch rank lane).cores = s.cores := by unfold State.corrected; dsimp only; (repeat' split) <;> simp

@[simp] theorem poisonLine_quiet (s : State) (pa : Option Nat) :
    (State.poisonLine s pa).pending = s.pending ∧ (State.poisonLine s pa).cores = s.cores := by unfold State.poisonLine; (repeat' split) <;> simp

@[simp] theorem uncorrectable_quiet (s : State) (ch : BitVec 4) (rank : BitVec 2) (ca : Nat) (inPool : Bool) :
    (State.uncorrectable s ch rank ca inPool).pending = s.pending ∧ (State.uncorrectable s ch rank ca inPool).cores = s.cores := by
  unfold State.uncorrectable
  dsimp only
  split <;> simp

@[simp] theorem lineRead_quiet (s : State) (ch : BitVec 4) (rank : BitVec 2) (ca : Nat) (f : LineFinding) :
    (State.lineRead s ch rank ca f).pending = s.pending ∧ (State.lineRead s ch rank ca f).cores = s.cores := by unfold State.lineRead; split <;> simp

@[simp] theorem refreshStall_quiet (s : State) (n ns : Nat) :
    (State.refreshStall s n ns).pending = s.pending ∧ (State.refreshStall s n ns).cores = s.cores := by unfold State.refreshStall; split <;> simp

@[simp] theorem poisonImages_quiet (s : State) (f : Nat → Bool) :
    (State.poisonImages s f).pending = s.pending ∧ (State.poisonImages s f).cores = s.cores := by simp [State.poisonImages]

@[simp] theorem stopHolders_quiet (s : State) (ch : BitVec 4) :
    (State.stopHolders s ch).pending = s.pending ∧ (State.stopHolders s ch).cores = s.cores := by simp [State.stopHolders]

@[simp] theorem rebuildCheck_quiet (s : State) :
    (State.rebuildCheck s).pending = s.pending ∧ (State.rebuildCheck s).cores = s.cores := by unfold State.rebuildCheck; split <;> simp

@[simp] theorem rebuildLost_quiet (s : State) (ch : BitVec 4) :
    (State.rebuildLost s ch).pending = s.pending ∧ (State.rebuildLost s ch).cores = s.cores := by simp [State.rebuildLost]

@[simp] theorem retireContents_quiet (s : State) (ch : BitVec 4) (onCh : Nat → Bool) :
    (State.retireContents s ch onCh).pending = s.pending ∧ (State.retireContents s ch onCh).cores = s.cores := by
  unfold State.retireContents
  dsimp only
  split
  · simp
  · split
    · refine ⟨(forEach_quiet _ _ _ ?_).1.trans ?_, (forEach_quiet _ _ _ ?_).2.trans ?_⟩
      · intro s x; split <;> simp
      · dsimp only; exact (stopHolders_quiet _ _).1.trans (poisonImages_quiet _ _).1
      · intro s x; split <;> simp
      · dsimp only; exact (stopHolders_quiet _ _).2.trans (poisonImages_quiet _ _).2
    · simp

@[simp] theorem channelFails_quiet (s : State) (ch : BitVec 4) :
    (State.channelFails s ch).pending = s.pending ∧ (State.channelFails s ch).cores = s.cores := by simp [State.channelFails]

@[simp] theorem poolOn_quiet (s : State) (inst : BitVec 8) (value : BitVec 32) :
    (State.poolOn s inst value).pending = s.pending ∧ (State.poolOn s inst value).cores = s.cores := by simp [State.poolOn]

@[simp] theorem poolOff_quiet (s : State) (inst : BitVec 8) (value : BitVec 32) :
    (State.poolOff s inst value).pending = s.pending ∧ (State.poolOff s inst value).cores = s.cores := by simp [State.poolOff]

@[simp] theorem rollBack_quiet (s : State) (w : Write) :
    (State.rollBack s w).pending = s.pending ∧ (State.rollBack s w).cores = s.cores := by unfold State.rollBack; (repeat' split) <;> simp

@[simp] theorem rollBackAll_quiet (s : State) (ws : List Write) :
    (State.rollBackAll s ws).pending = s.pending ∧ (State.rollBackAll s ws).cores = s.cores := by simp [State.rollBackAll]

@[simp] theorem commitCut_quiet (s : State) (drained : List Nat) :
    (State.commitCut s drained).pending = s.pending ∧ (State.commitCut s drained).cores = s.cores := by simp [State.commitCut]

@[simp] theorem setCluster_quiet (s : State) (c : BitVec 3) (v : ClusterState) :
    (State.setCluster s c v).pending = s.pending ∧ (State.setCluster s c v).cores = s.cores := by simp [State.setCluster]

@[simp] theorem unparkPacer_quiet (s : State) (l : Leave) :
    (State.unparkPacer s l).pending = s.pending ∧ (State.unparkPacer s l).cores = s.cores := by unfold State.unparkPacer; split <;> simp

@[simp] theorem releaseLeave_quiet (s : State) (op : LeaveOp) :
    (State.releaseLeave s op).pending = s.pending ∧ (State.releaseLeave s op).cores = s.cores := by simp [State.releaseLeave]

@[simp] theorem setRole_quiet (s : State) (r : Role) :
    (State.setRole s r).pending = s.pending ∧ (State.setRole s r).cores = s.cores := by simp [State.setRole]

@[simp] theorem becomePaired_quiet (s : State) (lead : Bool) :
    (State.becomePaired s lead).pending = s.pending ∧ (State.becomePaired s lead).cores = s.cores := by simp [State.becomePaired]

@[simp] theorem becomeSolo_quiet (s : State) :
    (State.becomeSolo s).pending = s.pending ∧ (State.becomeSolo s).cores = s.cores := by unfold State.becomeSolo; dsimp only; (repeat' split) <;> simp

@[simp] theorem becomeFenced_quiet (s : State) :
    (State.becomeFenced s).pending = s.pending ∧ (State.becomeFenced s).cores = s.cores := by simp [State.becomeFenced]

@[simp] theorem fence_quiet (s : State) :
    (State.fence s).pending = s.pending ∧ (State.fence s).cores = s.cores := by simp [State.fence]

@[simp] theorem lossDecision_quiet (s : State) :
    (State.lossDecision s).pending = s.pending ∧ (State.lossDecision s).cores = s.cores := by simp [State.lossDecision]

@[simp] theorem resyncPartner_quiet (s : State) (pj : BitVec 64) :
    (State.resyncPartner s pj).pending = s.pending ∧ (State.resyncPartner s pj).cores = s.cores := by simp [State.resyncPartner]

@[simp] theorem beginSync_quiet (s : State) :
    (State.beginSync s).pending = s.pending ∧ (State.beginSync s).cores = s.cores := by simp [State.beginSync]

@[simp] theorem pairEvent_quiet (s : State) (role : Nat) (epoch : BitVec 32) (jpos : BitVec 64) :
    (State.pairEvent s role epoch jpos).pending = s.pending ∧ (State.pairEvent s role epoch jpos).cores = s.cores := by unfold State.pairEvent; split <;> simp

@[simp] theorem sendApplied_quiet (s : State) (tag : BitVec 32) (w : Write) (fwd : Bool) (status : BitVec 15) :
    (State.sendApplied s tag w fwd status).pending = s.pending ∧ (State.sendApplied s tag w fwd status).cores = s.cores := by simp [State.sendApplied]

@[simp] theorem applyMirror_quiet (s : State) (w : Write) (mine : Option Write) :
    (State.applyMirror s w mine).pending = s.pending ∧ (State.applyMirror s w mine).cores = s.cores := by
  unfold State.applyMirror
  dsimp only
  split
  · simp
  · have h := applyRecord_quiet _ _ _ (by assumption)
    (repeat' split) <;> simp_all

@[simp] theorem rebuilt_quiet (s : State) (n : Nat) (bs : Option Bytes) :
    (State.rebuilt s n bs).pending = s.pending ∧ (State.rebuilt s n bs).cores = s.cores := by unfold State.rebuilt; (repeat' split) <;> simp

@[simp] theorem casSend_quiet (s : State) (c : BitVec 4) (key mask : BitVec 320) :
    (State.casSend s c key mask).pending = s.pending ∧ (State.casSend s c key mask).cores = s.cores := by unfold State.casSend; (repeat' split) <;> simp

@[simp] theorem sendNeeds_quiet (s : State) (n : Needs) :
    (State.sendNeeds s n).pending = s.pending ∧ (State.sendNeeds s n).cores = s.cores := by simp [State.sendNeeds]

@[simp] theorem pointerMismatch_quiet (s : State) (r : StreamRef) :
    (State.pointerMismatch s r).pending = s.pending ∧ (State.pointerMismatch s r).cores = s.cores := by unfold State.pointerMismatch; split <;> simp

@[simp] theorem grow_quiet (s : State) (r : StreamRef) :
    (State.grow s r).pending = s.pending ∧ (State.grow s r).cores = s.cores := by unfold State.grow; split <;> simp

@[simp] theorem commitWord_quiet (s : State) (r : StreamRef) (owner : Nat) (w : BitVec 512) (vb : BitVec 7) :
    ((State.commitWord s r owner w vb).1).pending = s.pending ∧ ((State.commitWord s r owner w vb).1).cores = s.cores := by unfold State.commitWord; dsimp only; (repeat' split) <;> simp

@[simp] theorem wordCorrected_quiet (s : State) (r : StreamRef) :
    (State.wordCorrected s r).pending = s.pending ∧ (State.wordCorrected s r).cores = s.cores := by unfold State.wordCorrected; split <;> simp

@[simp] theorem wordLost_quiet (s : State) (r : StreamRef) (item : Nat) :
    (State.wordLost s r item).pending = s.pending ∧ (State.wordLost s r item).cores = s.cores := by unfold State.wordLost; split <;> simp

@[simp] theorem badStream_quiet (s : State) (r : StreamRef) :
    (State.badStream s r).pending = s.pending ∧ (State.badStream s r).cores = s.cores := by simp [State.badStream]

@[simp] theorem badParams_quiet (s : State) (t : Tag) (op : BitVec 16) :
    (State.badParams s t op).pending = s.pending ∧ (State.badParams s t op).cores = s.cores := by simp [State.badParams]

@[simp] theorem endStream_quiet (s : State) (r : StreamRef) :
    (State.endStream s r).pending = s.pending ∧ (State.endStream s r).cores = s.cores := by unfold State.endStream; split <;> simp

@[simp] theorem scanJobError_quiet (s : State) (q : Query) (v : ColView) (pages : List SegPage) :
    (State.scanJobError s q v pages).pending = s.pending ∧ (State.scanJobError s q v pages).cores = s.cores := by unfold State.scanJobError; split <;> simp

@[simp] theorem readStop_quiet (s : State) (q : Query) (tid : BitVec 16) (col : BitVec 12) (slot : BitVec 20) (v : ColView) (r : ReadEnd) (pages : List SegPage) :
    (State.readStop s q tid col slot v r pages).pending = s.pending ∧ (State.readStop s q tid col slot v r pages).cores = s.cores := by unfold State.readStop; split <;> simp

@[simp] theorem scanFill_quiet (s : State) (q : Query) (im : Image) (o : OpDesc) (i : Item) :
    (State.scanFill s q im o i).pending = s.pending ∧ (State.scanFill s q im o i).cores = s.cores := by unfold State.scanFill; dsimp only; (repeat' split) <;> simp

@[simp] theorem newItem_quiet (s : State) (q : Query) (o : OpDesc) (op : BitVec 16) (flow : BitVec 8) (origin : BitVec 64) (count : Nat) (outq : List OutWord) :
    (State.newItem s q o op flow origin count outq).pending = s.pending ∧ (State.newItem s q o op flow origin count outq).cores = s.cores := by unfold State.newItem; split <;> simp

@[simp] theorem endOp_quiet (s : State) (q : Query) (o : OpDesc) (op : BitVec 16) (c : OpCtx) :
    (State.endOp s q o op c).pending = s.pending ∧ (State.endOp s q o op c).cores = s.cores := by unfold State.endOp; (repeat' split) <;> simp (disch := (intros; (repeat' split) <;> first | rfl | simp | simp_all))

@[simp] theorem endOps_quiet (q : Query) (im : Image) (n : Nat) (s : State) :
    (State.endOps q im n s).pending = s.pending ∧ (State.endOps q im n s).cores = s.cores := by
  induction n generalizing s with
  | zero => simp [State.endOps]
  | succ n ih => unfold State.endOps; split <;> simp [ih]

@[simp] theorem xchCtrl_quiet (s : State) (x : Xch) (code : Byte) :
    (State.xchCtrl s x code).pending = s.pending ∧ (State.xchCtrl s x code).cores = s.cores := by simp [State.xchCtrl]

@[simp] theorem xchEnds_quiet (s : State) (q : Query) (im : Image) :
    (State.xchEnds s q im).pending = s.pending ∧ (State.xchEnds s q im).cores = s.cores := by
  unfold State.xchEnds
  apply forEach_quiet
  intro s e
  (repeat' split) <;> simp

@[simp] theorem settleOps_quiet (s : State) (t : Tag) :
    (State.settleOps s t).pending = s.pending ∧ (State.settleOps s t).cores = s.cores := by
  unfold State.settleOps
  (repeat' split) <;> simp

@[simp] theorem offerWord_quiet (s : State) (r : StreamRef) (owner : Nat) (w : BitVec 512) :
    ((State.offerWord s r owner w).1).pending = s.pending ∧ ((State.offerWord s r owner w).1).cores = s.cores := by
  unfold State.offerWord
  dsimp only
  (repeat' split) <;> simp

theorem pushWords_quiet (r : StreamRef) (owner : Nat) (l : List (BitVec 512)) (s t : State) (h : State.pushWords r owner l s = some t) :
    (t).pending = s.pending ∧ (t).cores = s.cores := by
  induction l generalizing s with
  | nil => simp [State.pushWords] at h; simp [h]
  | cons w ws ih =>
    unfold State.pushWords at h
    dsimp only at h
    split at h
    · simpa using ih _ h
    · cases h

@[simp] theorem takeSpill_quiet (s : State) (t : Tag) (op : BitVec 16) :
    (State.takeSpill s t op).pending = s.pending ∧ (State.takeSpill s t op).cores = s.cores := by unfold State.takeSpill; split <;> simp

@[simp] theorem pairItem_quiet (s : State) (q : Query) (im : Image) (o : OpDesc) (op : BitVec 16) (c : OpCtx) :
    (State.pairItem s q im o op c).pending = s.pending ∧ (State.pairItem s q im o op c).cores = s.cores := by unfold State.pairItem; dsimp only; (repeat' split) <;> simp

@[simp] theorem pairJoin_quiet (s : State) (q : Query) (im : Image) (o : OpDesc) (c : OpCtx) (i : Item) :
    (State.pairJoin s q im o c i).pending = s.pending ∧ (State.pairJoin s q im o c i).cores = s.cores := by unfold State.pairJoin; split <;> simp

@[simp] theorem aggSettle_quiet (s : State) (q : Query) (o : OpDesc) (op : BitVec 16) :
    (State.aggSettle s q o op).pending = s.pending ∧ (State.aggSettle s q o op).cores = s.cores := by unfold State.aggSettle; split <;> simp

@[simp] theorem aggMergeItem_quiet (s : State) (q : Query) (o : OpDesc) (op : BitVec 16) (flow : BitVec 8) :
    (State.aggMergeItem s q o op flow).pending = s.pending ∧ (State.aggMergeItem s q o op flow).cores = s.cores := by unfold State.aggMergeItem; dsimp only; (repeat' split) <;> simp

@[simp] theorem mergeStep_quiet (s : State) (q : Query) (im : Image) (o : OpDesc) (c : OpCtx) (i : Item) (part : BitVec 8) :
    (State.mergeStep s q im o c i part).pending = s.pending ∧ (State.mergeStep s q im o c i part).cores = s.cores := by unfold State.mergeStep; (repeat' split) <;> simp

@[simp] theorem mergeItem_quiet (s : State) (q : Query) (o : OpDesc) (op : BitVec 16) (c : OpCtx) :
    (State.mergeItem s q o op c).pending = s.pending ∧ (State.mergeItem s q o op c).cores = s.cores := by simp [State.mergeItem]

@[simp] theorem mergeTail_quiet (s : State) (q : Query) (o : OpDesc) (op : BitVec 16) (c : OpCtx) :
    (State.mergeTail s q o op c).pending = s.pending ∧ (State.mergeTail s q o op c).cores = s.cores := by simp [State.mergeTail]

@[simp] theorem unionClaim_quiet (s : State) (q : Query) (i : Item) :
    (State.unionClaim s q i).pending = s.pending ∧ (State.unionClaim s q i).cores = s.cores := by unfold State.unionClaim; split <;> simp

@[simp] theorem unionLeft_quiet (s : State) (q : Query) (i : Item) :
    (State.unionLeft s q i).pending = s.pending ∧ (State.unionLeft s q i).cores = s.cores := by unfold State.unionLeft; split <;> simp

@[simp] theorem gatherSeen_quiet (s : State) (q : Query) (im : Image) (o : OpDesc) (i : Item) (f : Frame) (host : List HostRead) :
    (State.gatherSeen s q im o i f host).pending = s.pending ∧ (State.gatherSeen s q im o i f host).cores = s.cores := by unfold State.gatherSeen; dsimp only; split <;> simp

@[simp] theorem xchRegister_quiet (s : State) (t : Tag) (im : Image) (params : Bytes) (o : OpDesc) (op : BitVec 16) :
    (State.xchRegister s t im params o op).pending = s.pending ∧ (State.xchRegister s t im params o op).cores = s.cores := by simp [State.xchRegister]

@[simp] theorem setXch_quiet (s : State) (x : Xch) :
    (State.setXch s x).pending = s.pending ∧ (State.setXch s x).cores = s.cores := by simp [State.setXch]

@[simp] theorem xchRound_quiet (s : State) (x : Xch) (l : List (BitVec 16)) (f : List XchFrame) :
    ((s.xchRound x l f).1).pending = s.pending ∧ ((s.xchRound x l f).1).cores = s.cores := by
  induction f generalizing s x l with
  | nil => simp [State.xchRound]
  | cons f fs ih => unfold State.xchRound; dsimp only; (repeat' split) <;> simp [ih]

@[simp] theorem xchRounds_quiet (s : State) (x : Xch) (n : Nat) (l : List XchFrame) :
    ((s.xchRounds x n l).1).pending = s.pending ∧ ((s.xchRounds x n l).1).cores = s.cores := by
  induction n generalizing s x l with
  | zero => simp [State.xchRounds]
  | succ n ih => unfold State.xchRounds; dsimp only; split <;> simp [ih]

@[simp] theorem xchPump_quiet (s : State) (xid : BitVec 32) :
    (State.xchPump s xid).pending = s.pending ∧ (State.xchPump s xid).cores = s.cores := by unfold State.xchPump; (repeat' split) <;> simp

@[simp] theorem xchFlush_quiet (s : State) (n : Nat) :
    (State.xchFlush s n).pending = s.pending ∧ (State.xchFlush s n).cores = s.cores := by unfold State.xchFlush; (repeat' split) <;> simp

@[simp] theorem xchCommit_quiet (s : State) (r : StreamRef) (o n : Nat) (x : XchIn) :
    ((s.xchCommit r o n x).1).pending = s.pending ∧ ((s.xchCommit r o n x).1).cores = s.cores := by
  induction n generalizing s x with
  | zero => simp [State.xchCommit]
  | succ n ih => unfold State.xchCommit; dsimp only; (repeat' split) <;> simp [ih]

@[simp] theorem xchInbox_quiet (s : State) (xid : BitVec 32) (r : StreamRef) (n : BitVec 16) (l : List XchIn) :
    ((s.xchInbox xid r n l).1).pending = s.pending ∧ ((s.xchInbox xid r n l).1).cores = s.cores := by
  induction l generalizing s with
  | nil => simp [State.xchInbox]
  | cons x xs ih => unfold State.xchInbox; dsimp only; (repeat' split) <;> simp [ih]

@[simp] theorem xchDrain_quiet (s : State) (xid : BitVec 32) :
    (State.xchDrain s xid).pending = s.pending ∧ (State.xchDrain s xid).cores = s.cores := by unfold State.xchDrain; (repeat' split) <;> simp (disch := (intros; (repeat' split) <;> first | rfl | simp | simp_all))

@[simp] theorem settle_quiet (s : State) (t : Tag) :
    (State.settle s t).pending = s.pending ∧ (State.settle s t).cores = s.cores := by simp [State.settle]

@[simp] theorem modChain_quiet (s : State) (t : Tag) (n : Nat) (f : Chain → Chain) :
    (State.modChain s t n f).pending = s.pending ∧ (State.modChain s t n f).cores = s.cores := by simp [State.modChain]

@[simp] theorem chainWrite_quiet (s : State) (q : Query) (n : Nat) (bs : Bytes) (acc : HostAcc) :
    ((State.chainWrite s q n bs acc).1).pending = s.pending ∧ ((State.chainWrite s q n bs acc).1).cores = s.cores := by unfold State.chainWrite; (repeat' split) <;> simp

@[simp] theorem writeStaged_quiet (s : State) (r : Runner) (i : Item) (q : Query) (o : OpDesc) (unit done : Nat) (acc : HostAcc) :
    (State.writeStaged s r i q o unit done acc).pending = s.pending ∧ (State.writeStaged s r i q o unit done acc).cores = s.cores := by unfold State.writeStaged; dsimp only; (repeat' split) <;> simp

@[simp] theorem doneFrame_quiet (s : State) (q : Query) (o : OpDesc) (i : Item) (port : BitVec 3) (rows : Nat) :
    (State.doneFrame s q o i port rows).pending = s.pending ∧ (State.doneFrame s q o i port rows).cores = s.cores := by unfold State.doneFrame; (repeat' split) <;> simp

@[simp] theorem jobServed_quiet (s : State) (w : JobWait) :
    (State.jobServed s w).pending = s.pending ∧ (State.jobServed s w).cores = s.cores := by unfold State.jobServed; split <;> simp

@[simp] theorem decodeEnds_quiet (s : State) (engine : BitVec 3) (job : CompJob) :
    (State.decodeEnds s engine job).pending = s.pending ∧ (State.decodeEnds s engine job).cores = s.cores := by unfold State.decodeEnds; simp

@[simp] theorem encodeEnds_quiet (s : State) (engine : BitVec 3) (job : CompJob) :
    (State.encodeEnds s engine job).pending = s.pending ∧ (State.encodeEnds s engine job).cores = s.cores := by simp [State.encodeEnds]

@[simp] theorem failQuery_quiet (s : State) (t : Tag) (e : ImgErr) :
    (State.failQuery s t e).pending = s.pending ∧ (State.failQuery s t e).cores = s.cores := by simp [State.failQuery]

@[simp] theorem queryRead_quiet (s : State) (q : Query) (addr : BitVec 64) (len : Nat) (r : HostRead) (k : Bytes → State → State) (hk : ∀ a s, (k a s).pending = s.pending ∧ (k a s).cores = s.cores) :
    (State.queryRead s q addr len r k).pending = s.pending ∧ (State.queryRead s q addr len r k).cores = s.cores := by unfold State.queryRead; (repeat' split) <;> simp_all

@[simp] theorem readHeads_quiet (s : State) (q : Query) (n : Nat) (a : List (BitVec 64)) (r : List HostRead) (acc : List Chain)
    (k : List Chain → State → State) (hk : ∀ c s, (k c s).pending = s.pending ∧ (k c s).cores = s.cores) :
    (s.readHeads q n a r acc k).pending = s.pending ∧ (s.readHeads q n a r acc k).cores = s.cores := by
  induction a generalizing s n r acc with
  | nil => simp [State.readHeads, hk]
  | cons a as ih =>
    cases r with
    | nil => simp [State.readHeads]
    | cons r rs =>
      unfold State.readHeads
      apply queryRead_quiet
      intro b s
      split <;> simp [ih]

@[simp] theorem addFlows_quiet (s : State) (t : Tag) (im : Image) :
    (State.addFlows s t im).pending = s.pending ∧ (State.addFlows s t im).cores = s.cores := by unfold State.addFlows; dsimp only; apply forEach_quiet; intro s x; (repeat' split) <;> simp

@[simp] theorem addStreams_quiet (s : State) (t : Tag) (im : Image) :
    (State.addStreams s t im).pending = s.pending ∧ (State.addStreams s t im).cores = s.cores := by simp [State.addStreams]

@[simp] theorem casRegister_quiet (s : State) (q : Query) :
    (State.casRegister s q).pending = s.pending ∧ (State.casRegister s q).cores = s.cores := by unfold State.casRegister; apply forEach_quiet; intro s x; (repeat' split) <;> simp

@[simp] theorem startOps_quiet (s : State) (t : Tag) (im : Image) :
    (State.startOps s t im).pending = s.pending ∧ (State.startOps s t im).cores = s.cores := by unfold State.startOps; apply forEach_quiet; intro s x; (repeat' split) <;> simp

@[simp] theorem enterRunning_quiet (s : State) (t : Tag) (csw : HostAcc) :
    (State.enterRunning s t csw).pending = s.pending ∧ (State.enterRunning s t csw).cores = s.cores := by unfold State.enterRunning; (repeat' split) <;> simp (disch := (intros; (repeat' split) <;> first | rfl | simp | simp_all))

@[simp] theorem admitQuery_quiet (s : State) (t : Tag) (csw : HostAcc) :
    (State.admitQuery s t csw).pending = s.pending ∧ (State.admitQuery s t csw).cores = s.cores := by unfold State.admitQuery; dsimp only; (repeat' split) <;> simp (disch := (intros; (repeat' split) <;> first | rfl | simp | simp_all))

@[simp] theorem validated_quiet (s : State) (t : Tag) (im : Image) (csw : HostAcc) :
    (State.validated s t im csw).pending = s.pending ∧ (State.validated s t im csw).cores = s.cores := by unfold State.validated; (repeat' split) <;> simp

@[simp] theorem queryDoneAcc_quiet (s : State) (t : Tag) (status : BitVec 15) (csw : HostAcc) :
    (State.queryDoneAcc s t status csw).pending = s.pending ∧ (State.queryDoneAcc s t status csw).cores = s.cores := by simp [State.queryDoneAcc]

@[simp] theorem linkSeen_quiet (s : State) (q : Query) (c : Chain) (lr : LinkRead) :
    (State.linkSeen s q c lr).pending = s.pending ∧ (State.linkSeen s q c lr).cores = s.cores := by unfold State.linkSeen; dsimp only; (repeat' split) <;> simp

@[simp] theorem chainEndEvent_quiet (s : State) (t : Tag) :
    (State.chainEndEvent s t).pending = s.pending ∧ (State.chainEndEvent s t).cores = s.cores := by unfold State.chainEndEvent; split <;> simp

@[simp] theorem chainAtEnd_quiet (s : State) (t : Tag) (n : Nat) (csw : HostAcc) :
    (State.chainAtEnd s t n csw).pending = s.pending ∧ (State.chainAtEnd s t n csw).cores = s.cores := by simp [State.chainAtEnd]

@[simp] theorem leftEnd_quiet (s : State) (t : Tag) (csw : HostAcc) :
    (State.leftEnd s t csw).pending = s.pending ∧ (State.leftEnd s t csw).cores = s.cores := by unfold State.leftEnd; split <;> simp

@[simp] theorem brokenChain_quiet (s : State) (t : Tag) (n : Nat) :
    (State.brokenChain s t n).pending = s.pending ∧ (State.brokenChain s t n).cores = s.cores := by simp [State.brokenChain]

@[simp] theorem resumeChain_quiet (s : State) (t : Tag) (n : Nat) (lr : LinkRead) :
    ((State.resumeChain s t n lr).1).pending = s.pending ∧ ((State.resumeChain s t n lr).1).cores = s.cores := by unfold State.resumeChain; dsimp only; (repeat' split) <;> simp

@[simp] theorem computeItem_quiet (s : State) (q : Query) (im : Image) (o : OpDesc) (op : BitVec 16) :
    (State.computeItem s q im o op).pending = s.pending ∧ (State.computeItem s q im o op).cores = s.cores := by unfold State.computeItem; dsimp only; (repeat' split) <;> simp

@[simp] theorem slotItem_quiet (s : State) (r : Runner) (i : Item) :
    (State.slotItem s r i).pending = s.pending ∧ (State.slotItem s r i).cores = s.cores := by simp [State.slotItem]

@[simp] theorem returnItem_quiet (s : State) (n : Nat) (lastStop : BitVec 8) :
    (State.returnItem s n lastStop).pending = s.pending ∧ (State.returnItem s n lastStop).cores = s.cores := by simp [State.returnItem]

@[simp] theorem recallSlot_quiet (s : State) (r : Runner) :
    (State.recallSlot s r).pending = s.pending ∧ (State.recallSlot s r).cores = s.cores := by unfold State.recallSlot; split <;> simp

@[simp] theorem parkPacer_quiet (s : State) (mine : List Item) :
    (State.parkPacer s mine).pending = s.pending ∧ (State.parkPacer s mine).cores = s.cores := by simp [State.parkPacer]

@[simp] theorem releaseOutputs_quiet (s : State) (q : Query) (o : OpDesc) (n : Nat) (commit : Bool) :
    (State.releaseOutputs s q o n commit).pending = s.pending ∧ (State.releaseOutputs s q o n commit).cores = s.cores := by unfold State.releaseOutputs; apply forEach_quiet; intro s x; (repeat' split) <;> simp

@[simp] theorem returnWords_quiet (s : State) (q : Query) (o : OpDesc) (n : Nat) :
    (State.returnWords s q o n).pending = s.pending ∧ (State.returnWords s q o n).cores = s.cores := by unfold State.returnWords; dsimp only; apply forEach_quiet; intro s x; (repeat' split) <;> simp

@[simp] theorem saveStop_quiet (s : State) (o : OpDesc) (i : Item) (c : OpCtx) :
    (State.saveStop s o i c).pending = s.pending ∧ (State.saveStop s o i c).cores = s.cores := by simp [State.saveStop]

@[simp] theorem dropItem_quiet (s : State) (i : Item) :
    (State.dropItem s i).pending = s.pending ∧ (State.dropItem s i).cores = s.cores := by simp [State.dropItem]

theorem discardRange_quiet (s : State) (q : Query) (o : OpDesc) (i : Item) (t : State) (h : s.discardRange q o i = some t) :
    (t).pending = s.pending ∧ (t).cores = s.cores := by
  unfold State.discardRange at h
  dsimp only at h
  (repeat' split at h) <;> cases h <;> simp

@[simp] theorem handOver_quiet (s : State) (q : Query) (o : OpDesc) (n : Nat) :
    (State.handOver s q o n).pending = s.pending ∧ (State.handOver s q o n).cores = s.cores := by unfold State.handOver; apply forEach_quiet; intro s x; (repeat' split) <;> simp

@[simp] theorem parkDue_quiet (s : State) (q : Query) (i : Item) :
    (State.parkDue s q i).pending = s.pending ∧ (State.parkDue s q i).cores = s.cores := by unfold State.parkDue; split <;> simp

@[simp] theorem workFrame_quiet (s : State) (q : Query) (im : Image) (o : OpDesc) (c : OpCtx) (i : Item) (port : BitVec 3) (x : StreamRef) (bs : Bytes) (host : List HostRead) :
    (State.workFrame s q im o c i port x bs host).pending = s.pending ∧ (State.workFrame s q im o c i port x bs host).cores = s.cores := by unfold State.workFrame; dsimp only; (repeat' split) <;> simp

@[simp] theorem answerReady_quiet (s : State) :
    (State.answerReady s).pending = s.pending ∧ (State.answerReady s).cores = s.cores := by simp [State.answerReady]

@[simp] theorem parityError_quiet (s : State) (pod : BitVec 4) (entry : Nat) :
    (State.parityError s pod entry).pending = s.pending ∧ (State.parityError s pod entry).cores = s.cores := by simp [State.parityError]

@[simp] theorem writeCascfg_quiet (s : State) (value : BitVec 32) :
    (State.writeCascfg s value).pending = s.pending ∧ (State.writeCascfg s value).cores = s.cores := by simp [State.writeCascfg]

@[simp] theorem cascadeErr_quiet (s : State) (casId : BitVec 32) :
    (State.cascadeErr s casId).pending = s.pending ∧ (State.cascadeErr s casId).cores = s.cores := by simp [State.cascadeErr]

@[simp] theorem breakCascade_quiet (s : State) :
    (State.breakCascade s).pending = s.pending ∧ (State.breakCascade s).cores = s.cores := by simp [State.breakCascade]

@[simp] theorem casAnswer_quiet (s : State) (c : CasSlot) (w : CasResult) :
    (State.casAnswer s c w).pending = s.pending ∧ (State.casAnswer s c w).cores = s.cores := by simp [State.casAnswer]

@[simp] theorem setDisc_quiet (s : State) (d : Discovery) :
    (State.setDisc s d).pending = s.pending ∧ (State.setDisc s d).cores = s.cores := by simp [State.setDisc]

@[simp] theorem dropFetches_quiet (s : State) :
    (State.dropFetches s).pending = s.pending ∧ (State.dropFetches s).cores = s.cores := by unfold State.dropFetches; dsimp only; (repeat' split) <;> simp

@[simp] theorem stopXchs_quiet (s : State) (f : Xch → Bool) :
    (State.stopXchs s f).pending = s.pending ∧ (State.stopXchs s f).cores = s.cores := by simp [State.stopXchs]

@[simp] theorem floodConflict_quiet (s : State) (ports : List (BitVec 2)) :
    (State.floodConflict s ports).pending = s.pending ∧ (State.floodConflict s ports).cores = s.cores := by simp [State.floodConflict]

@[simp] theorem enterConflict_quiet (s : State) :
    (State.enterConflict s).pending = s.pending ∧ (State.enterConflict s).cores = s.cores := by simp [State.enterConflict]

@[simp] theorem sendBaton_quiet (s : State) (port : BitVec 2) (nextId subtree kind : Nat) :
    (State.sendBaton s port nextId subtree kind).pending = s.pending ∧ (State.sendBaton s port nextId subtree kind).cores = s.cores := by simp [State.sendBaton]

@[simp] theorem endDiscovery_quiet (s : State) (nodes : Nat) :
    (State.endDiscovery s nodes).pending = s.pending ∧ (State.endDiscovery s nodes).cores = s.cores := by simp [State.endDiscovery]

@[simp] theorem batonNext_quiet (s : State) (after : Nat) :
    (State.batonNext s after).pending = s.pending ∧ (State.batonNext s after).cores = s.cores := by unfold State.batonNext; dsimp only; (repeat' split) <;> simp

@[simp] theorem applyLinkEn_quiet (s : State) :
    (State.applyLinkEn s).pending = s.pending ∧ (State.applyLinkEn s).cores = s.cores := by
  unfold State.applyLinkEn
  apply forEach_quiet
  intro s p
  simp

@[simp] theorem beforeDiscovery_quiet (s : State) :
    (State.beforeDiscovery s).pending = s.pending ∧ (State.beforeDiscovery s).cores = s.cores := by simp [State.beforeDiscovery]

@[simp] theorem writePeerCtrl_quiet (s : State) (value : BitVec 32) :
    (State.writePeerCtrl s value).pending = s.pending ∧ (State.writePeerCtrl s value).cores = s.cores := by simp [State.writePeerCtrl]

@[simp] theorem recover_quiet (s : State) :
    (State.recover s).pending = s.pending ∧ (State.recover s).cores = s.cores := by simp [State.recover]

@[simp] theorem managerInst_quiet (s : State) :
    (State.managerInst s).pending = s.pending ∧ (State.managerInst s).cores = s.cores := by unfold State.managerInst; split <;> simp

@[simp] theorem fitChannel_quiet (s : State) (ch : BitVec 4) (f : ChannelFit) :
    (State.fitChannel s ch f).pending = s.pending ∧ (State.fitChannel s ch f).cores = s.cores := by simp [State.fitChannel]

@[simp] theorem writeAdmBase_quiet (s : State) (i : BitVec 8) (sq : Bool) (v : BitVec 64) :
    (State.writeAdmBase s i sq v).pending = s.pending ∧ (State.writeAdmBase s i sq v).cores = s.cores := by simp [State.writeAdmBase]

@[simp] theorem writePend_quiet (s : State) (i : BitVec 8) (j : Nat) (v : BitVec 64) :
    (State.writePend s i j v).pending = s.pending ∧ (State.writePend s i j v).cores = s.cores := by simp [State.writePend]

@[simp] theorem writeRoute_quiet (s : State) (i : BitVec 8) (n : Nat) (v : BitVec 64) :
    (State.writeRoute s i n v).pending = s.pending ∧ (State.writeRoute s i n v).cores = s.cores := by simp [State.writeRoute]

@[simp] theorem writeChcfg_quiet (s : State) (n : Nat) (v : BitVec 64) :
    (State.writeChcfg s n v).pending = s.pending ∧ (State.writeChcfg s n v).cores = s.cores := by simp [State.writeChcfg]

@[simp] theorem writeMap_quiet (s : State) (n : Nat) (v : BitVec 64) :
    (State.writeMap s n v).pending = s.pending ∧ (State.writeMap s n v).cores = s.cores := by simp [State.writeMap]

@[simp] theorem writePwrCfg_quiet (s : State) (v : BitVec 64) :
    (State.writePwrCfg s v).pending = s.pending ∧ (State.writePwrCfg s v).cores = s.cores := by simp [State.writePwrCfg]

@[simp] theorem writeVecCtrl_quiet (s : State) (i : BitVec 8) (v : BitVec 11) (masked : Bool) :
    (State.writeVecCtrl s i v masked).pending = s.pending ∧ (State.writeVecCtrl s i v masked).cores = s.cores := by simp [State.writeVecCtrl]

@[simp] theorem writeReg_quiet (s : State) (i : BitVec 8) (r : Reg) (v : BitVec 64) :
    (State.writeReg s i r v).pending = s.pending ∧ (State.writeReg s i r v).cores = s.cores := by unfold State.writeReg; split <;> simp

@[simp] theorem setMsixWord_quiet (s : State) (i : BitVec 8) (o : Nat) (w : BitVec 32) :
    (State.setMsixWord s i o w).pending = s.pending ∧ (State.setMsixWord s i o w).cores = s.cores := by unfold State.setMsixWord; split <;> simp

@[simp] theorem writeMsix_quiet (s : State) (i : BitVec 8) (o size : Nat) (v : BitVec 64) :
    (State.writeMsix s i o size v).pending = s.pending ∧ (State.writeMsix s i o size v).cores = s.cores := by simp [State.writeMsix]

@[simp] theorem writeAt_quiet (s : State) (i : BitVec 8) (off o size : Nat) (b : Block) (v : BitVec 64) :
    (State.writeAt s i off o size b v).pending = s.pending ∧ (State.writeAt s i off o size b v).cores = s.cores := by unfold State.writeAt; split <;> simp

@[simp] theorem writeDoorbell_quiet (s : State) (i : BitVec 8) (off size : Nat) (v : BitVec 64) :
    (State.writeDoorbell s i off size v).pending = s.pending ∧ (State.writeDoorbell s i off size v).cores = s.cores := by unfold State.writeDoorbell; (repeat' split) <;> simp

@[simp] theorem writeLiaison_quiet (s : State) (i page : BitVec 8) (o : Nat) (l : Bytes) :
    (s.writeLiaison i page o l).pending = s.pending ∧ (s.writeLiaison i page o l).cores = s.cores := by
  induction l generalizing s o with
  | nil => simp [State.writeLiaison]
  | cons b bs ih => unfold State.writeLiaison; dsimp only; (repeat' split) <;> simp [ih]

@[simp] theorem writeEnables_quiet (s : State) (i : BitVec 8) (v : BitVec 64) :
    (State.writeEnables s i v).pending = s.pending ∧ (State.writeEnables s i v).cores = s.cores := by simp [State.writeEnables]

end Sys2Proof.Machine
end

