-- ==== Sys2Proof/Laws/Vectors.lean ====
section
/-! SUPPORT. Elements of a vector register, and what the steps of an elementwise instruction leave. -/

namespace Sys2Proof.Machine

open Sys2Proof.Claims

theorem Core.eb_pos (c : Core) : 0 < c.eb := Nat.pos_of_ne_zero (by simp [Core.eb])

theorem elem_eq_lane (c : Core) (v : BitVec 2048) (j : Nat) : elem v c.eb j = lane c.sew v j := by
  unfold elem lane Core.eb
  rw [BitVec.extractLsb'_toNat, BitVec.toNat_ushiftRight]

theorem elem_lt (v : BitVec 2048) (eb j : Nat) : elem v eb j < 2 ^ (8 * eb) := Nat.mod_lt _ (Nat.pow_pos (by decide))

/-- A bit of a written register: of the element written, or of the old register. -/
theorem getLsbD_setElem (v : BitVec 2048) (eb i n b : Nat) :
    (setElem v eb i n).getLsbD b =
      if b < 2048 ∧ 8 * eb * i ≤ b ∧ b < 8 * eb * (i + 1) then n.testBit (b - 8 * eb * i) else v.getLsbD b := by
  unfold setElem
  by_cases hb : b < 2048
  · simp only [BitVec.getLsbD_or, BitVec.getLsbD_and, BitVec.getLsbD_not, BitVec.getLsbD_shiftLeft, BitVec.getLsbD_ofNat, hb,
      decide_true, Bool.true_and, true_and, Nat.testBit_two_pow_sub_one, Nat.testBit_mod_two_pow, Nat.mul_add, Nat.mul_one]
    by_cases h1 : b < 8 * eb * i
    · simp [h1, Nat.not_le.mpr h1]
    · have h1' : 8 * eb * i ≤ b := Nat.not_lt.mp h1
      have hs : b - 8 * eb * i < 2048 := Nat.lt_of_le_of_lt (Nat.sub_le _ _) hb
      by_cases h2 : b < 8 * eb * i + 8 * eb
      · have h3 : b - 8 * eb * i < 8 * eb := by omega
        simp [h1, h1', h2, hs, h3]
      · have h3 : ¬b - 8 * eb * i < 8 * eb := by omega
        simp [h1, h2, h3]
  · simp [BitVec.getLsbD_of_ge _ _ (Nat.not_lt.mp hb), hb]

/-- An element of a written register: the element written, or the old one. -/
theorem elem_setElem (v : BitVec 2048) (eb i j n : Nat) (h : 8 * eb * (i + 1) ≤ 2048) :
    elem (setElem v eb i n) eb j = if i = j then n % 2 ^ (8 * eb) else elem v eb j := by
  have key : ∀ (u : BitVec 2048) k b, (elem u eb k).testBit b = (decide (b < 8 * eb) && u.getLsbD (8 * eb * k + b)) := by
    intro u k b
    unfold elem
    rw [Nat.testBit_mod_two_pow, ← BitVec.getLsbD, BitVec.getLsbD_ushiftRight]
  apply Nat.eq_of_testBit_eq
  intro b
  rw [key, getLsbD_setElem]
  by_cases hij : i = j
  · subst hij
    rw [if_pos rfl, Nat.testBit_mod_two_pow]
    by_cases hb : b < 8 * eb
    · have : 8 * eb * (i + 1) = 8 * eb * i + 8 * eb := by rw [Nat.mul_add, Nat.mul_one]
      rw [if_pos ⟨by omega, by omega, by omega⟩]
      simp
    · simp [hb]
  · rw [if_neg hij, key]
    by_cases hb : b < 8 * eb
    · rw [if_neg]
      rintro ⟨-, h1, h2⟩
      rcases Nat.lt_or_gt_of_ne hij with h3 | h3
      · have h4 : 8 * eb * (i + 1) ≤ 8 * eb * j := Nat.mul_le_mul_left (8 * eb) h3
        omega
      · have h4 : 8 * eb * (j + 1) ≤ 8 * eb * i := Nat.mul_le_mul_left (8 * eb) h3
        rw [Nat.mul_add, Nat.mul_one] at h4
        omega
    · simp [hb]

/-- What an elementwise step leaves of element `j` of the destination. -/
def stepLane (c : Core) (k : At) (pg : BitVec 3) (z : Bool) (vd : BitVec 5) (f : Nat → Option (Nat × BitVec 5)) (j : Nat) : Nat :=
  if c.active k.core pg j then
    match f j with
    | some r => r.1 % 2 ^ (8 * c.eb)
    | none => elem (c.getV vd) c.eb j
  else if z then 0 else elem (c.getV vd) c.eb j

/-- The flags that an elementwise step adds. -/
def stepFlags (c : Core) (k : At) (pg : BitVec 3) (f : Nat → Option (Nat × BitVec 5)) (j : Nat) : BitVec 5 :=
  if c.active k.core pg j then ((f j).map (·.2)).getD 0 else 0

/-- One elementwise step: it changes an element of the destination and the flags, and nothing else. -/
theorem putElem_spec (k : At) (pg : BitVec 3) (z : Bool) (vd : BitVec 5) (f : Nat → Option (Nat × BitVec 5)) (s : State) (c : Core)
    (i : Nat) (h : c.eb * (i + 1) ≤ 256) :
    ∃ d, putElem k pg z vd f s c i = .whole s d ∧ d = { c with v := d.v, fflags := c.fflags ||| stepFlags c k pg f i } ∧
      (∀ r, r ≠ vd → d.getV r = c.getV r) ∧
      ∀ j, elem (d.getV vd) c.eb j = if j = i then stepLane c k pg z vd f i else elem (c.getV vd) c.eb j := by
  have h8 : 8 * c.eb * (i + 1) ≤ 2048 := by rw [Nat.mul_assoc]; omega
  unfold putElem stepLane stepFlags
  by_cases ha : c.active k.core pg i
  · simp only [ha, if_true]
    cases hf : f i with
    | none => exact ⟨c, rfl, by simp, fun _ _ => rfl, fun j => by split <;> simp_all⟩
    | some r =>
      refine ⟨_, rfl, rfl, fun q hq => ?_, fun j => ?_⟩
      · show (c.setV vd _).getV q = _
        rw [Core.getV_setV, if_neg hq]
      · show elem ((c.setV vd _).getV vd) c.eb j = _
        rw [Core.getV_setV, if_pos rfl, elem_setElem _ _ _ _ _ h8]
        grind
  · simp only [ha]
    cases z with
    | true =>
      refine ⟨_, rfl, by simp [Core.setV], fun q hq => ?_, fun j => ?_⟩
      · show (c.setV vd _).getV q = _
        rw [Core.getV_setV, if_neg hq]
      · show elem ((c.setV vd _).getV vd) c.eb j = _
        rw [Core.getV_setV, if_pos rfl, elem_setElem _ _ _ _ _ h8]
        by_cases hj : j = i
        · simp [hj]
        · simp [hj, Ne.symm hj]
    | false => exact ⟨c, rfl, by simp, fun _ _ => rfl, fun j => by split <;> simp_all⟩

/-- Elementwise steps from `i` up: every element of the range once, every other one as it was; the flags are those of some step. -/
theorem runSteps_putElem (k : At) (pg : BitVec 3) (z : Bool) (vd : BitVec 5) (f : Nat → Option (Nat × BitVec 5)) (s : State) :
    ∀ (n i : Nat) (c : Core), c.eb * (i + n) ≤ 256 →
      ∃ d, runSteps (putElem k pg z vd f) n i s c = .whole s d ∧ d = { c with v := d.v, fflags := d.fflags } ∧
        (∀ r, r ≠ vd → d.getV r = c.getV r) ∧
        (∀ j, elem (d.getV vd) c.eb j = if i ≤ j ∧ j < i + n then stepLane c k pg z vd f j else elem (c.getV vd) c.eb j) ∧
        ∀ b, d.fflags.getLsbD b = true ↔
          c.fflags.getLsbD b = true ∨ ∃ j, i ≤ j ∧ j < i + n ∧ (stepFlags c k pg f j).getLsbD b = true := by
  intro n
  induction n with
  | zero =>
    intro i c _
    exact ⟨c, rfl, rfl, fun _ _ => rfl, fun j => by rw [if_neg (by omega)], fun b => by
      constructor
      · exact .inl
      · rintro (h | ⟨j, h1, h2, -⟩)
        · exact h
        · omega⟩
  | succ n ih =>
    intro i c h
    have h1 : c.eb * (i + 1) ≤ 256 := Nat.le_trans (Nat.mul_le_mul_left _ (by omega)) h
    obtain ⟨d, hd, hde, hr, hl⟩ := putElem_spec k pg z vd f s c i h1
    have heb : d.eb = c.eb := by rw [hde]; rfl
    obtain ⟨e, he, hee, hr', hl', hf'⟩ := ih (i + 1) d (by rw [heb]; rw [Nat.add_assoc, Nat.add_comm 1 n]; exact h)
    have hact : ∀ j, d.active k.core pg j = c.active k.core pg j := by intro j; rw [hde]; rfl
    refine ⟨e, ?_, ?_, fun r hq => by rw [hr' r hq, hr r hq], fun j => ?_, fun b => ?_⟩
    · rw [runSteps, hd]; exact he
    · rw [hee, hde]
    · rw [heb] at hl'
      rw [hl' j]
      unfold stepLane
      rw [hact, heb, hl j]
      by_cases hj : j = i
      · subst hj
        rw [if_neg (show ¬(j + 1 ≤ j ∧ j < j + 1 + n) by omega), if_pos rfl, if_pos (show j ≤ j ∧ j < j + (n + 1) by omega)]
        rfl
      · rw [if_neg hj]
        by_cases h3 : i + 1 ≤ j ∧ j < i + 1 + n
        · rw [if_pos h3, if_pos (show i ≤ j ∧ j < i + (n + 1) by omega)]
        · rw [if_neg h3, if_neg (show ¬(i ≤ j ∧ j < i + (n + 1)) by omega)]
    · have hfl : d.fflags = c.fflags ||| stepFlags c k pg f i := by rw [hde]
      have hst : ∀ j, stepFlags d k pg f j = stepFlags c k pg f j := by intro j; unfold stepFlags; rw [hact]
      rw [hf' b, hfl, BitVec.getLsbD_or, Bool.or_eq_true]
      constructor
      · rintro ((h2 | h2) | ⟨j, h2, h3, h4⟩)
        · exact .inl h2
        · exact .inr ⟨i, by omega, by omega, h2⟩
        · exact .inr ⟨j, by omega, by omega, by rw [← hst]; exact h4⟩
      · rintro (h2 | ⟨j, h2, h3, h4⟩)
        · exact .inl (.inl h2)
        · by_cases hj : j = i
          · subst hj; exact .inl (.inr h4)
          · exact .inr ⟨j, by omega, by omega, by rw [hst]; exact h4⟩

/-- The elements an instruction works on: below VL, and none that no register has. -/
theorem lanes_iff (c : Core) (k : CoreId) (j : Nat) : j < c.lanes k ↔ j < c.vl.toNat ∧ (j + 1) * 2 ^ c.sew.toNat ≤ k.vlenb := by
  unfold Core.lanes vlMax
  have hp : 0 < 2 ^ c.sew.toNat := Nat.pow_pos (by decide)
  have hm : k.vlenb = k.vlenb / 2 ^ c.sew.toNat * 2 ^ c.sew.toNat := by
    generalize c.sew = w
    rcases k with ⟨a, b⟩ | a
    · show 256 = 256 / 2 ^ w.toNat * 2 ^ w.toNat
      revert w; decide
    · show 16 = 16 / 2 ^ w.toNat * 2 ^ w.toNat
      revert w; decide
  rw [Nat.lt_min]
  refine and_congr_right fun _ => ?_
  constructor
  · intro h
    rw [hm]
    exact Nat.mul_le_mul_right _ h
  · intro h
    exact (Nat.le_div_iff_mul_le hp).mpr h

/-- An elementwise instruction that no interrupt stops, from VPROG on: what it leaves of its destination and of FFLAGS. -/
theorem vElems_completes {s : State} {k : At} {w : BitVec 32} {ok : Core → Bool} {vd : BitVec 5} {pg : BitVec 3} {z : Bool}
    {f : Core → Nat → Nat × BitVec 5} {i : Instr} (r : Ready s k.core) (hs : k.stop = none)
    (hi : exec i s = s.vElems k w ok vd pg z f) (hok : ok (s.core k.core) = true) :
    ∃ e, Completes s k.core i e ∧ e = { s.core k.core with v := e.v, fflags := e.fflags } ∧
      (∀ q, q ≠ vd → e.getV q = (s.core k.core).getV q) ∧
      LanesWritten (s.core k.core) k.core pg z ((s.core k.core).getV vd) (e.getV vd)
        (fun j => (f (s.core k.core) j).1 % 2 ^ (8 * 2 ^ (s.core k.core).sew.toNat)) ∧
      FlagsGained (s.core k.core) k.core pg e.fflags (fun j => (f (s.core k.core) j).2) := by
  have hex : exec i s = (if (s.core k.core).vl = 0 then CoreEnd.done s.tick (s.core k.core) else
      resumeFrom k (64 / (s.core k.core).eb) ((s.core k.core).lanes k.core) (putElem k pg z vd fun j => some (f (s.core k.core) j)) id s.tick (s.core k.core)).leave
        k.core (s.core k.core).pc (Config.cycles s.free) := by
    rw [hi]; unfold State.vElems State.vector
    rw [State.instr_ready r (.inl rfl) (.inl rfl) hok]
  generalize hc : s.core k.core = c at *
  by_cases hv : c.vl = 0
  · rw [if_pos hv] at hex
    refine ⟨c, completes_of ?_ (by rw [hc]), rfl, fun _ _ => rfl, fun j _ => ?_, fun n => ?_⟩
    · rw [hex, hc]; rfl
    · rw [if_neg]; simp [hv]
    · simp [hv]
  · rw [if_neg hv] at hex
    have hst : c.stopAt k (64 / c.eb) (c.lanes k.core) = none := by unfold Core.stopAt; rw [hs]
    unfold resumeFrom at hex
    simp only [hst, Option.getD_none] at hex
    have hl : ∀ j, j < c.lanes k.core → c.eb * (j + 1) ≤ 256 := by
      intro j hj
      have := ((lanes_iff c k.core j).mp hj).2
      have h2 : k.core.vlenb ≤ 256 := by unfold CoreId.vlenb; split <;> decide
      unfold Core.eb; rw [Nat.mul_comm]; omega
    have hbound : c.eb * (c.vprog.toNat + (c.lanes k.core - c.vprog.toNat)) ≤ 256 ∨ c.lanes k.core ≤ c.vprog.toNat := by
      by_cases h : c.lanes k.core ≤ c.vprog.toNat
      · exact .inr h
      · left
        rw [Nat.add_sub_cancel' (by omega)]
        have := hl (c.lanes k.core - 1) (by omega)
        rwa [Nat.sub_add_cancel (by omega)] at this
    have hrun : ∃ d, runSteps (putElem k pg z vd fun j => some (f c j)) (c.lanes k.core - c.vprog.toNat) c.vprog.toNat s.tick c = .whole s.tick d ∧ d = { c with v := d.v, fflags := d.fflags } ∧
        (∀ r, r ≠ vd → d.getV r = c.getV r) ∧
        (∀ j, elem (d.getV vd) c.eb j = if c.vprog.toNat ≤ j ∧ j < c.lanes k.core then stepLane c k pg z vd (fun j => some (f c j)) j else elem (c.getV vd) c.eb j) ∧
        ∀ b, d.fflags.getLsbD b = true ↔
          c.fflags.getLsbD b = true ∨ ∃ j, c.vprog.toNat ≤ j ∧ j < c.lanes k.core ∧ (stepFlags c k pg (fun j => some (f c j)) j).getLsbD b = true := by
      rcases hbound with hb | hb
      · obtain ⟨d, h1, h2, h3, h4, h5⟩ := runSteps_putElem k pg z vd (fun j => some (f c j)) s.tick _ _ c hb
        refine ⟨d, h1, h2, h3, fun j => ?_, fun b => ?_⟩
        · rw [h4]; congr 1; apply propext; omega
        · rw [h5]; constructor
          · rintro (h | ⟨j, h, h', h''⟩)
            · exact .inl h
            · exact .inr ⟨j, h, by omega, h''⟩
          · rintro (h | ⟨j, h, h', h''⟩)
            · exact .inl h
            · exact .inr ⟨j, h, by omega, h''⟩
      · rw [Nat.sub_eq_zero_of_le hb]
        refine ⟨c, rfl, rfl, fun _ _ => rfl, fun j => by rw [if_neg (by omega)], fun b => ⟨.inl, ?_⟩⟩
        rintro (h | ⟨j, h, h', -⟩)
        · exact h
        · omega
    obtain ⟨d, h1, h2, h3, h4, h5⟩ := hrun
    rw [h1] at hex
    refine ⟨d, completes_of ?_ (by rw [hc, h2]), h2, h3, fun j hj => ?_, fun n => ?_⟩
    · rw [hex, hc]; rfl
    · rw [← elem_eq_lane, ← elem_eq_lane, h4 j]
      have e := lanes_iff c k.core j
      by_cases hin : c.vprog.toNat ≤ j ∧ j < c.lanes k.core
      · rw [if_pos hin, if_pos ⟨hin.1, (e.mp hin.2).1, (e.mp hin.2).2⟩]
        unfold stepLane Core.active
        simp only [(e.mp hin.2).1, decide_true, Bool.true_and]
        rfl
      · rw [if_neg hin, if_neg]
        rintro ⟨ha, hb, hcc⟩
        exact hin ⟨ha, e.mpr ⟨hb, hcc⟩⟩
    · rw [h5 n]
      constructor
      · rintro (h | ⟨j, ha, hb, hcc⟩)
        · exact .inl h
        · right
          have e := (lanes_iff c k.core j).mp hb
          unfold stepFlags Core.active at hcc
          simp only [e.1, decide_true, Bool.true_and] at hcc
          by_cases hp : (c.getP k.core pg).getLsbD (j * c.eb)
          · rw [if_pos hp] at hcc
            exact ⟨j, ha, e.1, e.2, hp, hcc⟩
          · rw [if_neg hp] at hcc; simp at hcc
      · rintro (h | ⟨j, ha, hb, hcc, hd, he⟩)
        · exact .inl h
        · right
          refine ⟨j, ha, (lanes_iff c k.core j).mpr ⟨hb, hcc⟩, ?_⟩
          unfold stepFlags Core.active
          have hd' : (c.getP k.core pg).getLsbD (j * c.eb) = true := hd
          simp only [hb, decide_true, Bool.true_and, hd', if_true]
          exact he

end Sys2Proof.Machine
end

