-- ==== Sys2Proof/WellFormed.lean ====
section
/-! DEFINITION. What the parts of a command must be for it to name something of the engine: runners, channels and
lists of the sizes the spec gives. -/

namespace Sys2Proof

/-- Runners of each kind (00 scope: 8 clusters of 8 ECs, 2 scan units, 1 join, aggregate, gather unit and compression
engine each; 4 sort units, 16 pods, 4 peer port controllers). -/
def runnerCount : RunnerKind → Nat
  | .ec => 64
  | .scan => 16
  | .join => 8
  | .agg => 8
  | .gather => 8
  | .comp => 8
  | .sort => 4
  | .pod => 16
  | .peer => 4

/-- A runner that exists. -/
def Runner.wf (r : Runner) : Bool := decide (r.num.toNat < runnerCount r.kind)

/-- A DRAM channel that exists, D0 to D11 (16 R469). -/
def chanWf (ch : BitVec 4) : Bool := decide (ch.toNat < 12)

/-- A command whose parts exist. -/
def Instr.wf : Instr → Bool
  | .slotFill r _ => r.wf
  | .itemTake r => r.wf
  | .recall r _ => r.wf
  | .preemption r _ => r.wf
  | .itemEnd r => r.wf
  | .itemPark r _ => r.wf
  | .stallYield r _ => r.wf
  | .wordCommit r _ => r.wf
  | .wordPop r _ _ _ => r.wf
  | .resultBlockWrite r _ => r.wf
  | .unitWrite r _ => r.wf
  | .retrain _ ch _ => chanWf ch
  | .patrolScrub ch _ _ _ => chanWf ch
  | .refreshDue ch _ _ => chanWf ch
  | .driftCheck ch _ _ => chanWf ch
  | .channelRetraining ch _ => chanWf ch
  | .migrationLineCopy ch _ _ => chanWf ch
  | .sensorEvaluation l _ => decide (l.length = 32)
  | .coldStart _ fits _ => decide (fits.length = 12)
  | _ => true

end Sys2Proof
end

