-- ==== Sys2Proof/Tests/Slice0.lean ====
section
/-! SUPPORT. Tests on small states: ill-formed commands, single commands whose results are worked out by hand from the spec, and, for
every statement with hypotheses, states and operands that meet them. -/

namespace Sys2Proof.Tests

open Sys2Proof.Machine Sys2Proof.Claims

/-! ### Commands that are ill-formed, and the same with parts that exist -/

def someTag : Tag := ⟨0, 1, 7⟩
def sort9 : Runner := ⟨.sort, 9⟩

/-- A runner that does not exist is refused in every command that names one: there are four sort units (00 scope). -/
theorem test_wf_runner :
    (Instr.slotFill sort9 0).wf = false ∧ (Instr.itemTake sort9).wf = false ∧ (Instr.recall sort9 0).wf = false ∧
    (Instr.preemption sort9 0).wf = false ∧ (Instr.itemEnd sort9).wf = false ∧ (Instr.itemPark sort9 .stream).wf = false ∧
    (Instr.stallYield sort9 .stream).wf = false ∧ (Instr.wordCommit sort9 .sound).wf = false ∧
    (Instr.wordPop sort9 0 .sound []).wf = false ∧ (Instr.resultBlockWrite sort9 .ok).wf = false ∧
    (Instr.unitWrite sort9 .ok).wf = false ∧ (Instr.itemTake ⟨.sort, 3⟩).wf = true ∧ (Instr.itemTake ⟨.sort, 4⟩).wf = false ∧
    (Instr.itemTake ⟨.ec, 63⟩).wf = true ∧ (Instr.itemTake ⟨.scan, 15⟩).wf = true ∧
    (Instr.itemTake ⟨.scan, 16⟩).wf = false := by decide

/-- There are twelve DRAM channels (16 R469). -/
theorem test_wf_channel :
    (Instr.retrain 0 12 0).wf = false ∧ (Instr.patrolScrub 12 0 0 .clean).wf = false ∧ (Instr.refreshDue 12 0 ⟨none, []⟩).wf = false ∧
    (Instr.driftCheck 12 0 0).wf = false ∧ (Instr.channelRetraining 12 true).wf = false ∧
    (Instr.migrationLineCopy 12 .clean .clean).wf = false ∧ (Instr.retrain 0 11 0).wf = true ∧
    (Instr.migrationLineCopy 11 .clean .clean).wf = true := by decide

/-- A sensor evaluation brings 32 readings, and a cold start says what is fitted on twelve channels (19 R576, 16 R484). -/
theorem test_wf_lists :
    (Instr.sensorEvaluation (List.replicate 31 0) []).wf = false ∧ (Instr.sensorEvaluation (List.replicate 32 0) []).wf = true ∧
    (Instr.coldStart ⟨0, false, true⟩ (List.replicate 11 ⟨0, 0, 0, 0, 0, 0, false, false⟩) 0).wf = false ∧
    (Instr.coldStart ⟨0, false, true⟩ (List.replicate 12 ⟨0, 0, 0, 0, 0, 0, false, false⟩) 0).wf = true := by decide

/-! ### States to test on -/

/-- An engine that serves: READY, with function 0 as the manager, its instance as the first manager instance is (17 R506). -/
def served : State :=
  { State.reset with
    glb := { State.reset.glb with phase := .ready, manager := some 0, ports := 1 }
    insts := [(0, Inst.managerFirst)]
    fns := [(0, { Fn.reset with present := true, bme := true })] }

/-- An MC in firmware mode at address 0 of its scratch, with registers given. -/
def mc0 : CoreId := .mc 0
def firmware (x : AMap (BitVec 5) (BitVec 64)) : Core := { Core.reset mc0 with x := x }
/-- An EC in runtime mode at the start of its runtime's image. -/
def ec0 : CoreId := .ec 0 0
def runtime (x : AMap (BitVec 5) (BitVec 64)) : Core := { Core.reset ec0 with x := x, pc := 0x300000000 }
/-- An EC in user mode at the start of an 8-byte kernel of two ADD, with 8 KiB of scratch. -/
def kernel (x : AMap (BitVec 5) (BitVec 64)) : Core :=
  { Core.reset ec0 with x := x, pc := 0x100000000, mode := 0, gm := false, code := [1, 0, 0, 0, 1, 0, 0, 0], scratchKib := 8
                        item := some 9 }

def withCore (k : CoreId) (c : Core) : State := served.setCore k c
def at0 (k : CoreId) : At := ⟨k, none, none⟩

theorem ready_firmware : Fresh (withCore mc0 (firmware [(1, 7), (2, 0xFFFFFFFFFFFFFFFF)])) mc0 :=
  ⟨⟨by decide, by decide, by decide, by decide, by decide⟩, by decide⟩
theorem ready_runtime : Fresh (withCore ec0 (runtime [(1, 0x40), (2, 0xFFFFFFFFFFFFFFFF)])) ec0 :=
  ⟨⟨by decide, by decide, by decide, by decide, by decide⟩, by decide⟩
theorem ready_kernel : Fresh (withCore ec0 (kernel [(1, 7)])) ec0 :=
  ⟨⟨by decide, by decide, by decide, by decide, by decide⟩, by decide⟩

/-- The value an `x` register of a core has after a command. -/
def xAfter (i : Instr) (s : State) (k : CoreId) (r : BitVec 5) : Option (BitVec 64) :=
  match exec i s with
  | .next t => some ((t.core k).getX r)
  | _ => none

theorem test_add_wraps :
    xAfter (.add (at0 mc0) 3 1 2) (withCore mc0 (firmware [(1, 7), (2, 0xFFFFFFFFFFFFFFFF)])) mc0 3 = some 6 := by decide

/-! ### The hypotheses of the statements about the queue and the cores can be met -/

/-- The state of the witnesses of the core statements: an MC in firmware mode, x1 = 7 and x2 all ones. -/
def s1 : State := withCore mc0 (firmware [(1, 7), (2, 0xFFFFFFFFFFFFFFFF)])
def c1 : Core := s1.core mc0

theorem fresh_of (k : CoreId) (c : Core) (h : (!c.halted && !c.waiting && decide (¬(c.mode = 0 ∧ c.pc = 0xFFFFFFFFFFFFFFF0)) &&
    c.mayFetch k c.pc.toNat && decide (c.strayWord k = none) && decide (c.vprog = 0)) = true) : Fresh (withCore k c) k := by
  have e : (withCore k c).core k = c := by simp [withCore, State.setCore, State.core, served, AMap.get, AMap.find?, AMap.insert, State.reset]
  simp only [Bool.and_eq_true, Bool.not_eq_true', decide_eq_true_eq] at h
  exact ⟨⟨by rw [e]; exact h.1.1.1.1.1, by rw [e]; exact h.1.1.1.1.2, by rw [e]; exact h.1.1.1.2, by rw [e]; exact h.1.1.2,
    by rw [e]; exact h.1.2⟩, by rw [e]; exact h.2⟩

theorem ready_of (k : CoreId) (c : Core) (h : (!c.halted && !c.waiting && decide (¬(c.mode = 0 ∧ c.pc = 0xFFFFFFFFFFFFFFF0)) &&
    c.mayFetch k c.pc.toNat && decide (c.strayWord k = none)) = true) : Ready (withCore k c) k := by
  have e : (withCore k c).core k = c := by simp [withCore, State.setCore, State.core, served, AMap.get, AMap.find?, AMap.insert, State.reset]
  simp only [Bool.and_eq_true, Bool.not_eq_true', decide_eq_true_eq] at h
  exact ⟨by rw [e]; exact h.1.1.1.1, by rw [e]; exact h.1.1.1.2, by rw [e]; exact h.1.1.2, by rw [e]; exact h.1.2, by rw [e]; exact h.2⟩

theorem witness_StepRunsTheFrontCommand : State.reset.pending = [] := by decide

/-- One tick after reset a step is taken, and the invariant holds. -/
theorem witness_StepsKeepTheInvariant :
    let s := { State.reset with time := 1 }
    Inv s ∧ step s = .next { s with time := 2 } := by
  refine ⟨⟨?_, ?_, ?_, by decide, by decide⟩, rfl⟩
  · intro k; cases k <;> rfl
  · intro k; cases k <;> exact .inr rfl
  · intro k; cases k <;> rfl

theorem witness_RegisterFilesReadAndWrite : (3 : BitVec 5) ≠ 0 ∧ (4 : BitVec 5) ≠ 3 ∧ (7 : BitVec 3) ≠ 0 ∧ (1 : BitVec 3) ≠ 7 := by decide

theorem witness_IntegerRegisterResults : Fresh s1 (at0 mc0).core ∧ Fresh (withCore ec0 (kernel [(1, 7)])) (at0 ec0).core :=
  ⟨ready_firmware, ready_kernel⟩
theorem witness_IntegerBitCounts : Fresh s1 (at0 mc0).core := ready_firmware
theorem witness_IntegerImmediateResults : Fresh s1 (at0 mc0).core := ready_firmware

/-- A branch at no loop end and at one; a JR to an aligned and to a misaligned target. -/
theorem witness_BranchesAndJumps :
    (Fresh s1 mc0 ∧ c1.atLend c1.pc = false) ∧
    (let c := { firmware [(1, 7)] with lcount0 := 1, lend0 := 0 }
     Fresh (withCore mc0 c) mc0 ∧ c.atLend c.pc = true) ∧
    (c1.getX 1 + (1 : BitVec 12).signExtend 64).toNat % 4 = 0 ∧ (c1.getX 1 + (0 : BitVec 12).signExtend 64).toNat % 4 ≠ 0 :=
  ⟨⟨ready_firmware, by decide⟩, ⟨fresh_of _ _ (by decide), by decide⟩, by decide, by decide⟩

/-- A shadow stack without room, one with room for one entry, one that is empty, and one whose top entry equals x1 or not. -/
theorem witness_CallsReturnsAndLoops :
    (Fresh s1 mc0 ∧ c1.atLend c1.pc = false ∧ c1.sslimit.toNat < c1.ssp.toNat + 8 ∧ c1.ssp = c1.ssbase) ∧
    (let c := { firmware [(1, 0x44)] with ssp := 0x48, ssbase := 0x40, sslimit := 0x50, scratch := [⟨0x40, 0x44⟩] }
     Fresh (withCore mc0 c) mc0 ∧ c.atLend c.pc = false ∧ ¬(c.sslimit.toNat < c.ssp.toNat + 8) ∧ c.ssp.toNat + 8 ≤ 0x100000 ∧
     (c.pc + BitVec.ofInt 64 (4 * (-1 : BitVec 20).toInt)).toNat % 4 = 0 ∧ c.ssp ≠ c.ssbase ∧ 8 ≤ c.ssp.toNat ∧
     leNat (c.scratch.readBytes (c.ssp.toNat - 8) 8) = (c.getX 1).toNat ∧ leNat (c.scratch.readBytes (c.ssp.toNat - 8) 8) ≠ (c.getX 2).toNat) ∧
    (0 : BitVec 15) = 0 ∧ (0x7FFF : BitVec 15) ≠ 0 ∧ c1.getX 3 = 0 :=
  ⟨⟨ready_firmware, by decide⟩, ⟨fresh_of _ _ (by decide), by decide⟩, by decide⟩

/-- The last byte of scratch is reached and the byte past it is not; a line that cannot be corrected; the device window. -/
theorem witness_ScalarLoads :
    Fresh s1 mc0 ∧ c1.access mc0 none false 0xFFFF8 8 = .ok ∧ c1.access mc0 none false 0x100000 1 = .denied ∧
    c1.access mc0 (some 0x47) false 0x40 8 = .dataErr ∧ c1.access mc0 none false 0x20000000000 4 = .device ∧
    (c1.getX 1 + (1 : BitVec 12).signExtend 64).toNat % 8 = 0 ∧ (c1.getX 1 + (0 : BitVec 12).signExtend 64).toNat % 2 ≠ 0 :=
  ⟨ready_firmware, by decide⟩

theorem witness_ScalarStores :
    Fresh s1 mc0 ∧ c1.access mc0 none true 0xFFFFF 1 = .ok ∧ c1.access mc0 none true 0x300000000 8 = .denied ∧
    c1.access mc0 none true 0x20000FFFFFC 4 = .device := ⟨ready_firmware, by decide⟩

theorem witness_CsrReads :
    (Fresh s1 mc0 ∧ c1.mode = mc0.trapMode) ∧ (Fresh (withCore ec0 (kernel [])) ec0 ∧ (kernel []).mode = ec0.low) ∧
    ((0x803 : BitVec 12).toNat = 0x803) := ⟨⟨ready_firmware, by decide⟩, ⟨fresh_of _ _ (by decide), by decide⟩, by decide⟩

/-- VL at its largest with bytes and one past it; shadow stack pointers at both ends of their range and past it; masks of 0 and not 0. -/
theorem witness_CsrWrites :
    let c := { firmware [(1, 16), (2, 17), (3, 0x48)] with ssbase := 0x40, ssp := 0x40, sslimit := 0x48 }
    Fresh (withCore mc0 c) mc0 ∧ c.mode = mc0.trapMode ∧ (c.getX 1).toNat * c.eb ≤ mc0.vlenb ∧ ¬((c.getX 2).toNat * c.eb ≤ mc0.vlenb) ∧
    ((c.getX 3).toNat % 8 = 0 ∧ c.ssbase.toNat ≤ (c.getX 3).toNat ∧ (c.getX 3).toNat ≤ c.sslimit.toNat) ∧
    ¬((c.getX 1).toNat ≥ c.ssbase.toNat) ∧ c.getX 4 = 0 ∧ c.getX 1 ≠ 0 := ⟨fresh_of _ _ (by decide), by decide⟩

/-- A STATUS that is legal, one that has a reserved bit, MASKLIMIT at both ends of its range and past them. -/
theorem witness_StatusAndMaskLimitWrites :
    (let c := firmware [(1, 5), (2, 8), (3, 256), (4, 1048576), (5, 255), (6, 1048577)]
     Fresh (withCore mc0 c) mc0 ∧ c.mode = 2 ∧ c.mode = mc0.trapMode ∧ c.ipend &&& c.inten = 0 ∧ c.wdcnt = 0 ∧ (c.getX 1).toNat < 8 ∧
     (c.getX 1).setWidth 2 = mc0.low ∧ ¬((c.getX 2).toNat < 8) ∧ 256 ≤ (c.getX 3).toNat ∧ (c.getX 4).toNat ≤ 1048576 ∧
     (c.getX 5).toNat < 256 ∧ 1048576 < (c.getX 6).toNat) ∧
    (Fresh (withCore ec0 (kernel [])) ec0 ∧ (kernel []).mode ≠ 2 ∧ (kernel []).mode = ec0.low) :=
  ⟨⟨fresh_of _ _ (by decide), by decide⟩, ⟨fresh_of _ _ (by decide), by decide⟩⟩

/-- CALLK in user mode and not; a RETK that returns to user mode, and one whose link names user mode with GM 1. -/
theorem witness_ModesAndWaiting :
    (let c := kernel []
     Fresh (withCore ec0 c) ec0 ∧ c.atLend c.pc = false ∧ c.mode = ec0.low) ∧
    (let c := runtime []
     Fresh (withCore ec0 c) ec0 ∧ c.atLend c.pc = false ∧ c.mode = ec0.trapMode ∧ c.klinkStatus.setWidth 2 = ec0.low ∧
     c.klinkStatus.getLsbD 2 = false ∧ c.ipend &&& c.inten = 0 ∧ c.wdcnt = 0 ∧ c.mode ≠ 0) ∧
    (let c := { runtime [] with klinkStatus := 4 }
     Fresh (withCore ec0 c) ec0 ∧ c.atLend c.pc = false ∧ (c.klinkStatus.setWidth 2 : BitVec 2) = 0 ∧ c.klinkStatus.getLsbD 2 = true) :=
  ⟨⟨fresh_of _ _ (by decide), by decide⟩, ⟨fresh_of _ _ (by decide), by decide⟩, ⟨fresh_of _ _ (by decide), by decide⟩⟩

/-- A halted core, a waiting one, one at the end of its kernel, one that cannot fetch, and one that resumes. -/
theorem witness_FetchChecks :
    ({ kernel [] with halted := true } : Core).halted = true ∧ ({ kernel [] with waiting := true } : Core).waiting = true ∧
    (let c := { kernel [] with pc := 0xFFFFFFFFFFFFFFF0 }
     c.halted = false ∧ c.waiting = false ∧ c.mode = 0 ∧ c.pc = 0xFFFFFFFFFFFFFFF0) ∧
    (let c := { kernel [] with pc := 0x100000008 }
     c.halted = false ∧ c.waiting = false ∧ c.pc ≠ 0xFFFFFFFFFFFFFFF0 ∧ c.mayFetch ec0 c.pc.toNat = false) ∧
    (let c := { kernel [] with pc := 0x100000004, vprog := 1 }
     c.halted = false ∧ c.waiting = false ∧ c.pc ≠ 0xFFFFFFFFFFFFFFF0 ∧ c.mayFetch ec0 c.pc.toNat = true ∧ c.strayWord ec0 = none ∧ c.vprog ≠ 0) ∧
    (let c := { kernel [] with code := List.replicate 8 0 }
     c.halted = false ∧ c.waiting = false ∧ c.pc ≠ 0xFFFFFFFFFFFFFFF0 ∧ c.mayFetch ec0 c.pc.toNat = true ∧
       c.strayWord ec0 = some 0) := by decide

theorem witness_ModesReach : (kernel []).mode = ec0.low ∧ (kernel []).code.length ≤ 0x100000000 ∧ (runtime []).mode = ec0.trapMode := by decide

/-- A NaN that is not quiet, at the widest encoding, and a number. -/
theorem witness_FloatingPointNaNs :
    (0xFFFFFFFF < 2 * Prec.single.fmt.signBit ∧ 0x3F800000 < 2 * Prec.single.fmt.signBit ∧ (Prec.single.fmt.unpack 0xFFFFFFFF).isNan = true ∧
      (Prec.single.fmt.unpack 0x7F800001).isNan = true ∧ (Prec.single.fmt.unpack 0x3F800000).isNan = false) ∧
    0xFFFFFFFFFFFFFFFF < 2 * Prec.double.fmt.signBit ∧ (Prec.double.fmt.unpack 0xFFFFFFFFFFFFFFFF).isNan = true := by decide

theorem witness_ScalarFloatingPointResults : Fresh s1 (at0 mc0).core := ready_firmware

/-- A core with four elements of four bytes, resumed after the first, and the same with bytes. -/
def vectors (sew : BitVec 2) (vprog : BitVec 64) : Core :=
  { runtime [(1, 0x40), (2, 0x200), (3, 9)] with sew := sew, vl := 4, vprog := vprog, v := [(1, 0x0403020104030201)], p := [(1, 0xF)] }

theorem witness_VectorIntegerResults :
    Ready (withCore ec0 (vectors 2 1)) ec0 ∧ Ready (withCore ec0 (vectors 0 0)) ec0 ∧ (at0 ec0).stop = none ∧ (VSrc.vf 1).isVf = true ∧
    (VSrc.vi 31).isVf = false ∧ (vectors 2 1).vprog.toNat ≤ 1 ∧ 3 < (vectors 2 1).vl.toNat ∧ (3 + 1) * 2 ^ (vectors 2 1).sew.toNat ≤ ec0.vlenb :=
  ⟨ready_of _ _ (by decide), ready_of _ _ (by decide), by decide⟩

theorem witness_VectorFloatingPointAndMoves :
    Ready (withCore ec0 (vectors 2 1)) ec0 ∧ (at0 ec0).stop = none ∧ ¬((vectors 2 1).vl ≠ 0 ∧ (vectors 2 1).sew.toNat < 2) ∧
    ((vectors 0 0).vl ≠ 0 ∧ (vectors 0 0).sew.toNat < 2) ∧ ((VSrc.vx 1).isVx = true ∧ (VSrc.vi 1).isVi = true) :=
  ⟨ready_of _ _ (by decide), by decide⟩

theorem witness_CompareAndPredicateResults :
    Ready (withCore ec0 (vectors 2 1)) ec0 ∧ (at0 ec0).stop = none ∧ (0 < (7 : BitVec 5).toNat ∧ (7 : BitVec 5).toNat < 8) ∧
    ¬(0 < (0 : BitVec 5).toNat) ∧ 8 ≤ (8 : BitVec 5).toNat := ⟨ready_of _ _ (by decide), by decide⟩

theorem witness_VectorLengthIsSet : Fresh (withCore ec0 (vectors 2 0)) (at0 ec0).core := fresh_of _ _ (by decide)

/-- Index registers that are and are not the destination, an index inside and one at VLMAX. -/
theorem witness_VectorPermutes :
    Ready (withCore ec0 (vectors 2 1)) ec0 ∧ (at0 ec0).stop = none ∧ (2 : BitVec 5) ≠ 1 ∧ (VSrc.vv 1).isVv = true ∧ (VSrc.vx 3).isVv = false ∧
    (VSrc.vx 3).isVf = false ∧ ((vectors 2 1).getX 3).toNat < 64 ∧ ¬(((vectors 2 1).getX 1).toNat < 64) ∧ (vectors 2 1).vl ≠ 0 :=
  ⟨ready_of _ _ (by decide), by decide⟩

theorem witness_ReductionsAndCounts :
    Ready (withCore ec0 (vectors 2 1)) ec0 ∧ (vectors 2 1).vl ≠ 0 ∧ ¬((vectors 2 1).sew.toNat < 2) ∧ (vectors 0 0).sew.toNat < 2 ∧
    8 ≤ (8 : BitVec 5).toNat ∧ ¬(8 ≤ (7 : BitVec 5).toNat) := ⟨ready_of _ _ (by decide), by decide⟩

/-- Elements 1 to 3 lie at 0x44 in scratch, where runtime mode reads and writes. -/
theorem witness_VectorLoadsAndStores :
    Ready (withCore ec0 (vectors 2 1)) ec0 ∧ (at0 ec0).stop = none ∧
    ∀ w : Bool, ∀ j ∈ [1, 2, 3], (vectors 2 1).access ec0 none w ((vectors 2 1).getX 1 + BitVec.ofNat 64 (j * 4)) 4 = .ok :=
  ⟨ready_of _ _ (by decide), by decide⟩

/-- Nine bytes from 0x40 to 0x200, which do not overlap; bytes at the end of the address space are out of reach. -/
theorem witness_ScopyCopiesBytes :
    let c := vectors 0 1
    Ready (withCore ec0 c) ec0 ∧ (at0 ec0).stop = none ∧ (c.getX 2).toNat + (c.getX 3).toNat ≤ 2 ^ 64 ∧
    (c.getX 1).toNat + (c.getX 3).toNat ≤ 2 ^ 64 ∧ (c.getX 1).toNat + (c.getX 3).toNat ≤ (c.getX 2).toNat ∧
    ∀ j ∈ List.range 9, c.access ec0 none false (c.getX 1 + BitVec.ofNat 64 j) 1 = .ok ∧
      c.access ec0 none true (c.getX 2 + BitVec.ofNat 64 j) 1 = .ok := ⟨ready_of _ _ (by decide), by decide⟩

/-- A stop that is pending at element 64 of bytes, and a load whose third word is past the end of scratch. -/
theorem witness_VectorTrapsKeepProgress :
    (let c := { vectors 0 0 with vl := 128, gm := false, ipend := 2 }
     Ready (withCore ec0 c) ec0 ∧ c.vprog.toNat ≤ 64 ∧ 64 < c.vl.toNat ∧ (64 + 1) * 2 ^ c.sew.toNat ≤ ec0.vlenb ∧
     c.takeable ec0 = some .stop ∧ (some (64 : BitVec 64)) = some (BitVec.ofNat 64 64) ∧ c.vprog.toNat < 64 ∧ 64 % (64 / 2 ^ c.sew.toNat) = 0) ∧
    (let c := { vectors 2 0 with x := [(1, 0x3FFF8)] }
     Ready (withCore ec0 c) ec0 ∧ c.vprog.toNat ≤ 2 ∧ 2 < c.vl.toNat ∧ (2 + 1) * 2 ^ c.sew.toNat ≤ ec0.vlenb ∧ (c.getP ec0 0).getLsbD (2 * 4) = true ∧
     c.access ec0 none false (c.getX 1 + BitVec.ofNat 64 (1 * 4)) 4 = .ok ∧ c.access ec0 none false (c.getX 1 + BitVec.ofNat 64 (2 * 4)) 4 = .denied) :=
  ⟨⟨ready_of _ _ (by decide), by decide⟩, ⟨ready_of _ _ (by decide), by decide⟩⟩

/-- A source that is not of the core's kind, one that is taken, MASKTO with GM 1, one that stays pending, and a watchdog that runs. -/
theorem witness_InterruptsAndWatchdog :
    (AsyncSrc.maskto.on ec0 = false ∧ (kernel []).ipend &&& (kernel []).inten = 0) ∧
    (AsyncSrc.stop.on ec0 = true ∧ (kernel []).halted = false ∧ (kernel []).gm = false ∧ (kernel []).inten.getLsbD AsyncSrc.stop.bit = true) ∧
    (AsyncSrc.maskto.on mc0 = true ∧ c1.halted = false ∧ c1.inten.getLsbD AsyncSrc.maskto.bit = true ∧ c1.ipend &&& c1.inten = 0) ∧
    (AsyncSrc.event.on mc0 = true ∧ c1.gm = true ∧ c1.ipend.getLsbD 6 = false) ∧ ({ c1 with wdcnt := 1 } : Core).wdcnt ≠ 0 := by decide

/-! ### The hypotheses of the statements about commands of queues can be met -/

/-- An entry: its opcode, and values at byte offsets. -/
def entryOf (op : Nat) (fields : List (Nat × Nat)) : BitVec 512 :=
  BitVec.ofNat 512 (fields.foldl (fun n f => n + f.2 * 256 ^ f.1) (op * 256))
def cmdOf (op : Nat) (fields : List (Nat × Nat)) : Cmd := ⟨someTag, entryOf op fields, .fetched, 0, 0, none, none⟩

def sqOn (cqid : BitVec 12) : Sq :=
  { base := 0x10000, pasid := none, log2 := 4, cqid := cqid, head := 0, pass := 0, st := .active, drain := none, scanDue := false
    scanning := false, latchSlot := 0, latchReason := 0, openBatch := none, tokens := 16 }
def cqOf : Cq :=
  { base := 0x20000, pasid := none, log2 := 4, vector := 0, ien := true, tail := 0, pass := 0, head := 0, unreturned := 0, ready := []
    stallRaised := false, faulted := false }

/-- Function 0 with SQs 0, 1 and 2 and CQs 0, 1 and 2, where SQ 2 completes on CQ 1. -/
def queued (s : State) (cmds : List Cmd) : State :=
  { s with rings := { s.rings with
      sqs := [((0, 0), sqOn 0), ((0, 1), sqOn 1), ((0, 2), sqOn 1)], cqs := [((0, 0), cqOf), ((0, 1), cqOf), ((0, 2), cqOf)]
      cmds := cmds } }

/-- What `Runs` asks of the first of the commands of `queued`. -/
def runsB (s : State) (c : Cmd) (rest : List Cmd) (op : Nat) : Bool :=
  decide (c.tag = someTag) && decide (c.opcode = op) && decide (c.stage ≠ .finished) && decide (c.batch = none) &&
  decide (s.glb.phase = .ready) && decide (s.xlat.reqs = []) && decide (s.xlat.waiting = []) && decide (s.disp.jobq = []) &&
  decide (s.fw.late = []) &&
  decide (c.stage = .begun ∨ ∀ d ∈ c :: rest, d.stage = .fetched → c.no ≤ d.no)

theorem due_of {s : State} {c : Cmd} {rest : List Cmd} {op : Nat} (h : runsB s c rest op = true) :
    Due (queued s (c :: rest)) someTag op c := by
  simp only [runsB, Bool.and_eq_true, decide_eq_true_eq] at h
  obtain ⟨⟨⟨⟨⟨⟨⟨⟨⟨h1, h2⟩, h3⟩, h4⟩, h5⟩, h6⟩, h7⟩, h9⟩, h10⟩, h8⟩ := h
  refine ⟨?_, h3, h2, h5, ?_, h8, h4, ?_, ?_, sqOn 1, cqOf, ?_, ?_⟩
  · simp [State.cmd?, queued, h1]
  · simp [State.waitsFor, queued, h6, h7]
  · simp [State.jobsWait, queued, h9]
  · simp [queued, h10]
  · rfl
  · rfl

theorem runs_of {s : State} {c : Cmd} {rest : List Cmd} {op : Nat} (h : runsB s c rest op = true) (p : Permitted s c) :
    Runs (queued s (c :: rest)) someTag op c := by
  have t := due_of h
  exact ⟨t, by
    simp only [runsB, Bool.and_eq_true, decide_eq_true_eq] at h
    have h1 := h.1.1.1.1.1.1.1.1.1
    simpa [Permitted, queued, h1] using p⟩

theorem test_found : (queued served [cmdOf 0x05 []]).cmd? someTag = some (cmdOf 0x05 []) := by decide +kernel

/-- INSTANCE_CREATE where the manager is another function, and from the manager with FUA set. -/
theorem witness_CommandsAreCheckedFirst :
    (Due (queued { served with glb := { served.glb with manager := some 5 } } [cmdOf 0x18 []]) someTag 0x18 (cmdOf 0x18 []) ∧
      (some 5 : Option (BitVec 8)) ≠ some someTag.inst) ∧
    (Due (queued served [cmdOf 0x18 [(0, 8)]]) someTag 0x18 (cmdOf 0x18 [(0, 8)]) ∧ served.glb.manager = some someTag.inst ∧
      (cmdOf 0x18 [(0, 8)]).fua = true) ∧
    Due (queued served [cmdOf 0x05 [(0, 8)]]) someTag 0x05 (cmdOf 0x05 [(0, 8)]) ∧ 0x05 ∉ [0x10, 0x11, 0x18, 0x19, 0x1A, 0x1B, 0x1C] :=
  ⟨⟨due_of (by decide +kernel), by decide +kernel⟩, ⟨due_of (by decide +kernel), by decide +kernel⟩, due_of (by decide +kernel), by decide +kernel⟩

/-- SQ 3 of 65,536 entries and CQ 4,095 of 2; CQ 2, on which no SQ completes. -/
theorem witness_QueuesAreCreatedAndDeleted :
    (let c := cmdOf 0x05 [(8, 0x1000), (16, 3), (18, 1), (20, 16)]
     Runs (queued served [c]) someTag 0x05 c ∧ c.clean [(8, 8), (16, 4), (20, 1), (24, 4)] = true ∧ c.f 24 4 % 2 ^ 31 < 2 ^ 20 ∧ c.f 24 4 < 2 ^ 31 ∧
     c.f 20 1 % 32 = 16 ∧ c.f 8 8 % 4096 = 0 ∧ (queued served [c]).sq 0 (BitVec.ofNat 12 (c.f 16 2)) = none ∧
     ((queued served [c]).cq 0 (BitVec.ofNat 12 (c.f 18 2))).isSome = true ∧ (queued served [c]).ioSqs 0 < ((queued served [c]).inst 0).sqLimit.toNat) ∧
    (let c := cmdOf 0x06 [(8, 0x1000), (16, 4095), (18, 2047), (20, 33)]
     Runs (queued served [c]) someTag 0x06 c ∧ c.clean [(8, 8), (16, 4), (20, 1), (24, 4)] = true ∧ c.f 20 1 < 64 ∧ c.f 20 1 % 32 = 1 ∧
     (queued served [c]).cq 0 (BitVec.ofNat 12 (c.f 16 2)) = none ∧ 32 ≤ c.f 20 1 ∧ c.f 18 2 < msixCount 0) ∧
    (let c := cmdOf 0x08 [(16, 2)]
     let s := queued served [c]
     Runs s someTag 0x08 c ∧ c.clean [(16, 2)] = true ∧ (s.cq 0 (BitVec.ofNat 12 (c.f 16 2))).isSome = true ∧
     ∀ e ∈ s.rings.sqs, e.1.1 = 0 → e.2.cqid ≠ BitVec.ofNat 12 (c.f 16 2)) :=
  ⟨⟨runs_of (by decide +kernel) (by unfold Permitted; decide +kernel), by decide +kernel⟩, ⟨runs_of (by decide +kernel) (by unfold Permitted; decide +kernel), by decide +kernel⟩,
    runs_of (by decide +kernel) (by unfold Permitted; decide +kernel), by decide +kernel⟩

/-- SQ 2 has nothing outstanding, SQ 1 has; the tag of an ABORT that names no command, one that names one, and one that names an IMAGE_LOAD, which it
catches. -/
theorem witness_QueuesDrainAndCommandsAbort :
    (∀ op ∈ [0x07, 0x09], ∀ qid ∈ [1, 2],
      let c := cmdOf op [(16, qid)]
      let s := queued served [c]
      runsB served c [] op = true ∧ c.clean [(16, 2)] = true ∧ s.sq 0 (BitVec.ofNat 12 (c.f 16 2)) = some (sqOn 1) ∧ (sqOn 1).st ≠ .draining ∧
      (sqOn 1).openBatch = none ∧ s.sqBusy 0 (BitVec.ofNat 12 (c.f 16 2)) = decide (qid = 1)) ∧
    (let c := cmdOf 0x0A [(16, 1), (18, 8)]
     let d := { cmdOf 0x52 [] with tag := ⟨0, 1, 8⟩, no := 1 }
     Runs (queued served [c]) someTag 0x0A c ∧ Runs (queued served [c, d]) someTag 0x0A c ∧ c.clean [(16, 4)] = true ∧
     ((queued served [c]).sq 0 1).isSome = true ∧ (queued served [c]).cmd? ⟨0, 1, 8⟩ = none ∧ (queued served [c, d]).cmd? ⟨0, 1, 8⟩ = some d ∧
     d.opcode ≠ 0x0A ∧
     (let d := { cmdOf 0x50 [] with tag := ⟨0, 1, 8⟩, no := 1 }
      runsB served c [d] 0x0A = true ∧ (queued served [c, d]).cmd? ⟨0, 1, 8⟩ = some d ∧ d.opcode ∈ [0x4A, 0x50] ∧ d.stage ≠ .finished ∧ d.batch = none ∧
      (queued served [c, d]).sq 0 1 = some (sqOn 1) ∧ (queued served [c, d]).cq 0 (sqOn 1).cqid = some cqOf)) :=
  ⟨by decide +kernel, runs_of (by decide +kernel) (by unfold Permitted; decide +kernel), runs_of (by decide +kernel) (by unfold Permitted; decide +kernel), by decide +kernel⟩

/-- Each FID at the ends of its range and past them, from the manager and from another function. -/
theorem witness_FeaturesAreSetAndRead :
    (∀ e ∈ [(0x01, 16), (0x01, 17), (0x02, 60000), (0x02, 0), (0x10, 2 ^ 30 - 1 - 2 ^ 11), (0x10, 2 ^ 30), (0x11, 65535), (0x11, 65536), (0x03, 0)],
      let c := cmdOf 0x03 [(16, e.1), (24, e.2)]
      runsB served c [] 0x03 = true ∧ c.clean [(16, 1), (24, 8)] = true ∧ c.f 16 1 = e.1 ∧ c.f 24 8 = e.2 ∧ served.glb.manager = some 0) ∧
    (∀ e ∈ [0x01, 0x02, 0x10, 0x11, 0x03],
      let c := cmdOf 0x04 [(16, e)]
      runsB served c [] 0x04 = true ∧ c.clean [(16, 1)] = true ∧ c.clean [(16, 1), (24, 8)] = true ∧ c.f 16 1 = e) ∧
    runsB { served with glb := { served.glb with manager := some 5 } } (cmdOf 0x03 [(16, 0x11)]) [] 0x03 = true := by decide +kernel

theorem witness_ReportsAreWritten :
    (served.accOf 0 .ok = .ok) ∧
    (let c := cmdOf 0x01 [(16, 0x1000)]
     Runs (queued served [c]) someTag 0x01 c ∧ c.clean [(16, 8)] = true ∧ c.f 16 8 % 64 = 0) ∧
    (let c := cmdOf 0x1D [(16, 0x1000), (24, 5)]
     Runs (queued served [c]) someTag 0x1D c ∧ c.clean [(16, 8), (24, 1)] = true ∧ (queued served [c]).isManager 0 = true) ∧
    (let s := { served with glb := { served.glb with manager := some 5 } }
     s.isManager 0 = false ∧ runsB s (cmdOf 0x1D [(24, 5)]) [] 0x1D = true ∧ runsB s (cmdOf 0x02 [(16, 1), (17, 5), (32, 64)]) [] 0x02 = true) ∧
    (∀ id ∈ [1, 5],
      let c := cmdOf 0x02 [(16, id), (24, 0x1000), (32, 1048576), (36, 64)]
      runsB served c [] 0x02 = true ∧ c.clean [(16, 6), (24, 16)] = true ∧ c.f 24 8 % 64 = 0 ∧ c.f 32 4 % 64 = 0 ∧ 64 ≤ c.f 32 4 ∧
      c.f 32 4 ≤ 1048576 ∧ c.f 36 4 % 64 = 0 ∧ c.f 18 4 = 0 ∧ ((queued served [c]).logOf c).isSome = true) :=
  ⟨by decide +kernel, ⟨runs_of (by decide +kernel) (by unfold Permitted; decide +kernel), by decide +kernel⟩, ⟨runs_of (by decide +kernel) (by unfold Permitted; decide +kernel), by decide +kernel⟩, by decide +kernel, by decide +kernel⟩

/-! ### The hypotheses of the statements about rings, instances, functions and translation can be met -/

/-- The queues of `queued` with no command, and with function 0's fields and instance changed. -/
def idle (v : Inst) (f : Fn) : State := { queued served [] with insts := [(0, v)], fns := [(0, f)] }
def host : Fn := { Fn.reset with present := true, bme := true }

/-- A head doorbell value inside the ring and one past it; a CQ that is full; SQ sizes at both ends of their range and past them. -/
theorem witness_DoorbellsAndTheAdminQueue :
    (let s := queued served []
     s.sq 0 1 = some (sqOn 1) ∧ (s.glb.phase = .ready ∧ (s.inst 0).st = .serving) ∧ (sqOn 1).st = .active ∧ DbWidth.low ≠ .high ∧
     s.cq 0 1 = some cqOf ∧ (15 : Nat) < 2 ^ cqOf.log2 ∧ ¬(16 < 2 ^ cqOf.log2)) ∧
    ((State.reset.inst 0).st ≠ .serving) ∧
    ((idle { Inst.managerFirst with fetchRate := 1 } host).inst 0).fetchRate ≠ 0 ∧ (1 : BitVec 12) ≠ 0 ∧
    (2 ^ cqOf.log2 ≤ ({ cqOf with unreturned := 16 } : Cq).unreturned ∧ host.d3hot = false) ∧
    (let g := { host with admSqBase := 0x1000, admCqBase := 0x2000, sqLog2 := 12, cqLog2 := 1 }
     let s := { served with fns := [(0, g)] }
     s.glb.phase = .ready ∧ (s.fn 0).present = true ∧ s.sq 0 0 = none ∧ (s.inst 0).st = .serving ∧
     (1 ≤ g.cqLog2.toNat ∧ g.sqLog2.toNat ≤ 12 ∧ g.admSqBase ≠ 0 ∧ g.admCqBase ≠ 0) ∧ ¬(({ g with sqLog2 := 13 } : Fn).sqLog2.toNat ≤ 12)) ∧
    ((queued served []).sq 0 0 = some (sqOn 0) ∧ (sqOn 0).openBatch = none ∧ ({ sqOn 0 with drain := some .disable } : Sq).drain = some .disable) := by
  decide +kernel

/-- An owned QUERY_SUBMIT entry, one with the other phase, and one with an opcode that the I/O queues do not have; a scan in its turn, and one that
comes after that of SQ 2. -/
theorem witness_EntriesAreFetchedAndCompletionsPosted :
    (let s := (queued served []).setSq 0 1 { sqOn 1 with scanDue := true }
     ∃ q, s.sq 0 1 = some q ∧ s.mayFetch 0 1 q = true ∧ q.scanDue = true ∧ (s.inst 0).fetchRate = 0 ∧
      (0, 1) ∉ s.rings.served ∧
      (let x := { sqOn 1 with scanDue := true }
       let u := s.setSq 0 2 x
       ((0, 2), x) ∈ u.rings.sqs ∧ u.mayFetch 0 2 x = true ∧ (0, 1) ∈ ({ u.rings with served := [(0, 1)] } : Rings).served ∧
       (0, 2) ∉ ({ u.rings with served := [(0, 1)] } : Rings).served) ∧
      ∀ e ∈ [(0x52, [(0, 1), (2, 7)], none), (0x52, [(0, 3), (2, 7)], none), (0x05, [(0, 1)], some 2), (0x52, [(0, 7)], some 3),
          (0x52, [(0, 1), (6, 1)], some 1)],
        let w := entryOf e.1 e.2.1
        (w.getLsbD 0 = true ↔ q.pass % 2 = 0) ∧ ef w 4 2 = (q.pass * 2 ^ q.log2 + q.head) % 65536 ∧ s.malformed 0 1 w = e.2.2) ∧
    ¬((entryOf 0x52 []).getLsbD 0 = true ↔ (sqOn 1).pass % 2 = 0) ∧
    (let x : Cpl := { sqid := 1, cid := 7, status := 0, result := 5, batch := false, sqhead := none, covers := [7], after := [] }
     let cq := { cqOf with ready := [x], tail := 15, unreturned := 15 }
     let s := (queued served []).setCq 0 1 cq
     s.cq 0 1 = some cq ∧ s.mayPost 0 = true ∧ cq.unreturned < 2 ^ cq.log2 ∧ cq.faulted = false ∧ s.waitsFor (.cqWrite 0 1) = false ∧
     cq.ready.find? (s.postable 0) = some x ∧ s.accOf 0 .ok = .ok ∧ cq.base.toNat % 4096 = 0 ∧ (s.inst 0).st = .serving ∧ s.sq 0 x.sqid = some (sqOn 1) ∧
     (sqOn 1).st ≠ .draining) :=
  ⟨⟨{ sqOn 1 with scanDue := true }, by decide +kernel⟩, by decide +kernel⟩

/-- INSTANCE_CREATE that asks for all the LS that is left, and for one unit more; a RESIZE of WEIGHT to 1; QUIESCE, RESET and DESTROY of another
instance in each of its states. -/
theorem witness_ManagerCommandsOnInstances :
    (∀ ls ∈ [2544, 2545],
      let c := cmdOf 0x18 [(16, 5), (20, 16), (22, 16), (24, 1), (28, 16), (30, 16), (44, ls), (46, 1), (47, 100), (48, 16777215)]
      let s := queued served [c]
      runsB served c [] 0x18 = true ∧ s.glb.manager = some 0 ∧ c.clean [(16, 1), (20, 32)] = true ∧ 1 ≤ c.f 24 4 ∧ c.f 28 2 ≤ c.f 20 2 ∧
      c.f 30 2 ≤ c.f 22 2 ∧ 16 ≤ c.f 44 2 ∧ c.f 44 2 ≤ 2560 ∧ 1 ≤ c.f 46 1 ∧ c.f 47 1 ≤ 100 ∧ c.f 48 4 ≤ 16777215 ∧ c.f 32 4 ≤ s.poolPages ∧
      (s.inst 5).st = .absent ∧ s.sqDrawn + c.f 20 2 + 1 ≤ 4096 ∧ s.cqDrawn + c.f 22 2 + 1 ≤ 4096 ∧ s.flowsDrawn + c.f 24 4 ≤ 65536 ∧
      s.pagesDrawn ≤ s.poolPages ∧ decide (s.lsDrawn + c.f 44 2 ≤ 2560) = decide (ls = 2544)) ∧
    (let c := cmdOf 0x19 [(16, 0), (18, 0x1C0), (46, 1), (47, 100), (48, 16777215)]
     runsB served c [] 0x19 = true ∧ c.clean [(16, 1), (18, 2), (28, 24)] = true ∧ c.f 18 2 < 512 ∧ ((queued served [c]).inst 0).st ≠ .absent ∧
     (∀ e ∈ [(0, 28, 2), (1, 30, 2), (2, 32, 4), (3, 36, 4), (4, 40, 4), (5, 44, 2), (6, 46, 1), (7, 47, 1), (8, 48, 4)],
       ¬(c.f 18 2 / 2 ^ e.1 % 2 = 1) → c.f e.2.1 e.2.2 = 0) ∧ 1 ≤ c.f 46 1 ∧ c.f 47 1 ≤ 100 ∧ c.f 48 4 ≤ 16777215) ∧
    (let c := cmdOf 0x19 [(16, 0), (18, 0x20), (44, 2560)]
     runsB { served with insts := [(0, Inst.managerFirst), (5, { Inst.managerFirst with lsUnits := 16 })] } c [] 0x19 = true ∧
     Inst.managerFirst.lsUnits.toNat < c.f 44 2 ∧ 2560 < 32 - Inst.managerFirst.lsUnits.toNat + c.f 44 2) ∧
    (∀ st ∈ [InstState.serving, .quiescing, .quiet, .detached], ∀ op ∈ [0x1A, 0x1B, 0x1C],
      let c := cmdOf op [(16, 5)]
      let s := queued { served with insts := [(0, Inst.managerFirst), (5, { Inst.managerFirst with st := st })] } [c]
      runsB served c [] op = true ∧ c.clean [(16, 1), (18, 2)] = true ∧ c.clean [(16, 1)] = true ∧ s.glb.manager ≠ some 5 ∧ (s.inst 5).st = st ∧
      (s.inst 5).quiesce ≠ some someTag) ∧
    (let c := cmdOf 0x1A [(16, 5)]
     let d := { cmdOf 0x52 [] with tag := ⟨5, 1, 8⟩, no := 1 }
     let u := { served with insts := [(0, Inst.managerFirst), (5, Inst.managerFirst)] }
     runsB u c [d] 0x1A = true ∧ c.clean [(16, 1), (18, 2)] = true ∧ ((queued u [c, d]).inst 5).st = .serving ∧ d ∈ (queued u [c, d]).rings.cmds ∧
     d.tag.inst = 5) ∧
    (let c := cmdOf 0x1A [(16, 0)]
     runsB served c [] 0x1A = true ∧ served.glb.manager = some (BitVec.ofNat 8 (c.f 16 1))) := by decide +kernel

/-- A function that is present with its instance SERVING or QUIESCING, one that is not, ports whose link is UP and not, and a transfer. -/
theorem witness_FunctionsComeAndGo :
    (served.glb.phase = .ready ∧ (served.fn 0).present = true ∧ served.glb.fetchPaused = false ∧ (served.inst 0).st = .serving) ∧
    (served.fn 65).present = false ∧ (served.inst 65).st = .absent ∧
    (({ Inst.managerFirst with st := .detached, hold := true } : Inst).st = .detached) ∧ (served.glb.ports.getLsbD 0 = true) ∧
    (served.glb.ports.getLsbD 3 = false ∧ served.glb.perst.getLsbD 3 = false) ∧ (AerKind.advisory ≠ .uncorrectable) ∧
    ({ host with d3hot := true } : Fn).d3hot = true ∧ someTag.inst = 0 ∧
    ((idle { Inst.managerFirst with st := .quiescing, quiesce := some someTag } host).inst 0).st = .quiescing ∧
    ((0 : BitVec 64) - (0 : BitVec 64)).toNat < 2 ^ 63 ∧ 2 ^ 63 ≤ ((0 : BitVec 64) - (1 : BitVec 64)).toNat ∧
    ({ served.glb with fetchPaused := true } : Glb).fetchPaused = true ∧
    (let s := { queued served [cmdOf 0x18 []] with glb := { served.glb with nextManager := some 5 } }
     s.glb.nextManager = some 5 ∧ s.glb.manager = some 0 ∧ (cmdOf 0x18 []) ∈ s.rings.cmds ∧ (cmdOf 0x18 []).tag.inst = 0 ∧
     (cmdOf 0x18 []).opcode ∈ managerOpcodes) ∧
    (let s := { queued served [cmdOf 0x05 []] with glb := { served.glb with nextManager := some 5 } }
     s.glb.nextManager = some 5 ∧ ∀ c ∈ s.rings.cmds, c.opcode ∉ managerOpcodes) := by decide +kernel

/-- A function whose allocation is 1, with nothing in flight, with one group in flight, and with a page that has been answered twice; at PRI_TIMEOUT of
1,000 ms and a tick before it. -/
theorem witness_PageRequestsAreIssuedAndAnswered :
    let key : PageKey := ⟨0, none, 5, false⟩
    let f := { host with pri := true, alloc := 1 }
    let s := { idle Inst.managerFirst f with xlat := { State.reset.xlat with reqs := [⟨key, [.sqFetch 0 1], 0⟩], faults := [(⟨0, none, 6, false⟩, 2)] } }
    ((host.pri = false) ∧ (f.pri = true ∧ f.priBlocked = false ∧ f.alloc ≠ 0)) ∧
    2 ≤ AMap.get s.xlat.faults ⟨0, none, (0x6FFF : BitVec 64).extractLsb' 12 52, false⟩ 0 ∧
    AMap.get s.xlat.faults key 0 < 2 ∧ ((s.xlat.reqs ++ s.xlat.waiting).filter fun r => r.key = key) ≠ [] ∧
    ((s.xlat.reqs ++ s.xlat.waiting).filter fun r => r.key = ⟨0, none, 7, false⟩) = [] ∧
    ¬((s.xlat.reqs.filter fun r => r.key.inst = 0).length < 1) ∧ (served.xlat.reqs.filter fun r => r.key.inst = 0).length < 1 ∧
    (∀ r ∈ served.xlat.reqs, r.key ≠ key) ∧ key ∈ ({ s.xlat with late := [key] } : Xlat).late ∧ key ∉ s.xlat.late ∧
    s.xlat.reqs.find? (fun x => x.key == key) = some ⟨key, [.sqFetch 0 1], 0⟩ ∧ (∀ x ∈ s.xlat.waiting, x.key ≠ key) ∧ s.xlat.waiting = [] ∧
    s.sq 0 1 = some (sqOn 1) ∧ (sqOn 1).st = .active ∧ s.cq 0 1 = some cqOf ∧
    25000 * (s.inst 0).priTimeout.toNat ≤ ((25000000 : BitVec 64) - 0).toNat ∧
    ((24999999 : BitVec 64) - 0).toNat < 25000 * (s.inst 0).priTimeout.toNat := by decide +kernel

/-! ### The hypotheses of the statements about events and tables can be met -/

/-- An INT32 column, a table that holds one segment of one row in slot 0, and the same segment lost or poisoned. -/
def seg4 : Segment :=
  { inst := 0, bytes := (buildSegment 4 0 1 0 3 [some (mkVal 4 9)]).1, rows := 1, lost := false, poison := [], rebuild := false, repair := []
    epoch := 0, cseq := 0 }
def table4 : Table := { gen := 6, cols := [⟨4, 0⟩, ⟨4, 0⟩], cells := [((0, 0), 3)], cseq := 1, home := true }
def stored : State := { served with
  store := { State.reset.store with tables := [((0, 2), table4)], segs := [(3, seg4)], nextSeg := 4, nextGen := 7 }
  insts := [(0, { Inst.managerFirst with tablePages := 400 })] }

/-- A write under tag 7 of function 0, which installs a segment, and the same committed. -/
def write4 : Write :=
  { no := 0, tag := some someTag, inst := 0, kind := .install, tid := 2, col := 1, slot := 0, seg := seg4.bytes, rows := 1, cols := []
    boundGen := 6, fua := false, phase := .built, fwdId := none, reqId := none, mseq := none, epoch := 0, cseq := 0, jpos := 0, pjpos := 0
    applied := true, localDurable := false, partnerDurable := true, completed := false, result := 0, undoCell := none, undoTable := none }

def holding (w : Write) : State := { stored with store := { stored.store with writes := [w] } }

/-- Event 1,023 and event 0 routed to vector 5; vectors with an occurrence pending, moderated, at their COUNT, masked and held by D3hot. -/
theorem witness_EventsAreRecordedAndSignalled :
    let x := { Vec.reset with masked := false, count := 2, time := 5 }
    let f (x : Vec) (d3 : Bool) := { host with vectors := [(5, x)], evtRoute := [(0, 0x8005)], d3hot := d3, pmeEn := d3 }
    let s (x : Vec) (d3 : Bool) := { served with fns := [(0, f x d3)] }
    1023 < 1024 ∧ (AMap.get ((s x false).fn 0).evtRoute (BitVec.ofNat 10 0) 0).getLsbD 15 = true ∧ served.glb.manager = some 0 ∧
    ({ served with glb := { served.glb with manager := none } } : State).glb.manager = none ∧ (512 : Nat) ≤ 1023 ∧
    ({ x with pending := true } : Vec).pending = true ∧ x.pending = false ∧ ¬(x.time = 0 ∨ x.count ≤ x.c + 1) ∧
    (let y := { x with c := 1, timer := true }; (y.count ≤ y.c + 1 ∧ y.timer = true ∧ y.c ≠ 0 ∧ 25 * y.time ≤ ((125 : BitVec 64) - y.since).toNat)) ∧
    (served.glb.phase ≠ .saved ∧ served.glb.phase ≠ .fatal ∧ ((s x false).fn 0).present = true ∧ ((s x false).fn 0).bme = true ∧ ((s x false).inst 0).st = .serving ∧ ((s x false).fn 0).fnMask = false) ∧
    ((s x true).fn 0).d3hot = true ∧ Vec.reset.masked = true ∧ (Fn.reset.present = false) ∧
    ((2047 : BitVec 11).toNat < 2048 ∧ (63 : BitVec 11).toNat < 64) ∧ (∀ e ∈ ((s x false).fn 0).vectors, e.2.pending = false) := by decide +kernel

/-- TABLE_CREATE of one INT32 column; a drop and a deletion of a table that exists and of one that does not; a SEGMENT_WRITE and a PAGES_PUT of one row;
a SEGMENT_READ into a buffer that the segment fills and into one a byte shorter; a FLUSH with a write left and with none. -/
theorem witness_TableCommandsBuildWrites :
    (let c := cmdOf 0x40 [(8, 0x1000), (16, 4), (24, 2)]
     runsB stored c [] 0x40 = true ∧ c.clean [(8, 8), (16, 4), (20, 4), (24, 2)] = true ∧ c.f 16 4 = 4 ∧ c.f 20 4 < 2 ^ 20 ∧
     parseCols [4, 0, 0, 0] = some [⟨4, 0⟩] ∧ (stored.inst 0).unsynced = false ∧ (queued stored [c]).store.writes = [] ∧ (queued stored [c]).quotaFits 0 0 0 1 = true) ∧
    (∀ op ∈ [0x41, 0x4B], ∀ tid ∈ [2, 3],
      let c := cmdOf op [(24, tid)]
      runsB stored c [] op = true ∧ c.clean [(24, 2)] = true ∧
      AMap.find? (queued stored [c]).store.tables (0, BitVec.ofNat 16 (c.f 24 2)) = if tid = 2 then some table4 else none) ∧
    (let c := cmdOf 0x48 [(8, 0x1000), (16, 4), (24, 2), (26, 1), (32, 1), (36, 1), (37, 0)]
     let s := queued stored [c]
     runsB stored c [] 0x48 = true ∧ c.f 38 2 = 0 ∧ c.f 56 8 = 0 ∧ c.f 36 1 < 64 ∧ c.f 37 1 < 16 ∧ c.f 32 4 = 1 ∧ c.stage = .fetched ∧
     AMap.find? s.store.tables (0, 2) = some table4 ∧ table4.cols[1]? = some ⟨4, 0⟩ ∧ hintBad 4 (c.f 36 1 % 16) (c.f 36 1 / 16) (c.f 37 1) = false ∧
     isStr 4 = false ∧ c.f 48 8 = 0 ∧ c.f 16 4 = 1 * tyBytes 4 ∧ c.f 40 8 = 0 ∧ rawFixed 4 [true] [9, 0, 0, 0] = some [some (mkVal 4 9)] ∧
     (buildSegment 4 1 1 0 3 [some (mkVal 4 9)]).1.length ≤ 4194304 ∧ (buildSegment 4 1 1 0 3 [some (mkVal 4 9)]).2 ≤ 65536 ∧
     s.quotaFits 0 1 1 0 = true) ∧
    (let c := cmdOf 0x49 [(8, 0x1000), (16, 128), (24, 2), (32, 1)]
     runsB stored c [] 0x49 = true ∧ c.clean [(8, 28)] = true ∧ c.f 32 4 = 1 ∧ c.f 16 4 % 64 = 0 ∧ seg4.bytes.length = c.f 16 4 ∧
     (match checkSegment 4 0 1 seg4.bytes with | .ok _ => true | _ => false) = true ∧
     (match checkSegment 4 0 1 (seg4.bytes.set 64 1) with | .integrity => true | _ => false) = true) ∧
    (∀ len ∈ [127, 128],
      let c := cmdOf 0x4A [(8, 0x1000), (16, len), (24, 2)]
      let s := queued stored [c]
      runsB stored c [] 0x4A = true ∧ c.clean [(8, 24)] = true ∧ AMap.find? s.store.reads someTag = none ∧ AMap.find? table4.cells (0, 0) = some 3 ∧
      AMap.find? s.store.segs 3 = some seg4 ∧ seg4.rebuild = false ∧ seg4.repair = [] ∧ s.accOf 0 .ok = .ok ∧ seg4.lost = false ∧ seg4.poison = [] ∧
      crcsOk (seg4.bytes.length / 64 + 1) seg4.bytes = true ∧ decide (c.f 16 4 < seg4.bytes.length) = decide (len = 127)) ∧
    ({ seg4 with lost := true } : Segment).lost = true ∧
    (let c := cmdOf 0x4C []
     runsB stored c [] 0x4C = true ∧ c.clean [] = true ∧ AMap.find? ({ stored.store with flushes := [(someTag, [0])] } : Store).flushes someTag = some [0] ∧
     ({ write4 with phase := .committed } : Write).no ∈ [0] ∧ ¬(write4.localDurable = true)) := by
  refine ⟨?_, ?_, ?_, ?_, ?_, ?_, ?_⟩ <;> decide +kernel

/-- Writes of each kind that commit, one to a table of the partner, one of a table that the directory has not admitted, and one behind another. -/
theorem witness_WritesCommitAndBecomeDurable :
    (served.glb.phase = .ready ∧ served.pair.role ∉ [Role.fenced, .joining, .paired] ∧ served.jobsWait someTag = false ∧
      (let job : CompJob := { format := 2, level := 12, cksum := false, dict := none, dictId := 0, inst := 0, client := 2, qid := 0, maxOut := 65536
                              unitKib := 0, input := [] }
       ({ served with disp := { served.disp with jobq := [{ engine := 0, prio := 8, owner := .cmd someTag, decode := false, job := job }] } } :
         State).jobsWait someTag = true) ∧ table4.gen ≠ ({ write4 with boundGen := 5 } : Write).boundGen) ∧
    (∀ kind ∈ [WriteKind.install, .empty, .drop],
      let w := { write4 with kind := kind }
      let s := holding w
      s.forwards w = false ∧ s.store.writes.find? (fun x => x.tag == some someTag) = some w ∧ w.phase = .built ∧
      AMap.find? s.store.tables (w.inst, w.tid) = some table4 ∧ table4.gen = w.boundGen ∧ w.col.toNat < table4.cols.length ∧
      ∀ e ∈ table4.cells, e.1.2 = w.slot → e.1.1 ≠ w.col → ∀ g ∈ AMap.find? s.store.segs e.2, g.rows = w.rows) ∧
    (∀ kind ∈ [WriteKind.create, .install],
      let w := { write4 with kind := kind, tid := 9, cols := [⟨4, 0⟩] }
      (holding w).forwards w = false ∧ AMap.find? (holding w).store.tables (w.inst, w.tid) = none) ∧
    (let s := { holding write4 with pair := { State.reset.pair with role := .paired } }
     s.pair.role = .paired ∧ s.pair.lead = false ∧ AMap.find? ({ s.store with tables := [((0, 2), { table4 with home := false })] } : Store).tables (0, 2) =
       some { table4 with home := false }) ∧
    (let w := { write4 with phase := .committed, no := 5 }
     (holding w).store.writes.find? (fun x => x.no == 5 && x.phase == .committed && !x.localDurable) = some w ∧
     ({ w with no := 4 } : Write).no < w.no ∧ w.tag = some someTag ∧ w.applied = true ∧ w.completed = false ∧ w.partnerDurable = true) := by
  refine ⟨?_, ?_, ?_, ?_, ?_⟩ <;> decide +kernel

/-! ### The hypotheses of the statements about queries and their work can be met -/

/-- Bytes with little-endian fields (offset, size, value) over zeros. -/
def laid (n : Nat) (fields : List (Nat × Nat × Nat)) : Bytes :=
  leBytes n (fields.foldl (fun m f => m + f.2.2 * 256 ^ f.1) 0)

/-- An image of SCAN and MATERIALIZE with one framed stream between them and a SCAN column entry among its constants (05 R145-R152, 08 R247):
header, operators at 64, the stream at 320, constants at 384. -/
def scanFields : List (Nat × Nat × Nat) :=
  [(0, 4, 0x31495046), (4, 1, 1), (8, 4, 448), (16, 2, 2), (18, 2, 1), (24, 4, 64), (28, 4, 320), (36, 4, 384), (40, 4, 16), (50, 1, 1),
   -- operator 0: SCAN of table 2, one column, output stream 0
   (64, 1, 0x01), (68, 1, 0), (69, 1, 1), (70, 2, 0xFFFF), (72, 8, 0xFFFFFFFFFFFFFFFF), (80, 8, 0xFFFFFFFFFFFFFFFF), (88, 2, 0), (90, 6, 0xFFFFFFFFFFFF),
   (96, 1, 0xFF), (112, 4, 0x40000000), (116, 2, 2), (118, 1, 1), (124, 4, 5),
   -- operator 1: MATERIALIZE, input stream 0, chain 0
   (192, 1, 0x49), (194, 2, 1), (196, 1, 1), (198, 2, 0xFFFF), (200, 2, 0), (202, 6, 0xFFFFFFFFFFFF), (208, 8, 0xFFFFFFFFFFFFFFFF), (216, 8, 0xFFFFFFFFFFFFFFFF),
   (224, 1, 0),
   -- stream 0
   (322, 2, 0), (324, 2, 1), (328, 1, 8),
   -- the column entry: column 0 to port 0, its values
   (386, 1, 4)]
def scanImage : Bytes := laid 448 ((12, 4, 2449310227) :: scanFields)

/-- The image with zeros for its CRC, in eighths, and its CRC-32C by eighths. -/
def scanPart (k : Nat) : Bytes := slice (overlay scanImage 12 (zeros 4)) (56 * k) 56
theorem scan_parts : overlay scanImage 12 (zeros 4) =
    scanPart 0 ++ scanPart 1 ++ scanPart 2 ++ scanPart 3 ++ scanPart 4 ++ scanPart 5 ++ scanPart 6 ++ scanPart 7 := by decide +kernel
theorem scan_crc_0 : (scanPart 0).foldl crcByte 4294967295 = 904763335 := by decide +kernel
theorem scan_crc_1 : (scanPart 1).foldl crcByte 904763335 = 3495491294 := by decide +kernel
theorem scan_crc_2 : (scanPart 2).foldl crcByte 3495491294 = 1657808284 := by decide +kernel
theorem scan_crc_3 : (scanPart 3).foldl crcByte 1657808284 = 1042955007 := by decide +kernel
theorem scan_crc_4 : (scanPart 4).foldl crcByte 1042955007 = 4204070147 := by decide +kernel
theorem scan_crc_5 : (scanPart 5).foldl crcByte 4204070147 = 1202090005 := by decide +kernel
theorem scan_crc_6 : (scanPart 6).foldl crcByte 1202090005 = 3186450208 := by decide +kernel
theorem scan_crc_7 : (scanPart 7).foldl crcByte 3186450208 = 1845657068 := by decide +kernel
theorem scan_crc : crc32cHole scanImage 12 = 2449310227 := by
  simp only [crc32cHole, scan_parts, crc32c, List.foldl_append]
  rw [show (0xFFFFFFFF : BitVec 32) = 4294967295 from rfl, scan_crc_0, scan_crc_1, scan_crc_2, scan_crc_3, scan_crc_4, scan_crc_5, scan_crc_6, scan_crc_7]
  decide +kernel

theorem test_image_is_valid : imageErr scanImage 448 none = none := by
  simp only [imageErr, scan_crc]
  decide +kernel

/-- A descriptor of a buffer of 4,096 bytes whose LINK ends the chain, and one that names the next at 0x2000 (05 R172). -/
def descEnd : Bytes := laid 32 [(0, 8, 0x10000), (8, 8, 1), (16, 4, 4096)]
def chain0 : Chain :=
  { desc := 0x1000, buf := 0x10000, len := 4096, filled := 0, atEnd := false, linkWait := false, linkDue := false, bytes := 0, bseq := 0 }

/-- A query under tag 7 of function 0, with an image. -/
def queryOf (st : QState) (im : Option Image) : Query :=
  { tag := someTag, no := 0, st := st, status := 0, raw := some scanImage, image := im, params := [], prio := 3, deadline := 0, fetched := 0
    cswAddr := 0x3000, pasid := none, chains := [chain0], pauses := 0, index := 0, reason := 0, qid := if im.isSome then some 0 else none
    snap := [(2, table4)], totals := List.replicate 16 0, overflows := [], finished := 0, staged := 0, pods := [], ctags := [], noCsw := false, cswHeld := []
    closes := [] }

/-- QUERY_SUBMIT of the image of `scanImage`. -/
def submit : Cmd := cmdOf 0x52 [(8, 0x8000), (16, 448), (24, 3), (40, 0x1000), (56, 0x3000)]

theorem witness_QueriesAreValidatedRunAndEnded :
    -- IMAGE_LOAD of an image that is valid, of one that is not, and one too many; IMAGE_UNLOAD
    ((let c := cmdOf 0x50 [(8, 0x8000), (16, 448)]
      runsB stored c [] 0x50 = true ∧ c.clean [(8, 8), (16, 4), (20, 4)] = true ∧ c.f 16 4 = 448 ∧ scanImage.length = 448 ∧
      (queued stored [c]).quotaFits 0 1 0 0 = true ∧ ((queued stored [c]).inst 0).images.length < 1024 ∧ (zeros 448).length = 448) ∧
      imageErr (zeros 448) 448 none = some (1, 0xFFFF)) ∧
    (let c := cmdOf 0x51 [(16, 1)]
     runsB stored c [] 0x51 = true ∧ c.clean [(16, 4)] = true ∧ AMap.find? ({ Inst.managerFirst with images := [(1, scanImage)] } : Inst).images 1 =
       some scanImage) ∧
    -- QUERY_SUBMIT
    (runsB stored submit [] 0x52 = true ∧ (queued stored [submit]).query? someTag = none ∧ submit.f 56 8 ≠ 0 ∧ submit.f 56 8 % 32 = 0 ∧
      bodyErr submit none = none ∧ bodyErr (cmdOf 0x52 [(16, 448), (40, 0x1008), (56, 0x3000)]) none = some (0x0C, 0)) ∧
    -- validation
    (let q := { queryOf .validating none with raw := none }
     let s := { queued stored [submit] with queries := [q] }
     (s.query? someTag = some q ∧ ∀ p ∈ s.queries, p.tag = someTag → p = q) ∧ s.cmd? someTag = some submit ∧ q.pods = [] ∧ q.qid = none ∧
     s.waitsFor (.query someTag) = false ∧ submit.f 24 1 / 16 % 2 = 0 ∧ s.stagingUse + submit.f 16 4 ≤ 2 ^ 28) ∧
    ((readImage scanImage).paramSize = 0 ∧ (readImage scanImage).nChains = 1 ∧ submit.f 32 8 = 0 ∧ submit.f 48 8 = 0 ∧
      paramsErr (readImage scanImage) (some []) = none ∧ submit.f 40 8 % 32 = 0 ∧ (readDesc 0x1000 descEnd).isSome = true ∧ descEnd.length = 32 ∧
      (readImage scanImage).flows ≤ Inst.managerFirst.maxFlows.toNat) ∧
    (let q := queryOf .validating none
     ({ queued stored [submit] with queries := [q] } : State).contextsFree q (readImage scanImage) = true ∧
     ({ queued stored [submit] with queries := [q], insts := [(0, { Inst.managerFirst with maxFlows := 0 })] } : State).contextsFree q
       (readImage scanImage) = false) ∧
    -- admission, the end, the deadline and the stop
    (let im := readImage scanImage
     let q := { queryOf .waiting (some im) with qid := none }
     q.image = some im ∧ q.st = .waiting ∧ q.qid = none ∧ ∀ p ∈ [q], ¬(p.prio.toNat < q.prio.toNat ∨ (p.prio = q.prio ∧ p.no < q.no))) ∧
    (let im := readImage scanImage
     let q := { queryOf .running (some im) with deadline := 1 }
     let s := { queued stored [submit] with queries := [q], ops := [((someTag, 1), { OpCtx.fresh with ended := true })], time := 25 }
     im.outputs = [1] ∧ (∀ k ∈ im.outputs, ((s.op? someTag (BitVec.ofNat 16 k)).map (·.ended)) = some true) ∧ s.awaitsClose q im = false ∧
     s.accOf 0 .ok = .ok ∧ s.waitsFor (.csw someTag) = false ∧ (q.deadline ≠ 0 ∧ 25 * q.deadline.toNat ≤ (s.time - q.fetched).toNat) ∧
     ¬(25 * q.deadline.toNat ≤ ((24 : BitVec 64) - q.fetched).toNat) ∧ ∀ x ∈ s.disp.items, x.query = someTag → x.st ≠ .running) := by
  refine ⟨⟨?_, ?_⟩, ?_, ?_, ?_, ?_, ?_, ?_, ?_⟩ <;> decide +kernel

/-- A paused query whose chain 0 is at END, LINKs that still end it, that go on, and that are broken; a running query whose LINK is due. -/
theorem witness_ChainsPauseAndResume :
    let c := cmdOf 0x53 [(16, 1), (18, 7)]
    let q := { queryOf .paused (some (readImage scanImage)) with chains := [{ chain0 with atEnd := true }] }
    let t : Tag := ⟨0, 1, 9⟩
    let d := { c with tag := t }
    let s := { queued stored [] with queries := [q], rings := { (queued stored []).rings with cmds := [d] } }
    let ends : LinkRead := { chain := 0, link := .data (leBytes 8 1), desc := .lost }
    let on : LinkRead := { chain := 0, link := .data (leBytes 8 0x2000), desc := .data descEnd }
    (s.cmd? t = some d ∧ d.opcode = 0x53 ∧ s.waitsFor (.cmd t) = false ∧ d.clean [(16, 4)] = true ∧ d.f 16 2 < 4096) ∧
    (s.sq 0 (BitVec.ofNat 12 (d.f 16 2))).isSome = true ∧ s.sq 0 5 = none ∧ s.query? ⟨0, 1, 7⟩ = some q ∧ s.query? ⟨0, 1, 8⟩ = none ∧ q.st = .paused ∧
    positions (fun (x : Chain) => x.atEnd) q.chains = [0] ∧ q.chains[0]? = some { chain0 with atEnd := true } ∧
    (match s.readLink 0 { chain0 with atEnd := true } ends with | .endsHere => true | _ => false) = true ∧
    (match s.readLink 0 { chain0 with atEnd := true } on with | .enters _ => true | _ => false) = true ∧
    (match s.readLink 0 chain0 { on with link := .data (leBytes 8 2) } with | .bad => true | _ => false) = true ∧
    (match s.readLink 0 chain0 { on with desc := .data (laid 32 [(8, 8, 1), (16, 4, 4095)]) } with | .broken => true | _ => false) = true ∧
    (match s.readLink 0 chain0 { on with link := .lost } with | .lost => true | _ => false) = true ∧
    ({ chain0 with linkDue := true } : Chain).linkDue = true ∧ chain0.atEnd = false := by decide +kernel

/-- An operator of a type, its PARAMS from fields. -/
def opOf (code : BitVec 8) (ins outs : List (BitVec 16)) (fields : List (Nat × Nat × Nat)) : OpDesc :=
  { ty := code, atomic := false, preempt := true, ins := ins, outs := outs, kernel := 0, chain := 0, params := laid 80 fields }
def stream0 (framed : Bool) : Stream :=
  { elem := 4, framed := framed, spillKib := 64, wp := 0, rp := 0, wp2 := 0, rp2 := 0, pages := 0, words := [], inMiddle := [], frames := []
    nextFrame := 0, rowsIn := 0, opens := [], holder := none, st := .opened, home := 0, gated := false, discard := false, reads := [] }
def item0 (st : ItemState) : Item :=
  { id := 9, query := someTag, op := 0, qid := 0, flow := 0, flowNo := 0, prio := 3, preempt := true, atomic := false, origin := 0, count := 1
    progress := 0, subpos := 0, subport := 0, st := st, lastStop := 0, opstate := 0, cause := none, outq := [], inFrame := [], claims := [], block := []
    unitLen := 0, since := 0, startRows := 0, rows := [], opens := [], stall := none, pagesIn := [], part := 0, runRows := 0, ls := 0
    spill := 0, pageDue := none }

/-- A running query of one operator, between streams 0 and 1, with items and runners; cluster 0 sprints, and its second scan unit is out of
service. -/
def world (ops : List OpDesc) (items : List Item) (runners : AMap Runner RunnerState) (framed : Bool) : State :=
  let d : StreamDesc := { producer := 0xFFFF, consumer := 0xFFFF, prodPort := 0, consPort := 0, elem := 2, framed := framed, spillKib := 64 }
  let im : Image := { ops := ops, streams := [d, d], kernels := [{ code := zeros 8, entry := 4, scratchKib := 8, minVlenb := 0 }], asas := []
                      consts := leBytes 8 70000, paramSize := 0, nChains := 1 }
  { queued stored [submit] with
    queries := [queryOf .running (some im)], streams := [(⟨someTag, 0⟩, stream0 framed), (⟨someTag, 1⟩, stream0 framed)]
    ops := [((someTag, 0), OpCtx.fresh), ((someTag, 1), OpCtx.fresh)]
    disp := { State.reset.disp with
      items := items, nextItem := 10, flows := [((someTag, 0, 0), { number := 0, atomic := false, cursor := 0, done := false })], runners := runners ++ [(⟨.scan, 1⟩, { RunnerState.idle with out := true })]
      generated := (items.filter fun i => i.st == .ready).map (·.id) }
    power := { State.reset.power with clusters := [(0, .sprint)] } }
def running (n : Nat) : RunnerState := { RunnerState.idle with running := some n }
def slotted (n : Nat) : RunnerState := { RunnerState.idle with slot := some n }
def q0 (s : State) : Query := s.queries.headD (queryOf .done none)
def im0 (s : State) : Image := (q0 s).image.getD (readImage scanImage)

def scan : OpDesc := opOf 0x01 [] [0] [(0, 4, 0x40000000), (4, 2, 2), (6, 1, 1), (12, 4, 5)]
/-- COMPUTE over a range of 70,000 elements. -/
def compute : OpDesc := opOf 0x10 [0] [1] [(6, 1, 0xFF), (12, 4, 0x40000000)]
def filter : OpDesc := opOf 0x02 [0] [1] []
def ec00 : Runner := ⟨.ec, 0⟩
def scan0 : Runner := ⟨.scan, 0⟩
def frame0 (claim : Option Nat) : FramePos := { no := 0, start := 0, words := 2, filled := 2, popped := 0, owner := 1, claim := claim, origin := 0, got := [], short := false }

theorem witness_ItemsAreGeneratedRunAndEnded :
    -- generation
    (∀ o ∈ [scan, compute, filter],
      let s := world [o] [] [] true
      s.query? someTag = some (q0 s) ∧ (q0 s).st = .running ∧ (q0 s).opOf 0 = some (im0 s, o) ∧ s.op? someTag 0 = some OpCtx.fresh ∧
      s.disp.items.length < 262144 ∧ (AMap.find? s.disp.flows (someTag, 0, 0)).isSome = true) ∧
    (let s := world [scan] [] [] true
     (s.scanRanges (q0 s) (im0 s) scan)[s.cursor someTag 0 0]? = some (0, 0, 1)) ∧
    (let s := world [compute] [] [] true
     compute.p 6 1 = 0xFF ∧ computeTotal (im0 s) (q0 s).params compute = 70000 ∧ s.cursor someTag 0 0 * compute.itemElems < 70000) ∧
    (filter.code ∉ [0x01, 0x10, 0x31, 0x48] ∧ filter.fedFlow 0 = true) ∧
    -- the slot
    (let i := item0 .ready
     let s := world [scan] [i] [(scan0, RunnerState.idle)] true
     (s.refill.runner scan0).slot = none ∧ s.refill.nextFor scan0 = some i) ∧
    (let i := { item0 .slotted with prio := 5 }
     let j := { item0 .ready with id := 8 }
     let s := world [scan] [i, j] [(scan0, slotted 9)] true
     s.slotted? scan0 = some i ∧ s.item? 8 = some j ∧ s.eligible j = true ∧ s.usable scan0 j = true ∧ j.prio.toNat < i.prio.toNat ∧
     ∀ x ∈ s.runners, s.usable x j = true → s.slotted? x = some i) ∧
    (let i := item0 .slotted
     let s := world [scan] [i] [(scan0, slotted 9)] true
     s.slotted? scan0 = some i ∧ (s.runner scan0).running = none ∧ s.inService scan0 = true ∧ s.query? i.query = some (q0 s) ∧ (q0 s).deadline = 0 ∧
     scan0.kind ≠ .ec) ∧
    (let i := item0 .slotted
     let s := world [compute] [i] [(ec00, slotted 9)] false
     s.slotted? ec00 = some i ∧ s.inService ec00 = true ∧ (s.core (ecOf ec00)).mode = 1 ∧ (s.core (ecOf ec00)).halted = false ∧
     (q0 s).opOf i.op = some (im0 s, compute) ∧ AMap.find? s.cores.saved i.id = none ∧ ((im0 s).kernels[compute.kernel.toNat]?).isSome = true) ∧
    -- stopping, parking and ending
    (let p := { item0 .running with prio := 9 }
     let i := { item0 .ready with id := 8 }
     let j := { item0 .slotted with id := 7, prio := 9 }
     let s := world [scan] [p, i, j] [(scan0, { running 9 with slot := some 7 })] true
     s.running? scan0 = some p ∧ s.item? 8 = some i ∧ s.eligible i = true ∧ s.preemptTarget i = some scan0 ∧ s.atBoundary scan0 p = true ∧
     (s.nextFor scan0).map (·.id) = some i.id ∧ (s.runner scan0).slot ≠ some i.id ∧ s.endRange scan0 = none ∧
     ∀ x ∈ s.runners, s.usable x i = true → (s.runner x).slot.isSome = true ∧ (s.runner x).running.isSome = true) ∧
    -- a runner that has been told to stop, whose item's range is complete or not, and whose query is STOPPING
    (∀ n ∈ [0, 1],
      let p := { item0 .running with progress := n }
      let s := world [scan] [p, { item0 .slotted with id := 8 }] [(scan0, { running 9 with slot := some 8, stopDue := true })] true
      s.running? scan0 = some p ∧ (s.runner scan0).stopDue = true ∧ (s.runner scan0).slot = some 8 ∧ (s.item? 8).isSome = true ∧
      s.query? p.query = some (q0 s) ∧ (s.endRange scan0).isSome = decide (n = 1) ∧
      ({ q0 s with st := .stopping } : Query).st = .stopping) ∧
    (let i := item0 .running
     let s := world [filter] [i] [(scan0, running 9)] true
     s.service scan0 = some (i, q0 s, im0 s, filter, OpCtx.fresh) ∧ s.causeHolds (q0 s) filter i OpCtx.fresh .stream = true ∧ filter.code ≠ 0x10) ∧
    (let i := { item0 .parked with cause := some .spill }
     let s := { world [filter] [i] [(scan0, RunnerState.idle)] true with insts := [(0, { Inst.managerFirst with spillPages := 1 })] }
     s.item? i.id = some i ∧ s.query? i.query = some (q0 s) ∧ (q0 s).opOf i.op = some (im0 s, filter) ∧ s.op? i.query i.op = some OpCtx.fresh ∧
     i.st = .parked ∧ s.causeOver (q0 s) filter i OpCtx.fresh i.cause = true) ∧
    (let i := { item0 .running with progress := 1 }
     let s := world [scan] [i] [(scan0, running 9)] true
     s.service scan0 = some (i, q0 s, im0 s, scan, OpCtx.fresh) ∧ (q0 s).st ≠ .stopping ∧ scan.code ≠ 0x10 ∧
     s.rangeDone (q0 s) (im0 s) scan i OpCtx.fresh = true) ∧
    (let i := { item0 .parked with cause := some .spill, lastStop := 3 }
     let s := world [filter] [i] [] true
     q0 s ∈ s.queries ∧ (q0 s).tag.inst = 0 ∧ s.query? (q0 s).tag = some (q0 s) ∧ (q0 s).st = .running ∧ i ∈ s.disp.items ∧ i.query = (q0 s).tag ∧
     i.st = .parked ∧ i.lastStop = 3 ∧ (∀ p ∈ s.queries, p.no ≤ (q0 s).no ∧ (p.no = (q0 s).no → p = q0 s)) ∧
     ∀ x ∈ s.disp.items, x.query.inst = 0 → s.holdsSpill x.query = true → x.st = .parked ∧ (x.lastStop = 3 ∨ x.lastStop = 4)) := by
  refine ⟨?_, ?_, ?_, ?_, ?_, ?_, ?_, ?_, ?_, ?_, ?_, ?_, ?_, ?_⟩ <;> decide +kernel

/-- A core in a kernel of the item of `world`, with sixteen elements of four bytes. -/
def streaming (st : Stream) : State :=
  let s := world [compute] [item0 .running] [(ec00, running 9)] false
  { s with streams := [(⟨someTag, 0⟩, st), (⟨someTag, 1⟩, stream0 false)]
           cores := { s.cores with cores := [(ec0, { kernel [] with item := some 9, sew := 2, vl := 16 })] } }
def oneWord : Stream := { stream0 false with wp := 1, words := [(0, StreamWord.of 7 64)] }

/-- The word of `oneWord` popped, of which nothing is read yet. -/
def readWord : Stream := { stream0 false with reads := [(0, ⟨zeros 64, 0, none, 0⟩)] }
theorem pops_oneWord (n : Nat) : oneWord.popView n = .word 7 64 := by
  simp [Stream.popView, oneWord, stream0, AMap.find?, Stream.inHead, StreamWord.sound, StreamWord.of]

theorem ready_streaming : Fresh (streaming oneWord) ec0 :=
  ⟨⟨by decide +kernel, by decide +kernel, by decide +kernel, by decide +kernel, by decide +kernel⟩, by decide +kernel⟩

/-- An MC, which has no ports; an EC with ports 0 and without port 1, with a whole word to pop and room to push; a core that masked its interrupts
beyond MASKLIMIT. -/
theorem witness_StreamInstructionsAndMaskTimeout :
    (Fresh s1 mc0 ∧ mc0.isEc = false) ∧ (Fresh (streaming oneWord) ec0 ∧ ec0.isEc = true) ∧
    (let s := streaming oneWord
     let c := s.core ec0
     s.portOf c false 1 = none ∧ s.portOf c true 1 = none ∧
     (∃ p, s.portOf c false 0 = some p ∧ p.st = oneWord ∧ p.place 0 = ⟨[], 0, none, 0⟩ ∧ p.st.popView p.item.id = .word 7 64 ∧ p.st.framed = false ∧
      p.st.rp = p.st.rp2) ∧
     (match (streaming readWord).portOf c false 0 with
      | some p => decide ((p.place 0).at_ % c.eb = 0) &&
          decide ((popRun c.eb (c.lanes ec0) (p.isElem 0) (c.lanes ec0 + 1)
            { st := p.st, p := p.place 0, it := p.item, v := c.getV 1, i := 0, bad := false }).2 = .full)
      | none => false) = true ∧ c.vl.toNat * c.eb = 64 ∧ c.vl.toNat = c.lanes ec0 ∧
     (match s.portOf c true 0 with
      | some p => decide (c.vl.toNat * c.eb % p.st.elem = 0) && decide (p.st.framed = false) && decide (p.st.holder = none) &&
          decide (AMap.get p.st.opens 0 [] = []) && (pushRun p (c.getV 1) c.eb (p.st.elem / c.eb) (c.lanes ec0) (c.lanes ec0 + 1) 0 s.tick).2.2
      | none => false) = true ∧ 1 * 1 % (stream0 false).elem ≠ 0) ∧
    (c1.maskCount ≤ served.cores.masklimit.toNat ∧ ({ c1 with halted := true } : Core).halted = true) ∧
    (let s := withCore ec0 { kernel [] with maskCount := 8193 }
     (s.core ec0).halted = false ∧ s.cores.masklimit.toNat < (s.core ec0).maskCount ∧ CoreId.mc 0 ≠ ec0 ∧ (s.core (.mc 0)).halted = false ∧
     ∀ j : BitVec 2, ¬(j.toNat < (0 : BitVec 2).toNat)) := by
  refine ⟨⟨ready_firmware, ?_⟩, ⟨ready_streaming, ?_⟩, ⟨?_, ?_, ⟨_, rfl, rfl, rfl, pops_oneWord _, rfl, rfl⟩, ?_⟩, ?_, ?_⟩ <;> decide +kernel

/-- The first frame of a stream, of two words, and the item that takes it. -/
def firstFrame : Stream := { stream0 true with wp := 2, words := [(0, StreamWord.of 0x4642 64), (1, StreamWord.of 0 64)], frames := [frame0 none] }
theorem pops_firstFrame (n : Nat) : firstFrame.popView n = .word 0x4642 64 := by
  simp [Stream.popView, Stream.frameFor, firstFrame, frame0, stream0, AMap.find?, Stream.inHead, StreamWord.sound, StreamWord.of]

/-- Streams with room, at the end of a block with and without another to take, failed, with copies of WP that differ, held by an item, empty, ended, with a
word in the head and with one in the middle. -/
theorem witness_WordsAreCommittedAndPopped :
    let full : Stream := { stream0 false with wp := 32, wp2 := 32 }
    let s (st : Stream) (v : Inst) : State := { world [filter] [] [] true with streams := [(⟨someTag, 0⟩, st)], insts := [(0, v)] }
    ((s (stream0 false) Inst.managerFirst).stream? ⟨someTag, 0⟩ = some (stream0 false) ∧ ((stream0 false).wp - (stream0 false).rp).toNat < 32 ∧
      (stream0 false).wp = (stream0 false).wp2 ∧ ({ stream0 false with wp2 := 1 } : Stream).wp ≠ ({ stream0 false with wp2 := 1 } : Stream).wp2 ∧
      ({ stream0 false with holder := some 9 } : Stream).holder = some 9 ∧ oneWord.inHead 0 = true ∧ oneWord.inHead 16 = false) ∧
    (32 ≤ (full.wp - full.rp).toNat ∧ (full.wp - full.rp).toNat < 32 + 1024 ∧ 64 * (full.pages + 1) ≤ full.spillKib ∧
      (s full { Inst.managerFirst with sspillPages := 1 }).sspillUse 0 < 1 ∧ ¬((s full Inst.managerFirst).sspillUse 0 < 0)) ∧
    ({ stream0 false with st := .failed } : Stream).st = .failed ∧
    ((stream0 false).rp = (stream0 false).wp ∧ oneWord.rp ≠ oneWord.wp ∧ AMap.find? oneWord.words oneWord.rp = some (StreamWord.of 7 64) ∧
      oneWord.rp ∉ oneWord.inMiddle ∧ oneWord.gated = false ∧ (q0 (s oneWord Inst.managerFirst)).st = .running) ∧
    (let w : OutWord := { port := 0, word := 7, progress := none, opstate := none }
     let i := { item0 .running with outq := [w] }
     let s := world [filter] [i] [(scan0, running 9)] true
     s.service scan0 = some (i, q0 s, im0 s, filter, OpCtx.fresh) ∧ i.outq = w :: [] ∧ State.outRef (q0 s) filter 0 = some ⟨someTag, 1⟩ ∧
     StreamFlaw.sound ≠ .pointer) ∧
    (let i := item0 .running
     let s := world [scan] [i] [(scan0, running 9)] true
     s.service scan0 = some (i, q0 s, im0 s, scan, OpCtx.fresh) ∧ i.outq = [] ∧ scan.code = 0x01 ∧ i.progress < i.count) ∧
    (let i := item0 .running
     let st := firstFrame
     let s := { world [filter] [i] [(scan0, running 9)] true with streams := [(⟨someTag, 0⟩, st)] }
     s.service scan0 = some (i, q0 s, im0 s, filter, OpCtx.fresh) ∧ filter.ins[0]? = some 0 ∧ (q0 s).stream 0 = ⟨someTag, 0⟩ ∧
     s.stream? ⟨someTag, 0⟩ = some st ∧ st.popView i.id = .word 0x4642 64 ∧ s.heldFrame (q0 s) i 0 = none ∧ (∀ e ∈ i.inFrame, e.1 = 0 ∨ e.2 = []) ∧
     s.takesFrame (q0 s) (im0 s) filter OpCtx.fresh i 0 = true ∧ (st.popped i.id).rp = (st.popped i.id).rp2) ∧
    compute.code = 0x10 := by
  refine ⟨?_, ?_, ?_, ⟨?_, ?_, rfl, ?_⟩, ?_, ?_, ⟨?_, ?_, ?_, rfl, pops_firstFrame _, ?_⟩, ?_⟩ <;> decide +kernel

def gone0 : Stream := { stream0 true with st := .ended }
/-- `world` with stream 0 at its end and stream 1 framed. -/
def ended0 (o : OpDesc) (c : OpCtx) : State :=
  { world [o] [] [] true with streams := [(⟨someTag, 0⟩, gone0), (⟨someTag, 1⟩, stream0 true)], ops := [((someTag, 0), c)] }
def build : OpDesc := opOf 0x20 [0] [1] [(0, 8, 0xFFFFFFFFFFFFFF00), (8, 8, 2), (16, 1, 1)]
/-- A frame of one row of two INT32 runs. -/
def frameBytes : Bytes := (rowsFrame [4, 4] [[some (mkVal 4 5), some (mkVal 4 6)]] 0).bytes 0
def row56 : BuildRow := { key := [5], nullKey := false, payload := [some (mkVal 4 6)], hit := false }

theorem witness_OperatorsBuildProbeGroupAndMerge :
    -- HASH_BUILD: the handle frame, and a frame for which its LS has no room
    (let s := ended0 build OpCtx.fresh
     s.query? someTag = some (q0 s) ∧ (q0 s).st = .running ∧ (q0 s).opOf 0 = some (im0 s, build) ∧ s.op? someTag 0 = some OpCtx.fresh ∧
     build.code = 0x20 ∧ OpCtx.fresh.handleSent = false ∧ s.inputsDrained (q0 s) build = true ∧ s.opItems someTag 0 = [] ∧ build.outs[0]? = some 1 ∧
     (State.pushWords ((q0 s).stream 1) 0 (toWords ((rowsFrame [0x09, 0x09] [[some (mkVal 0x09 0), some (mkVal 0x09 0)]] 0).bytes s.free)) s).isSome =
       true) ∧
    (let i := { item0 .running with inFrame := [(0, frameBytes)] }
     let st := { stream0 true with frames := [{ frame0 (some 9) with popped := 2 }] }
     let s := { world [build] [i] [(⟨.join, 0⟩, running 9)] true with
                streams := [(⟨someTag, 0⟩, st), (⟨someTag, 1⟩, stream0 true)], insts := [(0, { Inst.managerFirst with lsUnits := 0 })] }
     i ∈ s.opItems someTag 0 ∧ s.heldFrame (q0 s) i 0 = some frameBytes ∧
     (match readFrame frameBytes with
      | some f => s.buildRefused (q0 s) build OpCtx.fresh (payloadTypes f.types build.payload) (OpCtx.fresh.build ++ buildRowsOf build f)
      | none => false) = true) ∧
    -- HASH_PROBE of a table of one row
    (let probe := opOf 0x21 [0, 1] [2] [(17, 1, 3)]
     let d (p c : BitVec 16) (cp : BitVec 8) : StreamDesc := { producer := p, consumer := c, prodPort := 0, consPort := cp, elem := 2, framed := true, spillKib := 64 }
     let s := world [probe, { build with outs := [0] }] [] [] true
     let im := { im0 s with streams := [d 1 0 0, d 9 0 1, d 0 9 0] }
     let q := { q0 s with image := some im }
     (s.buildOf q im probe).isSome = true ∧ probe.code = 0x21 ∧ kindPass probe.kind = true ∧ (probe.kind = 1 ∨ probe.kind = 3) ∧
     ([row56].filter fun r => !r.nullKey && r.key == [5]) ≠ [] ∧ ([row56].filter fun r => !r.nullKey && r.key == [6]) = [] ∧
     ([row56].filter fun r => !r.hit) ≠ []) ∧
    -- the partition of an aggregation, the merge of sorted runs, a HURDLE, and a UNION
    (let agg := opOf 0x28 [0] [1] [(10, 1, 1), (11, 1, 1)]
     let s := { ended0 agg OpCtx.fresh with disp := { State.reset.disp with
       flows := [((someTag, 0, 1), { number := 1, atomic := false, cursor := 0, done := false })] } }
     let u := s.aggSettle (q0 s) agg 0
     u.op? someTag 0 = some OpCtx.fresh ∧ (0 : BitVec 8).toNat < agg.parts ∧ (0 : BitVec 8) ∉ OpCtx.fresh.emitted ∧
     u.partialsEnded (q0 s) agg 0 = true ∧ AMap.get OpCtx.fresh.records 0 [] = [] ∧ u.flowItems someTag 0 (BitVec.ofNat 8 (agg.pflows + 0)) = [] ∧
     (AMap.find? u.disp.flows (someTag, 0, BitVec.ofNat 8 (agg.pflows + 0))).isSome = true) ∧
    (let sort := opOf 0x30 [0] [1] []
     let s := ended0 sort OpCtx.fresh
     sort.code = 0x30 ∧ OpCtx.fresh.merging = false ∧ s.runsEnded (q0 s) sort 0 = true) ∧
    (let hurdle := opOf 0x40 [0] [1] []
     let s := ended0 hurdle OpCtx.fresh
     hurdle.code = 0x40 ∧ hurdle.ins = [0] ∧ ((s.stream? ((q0 s).stream 0)).map (·.st)) = some .ended ∧
     (0 : BitVec 16) ∈ hurdle.ins.take hurdle.outs.length) ∧
    (shapeOk OpCtx.fresh 0 [4, 4] = true ∧ ({ OpCtx.fresh with order := [9] } : OpCtx).order.head? = some (item0 .running).id) ∧
    -- the codes of a dictionary page that an array holds
    (let col := opOf 0x01 [] [0] [(0, 4, 0x40000000), (4, 2, 2), (6, 1, 1), (12, 4, 5)]
     let s := world [col] [] [] true
     let im := { im0 s with consts := laid 32 [(2, 1, 4), (3, 1, 1), (4, 4, 0x40000010), (16, 1, 10), (18, 1, 0)] }
     let tb := { table4 with cells := [((0, 0), 3)] }
     let g := { seg4 with bytes := (buildSegment 4 0 5 0 3 [some (mkVal 4 9)]).1 }
     let pod : Pod := { Pod.free with st := .serving }
     let u := { s with store := { s.store with segs := [(3, g)] }, asa := { s.asa with pods := [(2, pod)] } }
     let q := { q0 s with image := some im, pods := [(0, 2)] }
     let v := u.colView tb 0 0 1
     AMap.find? q.snap (BitVec.ofNat 16 (col.p 4 2)) = some tb ∧ ((scanCols im q.params col)[0]?).isSome = true ∧
     ((predList im q.params 0x40000010 1)[0]?.map (·.op)) = some 10 ∧ v.dict ≠ [] ∧ u.readPages v v.dpages = ReadEnd.good ∧ u.slotRows tb 0 = some 1 ∧
     AMap.find? OpCtx.fresh.codeSets (0, 0, 0) = none ∧ (u.asaNeeds q 0 allMask ((v.dict.map (searchKey false v.ty)).filterMap id)).met = true ∧
     u.lsUse 0 + 1 ≤ (u.inst 0).lsUnits.toNat) := by
  refine ⟨?_, ?_, ?_, ?_, ?_, ?_, ?_, ?_⟩ <;> decide +kernel

def comp0 : Runner := ⟨.comp, 0⟩
def gather0 : Runner := ⟨.gather, 0⟩
/-- COMPRESS in LZ4 at level 9 with units of 4 KiB. -/
def compress (outs : List (BitVec 16)) : OpDesc := opOf 0x48 [0] outs [(0, 1, 1), (1, 1, 9), (2, 2, 4)]

def compWorld (outs : List (BitVec 16)) : State :=
  { ended0 (compress outs) { OpCtx.fresh with content := [5] } with
    disp := (world [] [item0 .running] [(comp0, running 9)] true).disp
    power := { State.reset.power with held := [{ op := .encode 0 (some someTag), tokens := 20, inst := 0, prio := 0, no := 0, since := 0, items := [] }] } }

/-- A unit of one byte takes one block of the buffer, encoded or stored. -/
theorem unit_length (im : Image) (o : OpDesc) (n : BitVec 32) :
    (padTo (unitOf im [] o n [5]) (roundUp (unitOf im [] o n [5]).length 64)).length ≤ 4096 := by
  have h : (unitOf im [] o n [5]).length ≤ 33 := by
    simp only [unitOf]
    split <;> simp only [List.length_append, leBytes, zeros, List.length_cons, List.length_nil, List.length_replicate, decide_eq_true_eq] <;>
      split <;> simp_all
  simp only [padTo, List.length_append, zeros, List.length_replicate, roundUp]
  omega

theorem witness_OutputsAndJobsAreWritten :
    (let mat := opOf 0x49 [0] [] [(0, 4, 0x40000000)]
     let i := { item0 .running with inFrame := [(0, frameBytes)] }
     let st := { stream0 true with frames := [{ frame0 (some 9) with popped := 2 }] }
     let w := world [mat] [i] [(gather0, running 9)] true
     let s := { w with streams := [(⟨someTag, 0⟩, st), (⟨someTag, 1⟩, stream0 true)] }
     s.service gather0 = some (i, q0 s, im0 s, mat, OpCtx.fresh) ∧ (q0 s).st = .running ∧ (∀ p ∈ s.queries, p.tag = (q0 s).tag → p = q0 s) ∧
     (∀ x ∈ s.disp.items, x.id = i.id → x = i) ∧ (q0 s).chains[mat.chain.toNat]? = some chain0 ∧ chain0.atEnd = false ∧ chain0.linkWait = false ∧
     chain0.linkDue = false ∧ s.accOf 0 .ok = .ok ∧ s.waitsFor (.csw someTag) = false ∧ i.block = [] ∧ s.heldFrame (q0 s) i 0 = some frameBytes ∧
     (match readFrame frameBytes with
      | some f => scalesOk f.types (matScales (im0 s) (q0 s).params mat) && f.sel.contains true && !(scalesOk f.types [1]) &&
          decide (chain0.filled + (resultBlock f.types (matScales (im0 s) (q0 s).params mat) (f.rows.map (·.2)) chain0.bseq i.op).length ≤ chain0.len)
      | none => false) = true ∧ s.midUnit (q0 s).tag i.op = false) ∧
    ((compWorld []).service comp0 = some (item0 .running, q0 (compWorld []), im0 (compWorld []), compress [], { OpCtx.fresh with content := [5] }) ∧
      (compWorld []).unitReady (q0 (compWorld [])) (compress []) { OpCtx.fresh with content := [5] } = true) ∧
    ((compWorld [1]).service comp0 = some (item0 .running, q0 (compWorld [1]), im0 (compWorld [1]), compress [1], { OpCtx.fresh with content := [5] }) ∧
      (compWorld [1]).unitReady (q0 (compWorld [1])) (compress [1]) { OpCtx.fresh with content := [5] } = true) ∧
    ((compress []).code = 0x48 ∧ 7 ≤ (compress []).compLevel ∧ (([5] : Bytes).take (compress []).unitBytes) = [5] ∧
      (compWorld []).leaveHeld (.encode (comp0.num.setWidth 3) (some someTag)) = true) ∧
    (({ chain0 with filled := 4096 } : Chain).len ≤ 4096 ∧ chain0.filled < chain0.len) ∧
    (let job : CompJob := { format := 2, level := 12, cksum := false, dict := none, dictId := 0, inst := 0, client := 0, qid := 0, maxOut := 65536
                            unitKib := 4, input := [] }
     (job.format = 1 ∨ job.format = 2) ∧ job.maxOut ≠ 0 ∧ 1 ≤ job.level.toNat ∧ job.level.toNat ≤ (if job.format = 1 then 9 else 12) ∧
     7 ≤ job.level.toNat ∧ served.leaveHeld (.encode 0 none) = false ∧ (∀ w ∈ served.disp.jobq, w.engine ≠ 0) ∧
     -- two jobs that wait at the engine
     (let w (prio : BitVec 4) : JobWait := { engine := 0, prio := prio, owner := .cmd someTag, decode := true, job := job }
      ({ served with disp := { served.disp with jobq := [w 8, w 3] } } : State).nextJob 0 = some (w 3))) := by
  refine ⟨?_, ?_, ?_, ?_, ?_, ?_⟩ <;> decide +kernel

/-! ### The hypotheses of the statements about the array and the links can be met -/

/-- A pod with two entries of 40 bits, the first of which waits for its reload, loaded from an image of a running query. -/
def asaImage : AsaDesc := { width := 0, entries := 2, cascade := false, casId := 0, recs := [(5, 50), (5, 51)] }
def pod2 (st : PodState) : Pod :=
  { Pod.free with st := st, owner := some (someTag, 0), width := 0, entries := 2, reload := [0]
                  slots := (writeEntry 0 1 5 51 true) }
def arrayed (st : PodState) : State :=
  { queued stored [submit] with
    queries := [{ queryOf .running (some { readImage scanImage with asas := [asaImage] }) with pods := [(0, 2)] }]
    asa := { State.reset.asa with pods := [(2, pod2 st)] }
    power := { State.reset.power with temps := List.replicate 32 92 } }

theorem witness_PodsAnswerReloadAndStep :
    ((pod2 .serving).entries ≤ 4096 ∧ (pod2 .serving).entry? 1 = some (5, 51) ∧ (pod2 .serving).st = .serving ∧
      answerHit ((pod2 .serving).answer 5 allMask) = true ∧ answerHit ((pod2 .serving).answer 6 allMask) = false) ∧
    ((arrayed .loading).pod 2 = pod2 .loading ∧ (pod2 .loading).owner = some (someTag, 0) ∧ (arrayed .loading).podImage (pod2 .loading) = some asaImage ∧
      (pod2 .loading).st = .loading ∧ ((arrayed .loading).query? someTag).isSome = true ∧ (pod2 .clearing).st = .clearing ∧ 4095 < 4096) ∧
    ((AMap.find? (pod2 .serving).slots 1).isSome = true ∧ asaImage.recs[(0 : BitVec 12).toNat]? = some (5, 50) ∧
      (0 : BitVec 12) ∈ (pod2 .serving).reload ∧ (arrayed .serving).podImage (pod2 .serving) = some asaImage) ∧
    ((arrayed .serving).power.temps.drop 24).take 4 ≠ [] ∧
    (served.managerAccess 0 = true ∧ (0x801 : BitVec 32).getLsbD 0 = true ∧ served.casActive = false ∧ ((0x871 : BitVec 32) >>> 8).setWidth 4 = (8 : BitVec 4) ∧
      ¬(((0x871 : BitVec 32) >>> 8).setWidth 4 : BitVec 4).toNat ≤ (((0x871 : BitVec 32) >>> 4).setWidth 3 : BitVec 3).toNat ∧
      (((0x271 : BitVec 32) >>> 8).setWidth 4 : BitVec 4).toNat ≤ (((0x271 : BitVec 32) >>> 4).setWidth 3 : BitVec 3).toNat) ∧
    (({ served.asa with casEn := true } : Asa).casEn = true ∧ (1 : BitVec 64).getLsbD 0 = true ∧
      (((BitVec.ofNat 64 (1 + 2 ^ 28 * casChk 1)) >>> 28).setWidth 4 : BitVec 4).toNat = casChk (1 + 2 ^ 28 * casChk 1) ∧
      (let c : CasSlot := { live := true, ctag := 3, key := 0, mask := 0, mine := 0 }
       ({ served.asa with slots := [c] } : Asa).slots = c :: [] ∧ ∃ w : Nat, w < 2 ^ 28 ∧ ¬(0 = casChk w))) ∧
    -- parity is read of any of the 4,096 slots
    (AMap.find? (pod2 .serving).slots 4095 = none ∧ (pod2 .serving).entries ≤ 4095) := by
  refine ⟨?_, ?_, ?_, ?_, ?_, ⟨?_, ?_, ?_, ?_, 1, ?_⟩, ?_⟩ <;> decide +kernel

/-- All four links UP on a node with parent 1 and one child's range behind port 2. -/
def noded (rootN : Bool) : State :=
  { queued stored [submit] with
    queries := [queryOf .running (some (readImage scanImage))]
    glb := { served.glb with straps := { bootSel := 0, pairEn := false, rootN := rootN } }
    pair := { State.reset.pair with
      links := [(0, ⟨.up, some 1, []⟩), (1, ⟨.up, some 2, []⟩), (2, ⟨.up, some 3, []⟩), (3, ⟨.training, none, []⟩)]
      xchs := [{ xid := 77, query := someTag, op := 0, nodes := [4, 5], regs := [], credits := [], ends := [], endSent := false, inbox := [] }] }
    disc := { State.reset.disc with
      nodeId := some 4, parent := some 1, children := [(2, 5, 3)], dseq := 9, rootSerial := 6, waitPort := some 2, nextId := 5 } }
def msg (port : BitVec 2) (src : BitVec 16) (tag : BitVec 32) (payload : Bytes) : RelayMsg := ⟨port, 4, src, tag, payload⟩
def batonOf (root next size kind : Nat) : Bytes := laid 32 [(0, 16, root), (16, 2, next), (18, 2, size), (20, 1, kind)]

theorem heard_of {s : State} {m : RelayMsg} {cls : Nat} (h : (decide (s.glb.phase ≠ .saved ∧ s.glb.phase ≠ .fatal) && s.linkUp m.port &&
    decide (m.payload.length % 16 = 0) && decide (m.payload.length ≤ 65536) && classOn cls m.port &&
    decide (m.dst = 0xFFFF ∨ m.dst = s.srcNode)) = true) : Heard s m cls := by
  simp only [Bool.and_eq_true, decide_eq_true_eq] at h
  exact ⟨h.1.1.1.1.1, h.1.1.1.1.2, h.1.1.1.2, h.1.1.2, h.1.2, h.2⟩

theorem witness_MessagesOfExchangesAndCascades :
    let s := noded true
    -- a link that is down, a payload of 17 bytes, a class that its port does not carry, and messages for others
    (s.working = true ∧ ({ s with glb := { s.glb with phase := .saved } } : State).working = false ∧
      s.linkUp 3 = false ∧ s.linkUp 1 = true ∧ (zeros 17).length % 16 ≠ 0 ∧ classOn 0x10 1 = false ∧ classOn 0x20 1 = true ∧ s.srcNode = 4 ∧
      s.route 7 = some 2 ∧ s.route 8 = some 1 ∧ ({ s with disc := { s.disc with parent := none } } : State).route 8 = none ∧ s.linkUp 2 = true) ∧
    (Heard s (msg 1 5 77 (zeros 16)) 0x28 ∧ (zeros 16).length ≠ 96) ∧
    -- an exchange that runs and a piece that begins a frame, an early credit
    ((s.xchFor (msg 1 5 77 [])).isSome = true ∧ (s.pair.xchs.all s.xchLive) = true ∧
      pieceOk [] (laid 16 [(4, 4, frameBytes.length), (8, 2, frameBytes.length), (10, 2, 1)] ++ frameBytes) = true ∧ pieceOk [] (zeros 16) = false) ∧
    (Heard s (msg 1 5 77 (laid 16 [(0, 4, 0xFFFFFFFF)])) 0x21 ∧ allZero ((laid 16 [(0, 4, 0xFFFFFFFF)]).drop 4) = true ∧ s.xch? 78 = none) ∧
    (Heard s (msg 1 5 77 (2 :: zeros 15)) 0x22 ∧ allZero (((2 : Byte) :: zeros 15).drop 1) = true) ∧
    -- the cascade
    (let a := { s.asa with casEn := true, casPos := 7, casDepth := 8 }
     let p := laid 96 [(0, 1, 15), (1, 1, 3), (16, 40, 5), (56, 40, 2 ^ 320 - 1)]
     Heard { s with asa := a } (msg 1 5 77 p) 0x28 ∧ p.length = 96 ∧ a.casEn = true ∧ a.casPos ≠ 0 ∧ a.broken = false ∧ fld p 0 1 < 16 ∧
     fld p 1 1 < 4 ∧ allZero (slice p 4 12) = true ∧ fld p 56 40 < 2 ^ asaBits (fld p 1 1)) ∧
    (let p := laid 16 [(0, 1, 1), (1, 1, 15), (2, 1, 7)]
     let g : Ctag := { casId := 77, query := some someTag, ready := [], closed := false }
     Heard s (msg 1 5 77 p) 0x29 ∧ p.length = 16 ∧ fld p 1 1 < 16 ∧ fld p 2 1 < 8 ∧ allZero (p.drop 3) = true ∧ p.headD 0xFF = 1 ∧
     AMap.find? ({ s.asa with casEn := true, ctags := [(15, g)] } : Asa).ctags (BitVec.ofNat 4 (fld p 1 1)) = some g) := by
  refine ⟨?_, ⟨heard_of ?_, ?_⟩, ?_, ⟨heard_of ?_, ?_⟩, ⟨heard_of ?_, ?_⟩, ⟨heard_of ?_, ?_⟩, ⟨heard_of ?_, ?_⟩⟩ <;> decide +kernel

theorem witness_DiscoveryNumbersTheTree :
    let s := noded true
    -- the Baton's next port, and its way back
    ((0 : Nat) < (2 : BitVec 2).toNat ∧ s.linkUp 2 = true ∧ s.disc.parent ≠ some 2 ∧ s.linkUp 3 = false ∧ s.disc.nodeId = some 4 ∧
      ∀ q : BitVec 2, 2 < q.toNat → s.linkUp q = false) ∧
    ((noded false).isRoot = true ∧ (noded false).working = true ∧ ({ s with glb := { s.glb with phase := .fatal } } : State).working = false ∧
      s.isRoot = false ∧ State.reset.disc.dseq = 0 ∧ State.reset.disc.waitPort = none) ∧
    -- each kind of Baton
    (∀ kind ∈ [0, 2, 3],
      let p := batonOf 6 4096 0 kind
      (s.linkUp 2 && decide (p.length % 16 = 0) && classOn 0x03 2 && decide ((4 : BitVec 16) = s.srcNode)) = true ∧ p.length = 32 ∧ fld p 20 1 = kind ∧
      fld p 16 2 ≤ 4096 ∧ fld p 18 2 = 0 ∧ allZero (slice p 21 11) = true) ∧
    (let p := batonOf 6 8 3 1
     Heard s (msg 2 5 9 p) 0x03 ∧ fld p 20 1 = 1 ∧ fld p 18 2 = 3 ∧ s.disc.waitPort = some 2 ∧ s.disc.dseq = 9 ∧
     BitVec.ofNat 128 (fld p 0 16) = s.disc.rootSerial) ∧
    (s.disc.dseq = 9 ∧ s.disc.parent ≠ none ∧ s.disc.done = false ∧ (10 : BitVec 32) ≠ s.disc.dseq ∧ s.beforeDiscovery.applyLinkEn.linkUp 1 = true) ∧
    (Heard s (msg 1 0 9 (laid 16 [(0, 2, 8)])) 0x04 ∧ allZero ((laid 16 [(0, 2, 8)]).drop 2) = true ∧ s.disc.parent = some 1) ∧
    -- conflicts and a rediscovery
    ((∀ q ∈ chainPorts, State.reset.linkUp q = false) ∧ (∃ q ∈ chainPorts, s.linkUp q = true) ∧ State.reset.disc.done = false ∧
      State.reset.isRoot = false) ∧
    (Heard s (msg 1 0 9 (1 :: zeros 31)) 0x05 ∧ ((1 : Byte) :: zeros 31).headD 0 = 1 ∧ allZero (slice ((1 : Byte) :: zeros 31) 1 15) = true ∧
      s.disc.conflict = false) ∧
    ((noded false).managerAccess 0 = true ∧ (0x701 : BitVec 32).getLsbD 0 = true ∧ (noded false).ready = true ∧ (noded false).disc.rediscover = false) ∧
    -- links
    ((1 : BitVec 2) ∈ chainPorts ∧ s.disc.linkEn.getLsbD 0 = true ∧ ({ s.disc with linkEn := 6 } : Discovery).linkEn.getLsbD 0 = false) ∧
    ((s.link 3).st = .training ∧ identOk (laid 32 [(18, 2, 1)]) = true ∧ fld (laid 32 [(18, 2, 1)]) 18 2 = 1 ∧ (s.link 0).st = .up ∧ (s.link 2).st = .up) := by
  refine ⟨?_, ?_, ?_, ⟨heard_of ?_, ?_⟩, ?_, ⟨heard_of ?_, ?_⟩, ?_, ⟨heard_of ?_, ?_⟩, ?_, ?_, ?_⟩ <;> decide +kernel

/-! ### The hypotheses of the statements about the pair, the firmware, registers, power and DRAM can be met -/

/-- A pair in a role, with its link UP; `beat` is a heartbeat's payload. -/
def paired (role : Role) (wait : Bool) : State :=
  { holding { write4 with phase := .committed, mseq := some 9, applied := false } with
    pair := { State.reset.pair with
      links := [(0, ⟨.up, some 5, []⟩)], role := role, lead := true, fenceWait := wait, aliveRun := true, directory := [(0, 2)] } }
def beat (role epoch jpos : Nat) : Bytes := laid 32 [(0, 1, role), (4, 4, epoch), (8, 8, jpos)]

theorem witness_PairRolesFollowLossAndReturn :
    ((paired .paired false).working = true ∧ ({ State.reset with glb := { State.reset.glb with phase := .saved } } : State).working = false ∧
      (sqOn 1).st ≠ .draining ∧ ({ sqOn 1 with st := .draining, drain := some (.reset someTag) } : Sq).st = .draining ∧
      (paired .paired false).glb.phase = .ready ∧ (paired .paired false).pair.role = .paired ∧ (paired .paired false).pair.fenceWait = false) ∧
    (State.reset.linkUp 0 = false ∧ ({ State.reset.pair with role := .joining } : Pair).role = .joining ∧ (paired .paired true).pair.fenceWait = true) ∧
    ((paired .solo false).link 0).serial = some 5 ∧
    (({ State.reset.pair with takeoverDue := true, role := .solo } : Pair).takeoverDue = true ∧ State.reset.pair.fenceDriven = false) ∧
    ((paired .solo false).pair.aliveRun = true ∧ State.reset.pair.aliveRun = false) ∧
    ((paired .syncing false).linkUp 0 = true ∧ (paired .syncing false).pair.role ∈ [.joining, .syncing, .paired, .solo]) ∧
    (∀ role ∈ [1, 2, 3, 4],
      let b := beat role 0 1
      ((paired .joining false).linkUp 0 && decide (b.length % 16 = 0) && classOn 0x01 0) = true ∧ b.length = 32 ∧ fld b 0 1 = role ∧ fld b 1 1 < 4 ∧
      fld b 2 2 = 0 ∧ fld b 24 8 = 0 ∧ (paired .joining false).pair.epoch = BitVec.ofNat 32 (fld b 4 4) ∧
      (paired .joining false).store.jpos < BitVec.ofNat 64 (fld b 8 8) ∧ (paired .joining false).store.jpos = BitVec.ofNat 64 (fld (beat 1 0 0) 8 8)) ∧
    (paired .solo false).pair.syncTo = none ∧ (State.reset.lacking 0 = []) ∧ ((paired .solo false).inst 0).st ≠ .absent := by
  refine ⟨?_, ?_, ?_, ?_, ?_, ?_, ?_, ?_, ?_, ?_⟩ <;> decide +kernel

/-- The commit record of a drop, as one fragment, as the first of two, and with a flaw. -/
def dropBytes : Bytes := commitPayload { write4 with kind := .drop, fwdId := none } false 0 true
def whole (bs : Bytes) : Bytes := laid 16 [(4, 4, bs.length), (8, 2, bs.length), (10, 2, 1)] ++ bs
def half (bs : Bytes) : Bytes := laid 16 [(4, 4, bs.length), (8, 2, 48)] ++ bs.take 48
def onPair (tag : BitVec 32) (bs : Bytes) : RelayMsg := ⟨0, 0xFFFF, 0xFFFF, tag, bs⟩

theorem continues_of {s : State} {m : RelayMsg} {cls : BitVec 8} (h : (decide (s.glb.phase ≠ .saved ∧ s.glb.phase ≠ .fatal) && s.linkUp m.port &&
    decide (m.payload.length % 16 = 0) && decide (m.payload.length ≤ 65536) && classOn cls.toNat m.port &&
    decide (m.dst = 0xFFFF ∨ m.dst = s.srcNode)) = true)
    (g : 16 ≤ m.payload.length ∧ fld m.payload 10 2 ≤ 1 ∧ fld m.payload 12 4 = 0 ∧ fld m.payload 0 4 = 0)
    (d : 1 ≤ fld m.payload 8 2 ∧ fld m.payload 8 2 ≤ 65520 ∧ m.payload.length = 16 + roundUp (fld m.payload 8 2) 16 ∧
      allZero (m.payload.drop (16 + fld m.payload 8 2)) = true)
    (w : 1 ≤ fld m.payload 4 4 ∧ fld m.payload 4 4 ≤ 16777280 ∧ fld m.payload 8 2 ≤ fld m.payload 4 4)
    (n : (s.link m.port).frags = []) (l : fld m.payload 10 2 = 1 ↔ fld m.payload 8 2 = fld m.payload 4 4) : Continues s m cls [] :=
  ⟨heard_of h, ⟨g.1, g.2.1, g.2.2.1, by omega⟩, d, ⟨w.1, w.2.1, by omega⟩, by simpa using g.2.2.2, by rw [n]; rfl, by rw [l]; omega⟩

theorem witness_MirroredWritesAndTheDirectory :
    let s := paired .paired false
    -- fragments
    Assembled s (onPair 9 (whole dropBytes)) 0x10 dropBytes ∧
    (Continues s (onPair 9 (half dropBytes)) 0x10 [] ∧ fld (half dropBytes) 10 2 = 0) ∧
    (Heard s (onPair 9 (zeros 16)) 0x10 ∧ ∀ got, ¬Continues s (onPair 9 (zeros 16)) 0x10 got) ∧
    -- commits, and what their senders hear
    (((parseCommit dropBytes true).map (·.kind)) = some .drop ∧ parseCommit (dropBytes.set 40 1) true = none ∧
      ((parseCommit (commitPayload { write4 with kind := .drop } false 0 false) false).map (·.kind)) = some .drop) ∧
    (let p := laid 32 []
     Heard s (onPair 9 p) 0x11 ∧ p.length = 32 ∧ fld p 1 1 = 0 ∧ fld p 4 2 = 0 ∧ fld p 6 2 = 0 ∧ fld p 12 4 = 0 ∧ fld p 24 8 = 0 ∧
     s.store.writes.any (fun w => w.phase == .committed && w.mseq == some 9 && !w.applied) = true) ∧
    (let p := laid 32 [(1, 1, 1), (4, 2, 0x7FFF)]
     let w := { write4 with phase := .forwarded, fwdId := some 9 }
     fld p 1 1 = 1 ∧ fld p 4 2 < 2 ^ 15 ∧ ((holding w).store.writes.find? fun x => x.phase == .forwarded && x.fwdId == some 9) = some w ∧
     w.tag = some someTag) ∧
    (Heard s (onPair 9 (laid 16 [(0, 8, 3)])) 0x12 ∧ fld (laid 16 [(0, 8, 3)]) 12 4 = 0) ∧
    -- the directory
    (∀ op ∈ [0, 1, 2, 3],
      let p := laid 16 [(0, 1, op), (2, 2, 2)]
      (s.linkUp 0 && classOn 0x14 0) = true ∧ p.length = 16 ∧ fld p 0 1 = op ∧ fld p 4 12 = 0 ∧ s.pair.lead = true ∧
      ((BitVec.ofNat 8 (fld p 1 1), BitVec.ofNat 16 (fld p 2 2)) ∈ s.pair.directory) ∧ (0, 3) ∉ s.pair.directory ∧ (s.inst 0).st ≠ .absent) ∧
    (let w := { write4 with phase := .admitting, reqId := some 9 }
     ((holding w).store.writes.find? fun x => x.phase == .admitting && x.reqId == some 9) = some w ∧
     (s.store.writes.find? fun x => x.phase == .admitting && x.reqId == some 9) = none) ∧
    -- the bytes of the segment that table 2 names
    (let p := laid 48 [(2, 2, 2), (16, 4, 128)]
     Heard s (onPair 9 p) 0x30 ∧ p.length = 48 ∧ fld p 16 4 = 128 ∧ allZero (slice p 32 16) = true ∧ s.store.segs = [(3, seg4)] ∧
     s.segName? 3 = some (2, 0, 0, true) ∧ seg4.inst.toNat = fld p 0 1 ∧ seg4.epoch.toNat = fld p 20 4 ∧ seg4.cseq.toNat = fld p 24 8 ∧
     seg4.lost = false ∧ seg4.rebuild = false ∧ seg4.bytes.length = 128) ∧
    (let bs := laid 16 [(4, 4, 64)] ++ zeros 64
     let u := { s with pair := { s.pair with fetches := [(9, .repair 3 1 0 0 0), (10, .rebuild 3)] } }
     bs.length = 16 + fld bs 4 4 ∧ fld bs 2 2 = 0 ∧ fld bs 8 8 = 0 ∧ fld bs 0 2 ∈ [0x0000, 0x1001, 0x0801] ∧
     AMap.find? u.pair.fetches 9 = some (.repair 3 1 0 0 0) ∧ AMap.find? u.pair.fetches 10 = some (.rebuild 3) ∧
     ({ seg4 with rebuild := true } : Segment).rebuild = true) := by
  refine ⟨⟨[], continues_of ?_ ?_ ?_ ?_ ?_ ?_, ?_, ?_⟩, ⟨continues_of ?_ ?_ ?_ ?_ ?_ ?_, ?_⟩, ⟨heard_of ?_, ?_⟩, ?_, ⟨heard_of ?_, ?_⟩, ?_, ⟨heard_of ?_, ?_⟩,
    ?_, ?_, ⟨heard_of ?_, ?_⟩, ?_⟩
  all_goals first
    | decide +kernel
    | (intro got h; have := h.data.1; revert this; decide +kernel)

/-- Firmware whose slot A governs, with one unit of slot B written since its erase; slot B's body would be as long as an erased header says. -/
def flashed (units : AMap Bool (List Nat)) : State := { queued served [] with fw := { State.reset.fw with units := units } }

/-- Downloads that start a slot, go on, and overlap; activations while one is under way, of an action there is not, and of an image that is too long to be
one; whether an image is signed is the fused key's to say (`Config`), so that both answers stand as hypotheses. -/
theorem witness_FirmwareAndManagementPort :
    ((State.reset.fw.governing).isSome = true ∧ State.reset.fw.dir1 = none ∧ (({ State.reset.fw with dir0 := none } : Fw).dir0 = none)) ∧
    (∀ e ∈ [(0, 4096, true), (4096, 4096, true), (0, 4095, false), (33554432, 4096, false)],
      let c := cmdOf 0x10 [(8, 0x8000), (16, e.2.1), (20, e.1)]
      let s := { flashed [(true, [0])] with rings := (queued served [c]).rings }
      runsB served c [] 0x10 = true ∧ s.glb.manager = some 0 ∧ s.fw.act = none ∧ c.clean [(8, 16)] = true ∧ s.fw.activeB = false ∧
      decide (c.f 16 4 % 4096 = 0 ∧ 4096 ≤ c.f 16 4 ∧ c.f 16 4 ≤ 1048576 ∧ c.f 20 4 % 4096 = 0 ∧ c.f 20 4 + c.f 16 4 ≤ 33554432 ∧
        (c.f 20 4 = 0 ∨ AMap.find? s.fw.units true ≠ none)) = e.2.2) ∧
    (AMap.find? (flashed [(true, [0])]).fw.units true = some [0] ∧ 0 ∈ [0] ∧ 1 ∉ [0] ∧ (flashed []).glb.flrDue = []) ∧
    -- an activation under way
    (let a : Activation := { tag := some ⟨0, 1, 8⟩, step := .paused, mgmt := false }
     let u := { served with fw := { served.fw with act := some a } }
     runsB u (cmdOf 0x10 []) [] 0x10 = true ∧ u.glb.manager = some 0 ∧ u.fw.act ≠ none) ∧
    (let c := cmdOf 0x11 [(16, 3)]
     runsB served c [] 0x11 = true ∧ c.clean [(16, 1)] = true ∧ 2 < c.f 16 1 ∧ (flashed []).fw.act = none ∧ (flashed []).fw.complete true = false) ∧
    (let a : Activation := { tag := some ⟨0, 1, 8⟩, step := .loaded, mgmt := false }
     a.tag ≠ some someTag ∧ a.step = .loaded ∧ ({ a with step := .paused } : Activation).step = .paused ∧ served.glb.phase = .ready ∧
     (paired .paired false).pair.role = .paired ∧ ({ (paired .paired false).pair with partnerPause := true } : Pair).partnerPause = true) ∧
    (served.glb.ports.getLsbD 0 = true ∧ served.glb.ports.getLsbD 3 = false ∧ (18 : BitVec 8).toNat ≤ 18 ∧ 18 < (19 : BitVec 8).toNat ∧
      (5 : BitVec 8) ∉ [1, 2, 3, 4, 0xFF]) := by
  refine ⟨?_, ?_, ?_, ?_, ?_, ?_, ?_⟩ <;> decide +kernel

theorem witness_RegistersReadAndWrite :
    (blockOf (isPf 0) 0xC0000 = some (.pwr, 0) ∧ served.mayWriteBlock 0 .pwr = true ∧ served.mayReadBlock 0 .pwr = true ∧
      State.reset.mayWriteBlock 0 .pwr = false ∧ State.reset.mayReadBlock 0 .pwr = false ∧ (served.fn 0).present = true ∧ (served.fn 1).present = false ∧
      blockOf (isPf 0) 0xF80100 = none ∧ blockOf (isPf 1) 0xF007 = some (.pba, 7)) ∧
    (regOf .adm 0 = some (.admSqBase, 0, 8) ∧ regOf .adm 4 = some (.admSqBase, 0, 8) ∧ regOf .adm 0x10 = some (.admCtrl, 0x10, 4) ∧
      regOf .evt 0x7C = some (.evtPend 15, 0x78, 8)) ∧
    (AMap.find? ({ host with heldLow := [((0, 0x10000), 5)] } : Fn).heldLow (0, 0x10000) = some 5 ∧ AMap.find? host.heldLow (0, 0x10000) = none ∧
      AMap.find? ({ host with latched := [((0, 0x10000), 5)] } : Fn).latched (0, 0x10000) = some 5) ∧
    (served.receivesSource 0 1023 = true ∧ served.receivesSource 1 1023 = false ∧ served.receivesSource 1 767 = true ∧ 2047 < msixCount 0 ∧
      msixCount 1 ≤ 64) ∧
    (let v : BitVec 64 := 0x1800000000000001
     served.dram.poolEn = false ∧ chset (v &&& 0x1FFF1FFF03FFBFFF) = [0] ∧ bits v.toNat 13 12 ≠ 3 ∧ bits v.toNat 25 16 ≤ 511 ∧
      bits v.toNat 44 32 ≤ 6143 ∧ bits v.toNat 60 48 = 6144 ∧ bits v.toNat 60 48 % 1 = 0) ∧
    (({ host with admEn := true } : Fn).admEn = true ∧ host.admEn = false ∧ served.admRdy 0 = false) ∧
    ((1 : BitVec 64).getLsbD 0 = true ∧ (2 : BitVec 64).getLsbD 0 = false ∧ served.reachesPage 0 0 = true ∧ isTenant 0 0 = true ∧
      (let s := { served with insts := (5, Inst.managerFirst) :: served.insts }
       s.reachesPage 0 5 = true ∧ isTenant 0 5 = false ∧ s.glb.manager = some 0) ∧ 255 < 256 ∧ 0x7F7 < 0x7F8) := by
  refine ⟨?_, ?_, ?_, ?_, ?_, ?_, ?_⟩ <;> decide +kernel

/-- Two committed writes of one table, the second of which the save finishes; readings at THERMTRIP, at TLIMIT and below; a queue of leave; starts in which
no image is valid, all of whose hypotheses but the image's signature are met. -/
theorem witness_SavesStartsAndLeave :
    (served.glb.phase = .ready ∧ State.reset.glb.phase ≠ .ready) ∧
    (let w := { write4 with phase := .committed, no := 1 }
     let x := { write4 with phase := .committed, no := 0 }
     let s := { stored with store := { stored.store with writes := [x, w] } }
     w ∈ s.store.writes ∧ x ∈ s.store.writes ∧ x.no ≤ w.no ∧ s.finished [0, 1] w = true ∧ s.finished [1] w = false ∧
     ∀ y ∈ s.store.writes, y.phase = .committed → s.finished [0, 1] y = true) ∧
    (∀ t ∈ [125, 115, 109], (List.replicate 32 (BitVec.ofNat 8 t)).length = 32 ∧ tjmax (List.replicate 32 (BitVec.ofNat 8 t)) = t) ∧
    (served.power.tlim = false ∧ served.power.tlimit = 115 ∧ served.power.thr ≠ true) ∧
    (let l (op : LeaveOp) (n prio : Nat) : Leave := { op := op, tokens := leaveTokens op, inst := 0, prio := BitVec.ofNat 4 prio, no := n, since := 0, items := [] }
     let q := [l (.sprint 0) 0 3, l (.encode 0 none) 1 15]
     let s := { served with power := { served.power with queue := q } }
     q.Pairwise (fun a b => a.prio ≤ b.prio) ∧ (∀ x ∈ q, x.prio ≤ (l (.sprint 1) 2 15).prio) ∧ s.leaveHeld (.sprint 1) = false ∧
     (∀ x ∈ q, sameHolder x.op (.sprint 1) = false) ∧ leaveQuery (.sprint 1) = none ∧ s.passedOver (l (.sprint 0) 0 3) = false ∧
     (∀ h ∈ s.power.held, h.op = .sprint 0) ∧ leaveTokens (.sprint 0) ≤ s.power.metered) ∧
    -- two items, of PRIO 3 and 2, that only sprinting cores can run
    (let i := item0 .ready
     let j := { item0 .ready with id := 8, prio := 2 }
     let s := { world [compute] [i, j] [(ec00, RunnerState.idle)] true with power := State.reset.power }
     s.glb.phase = .ready ∧ leaveQuery (.sprint 0) = none ∧ s.sprintDue 0 = true ∧ s.leaveHeld (.sprint 0) = false ∧
     ([9, 8].filterMap s.item?).filter (s.waitsLeave (.sprint 0)) = [i, j] ∧ s.leavePrio (.sprint 0) [i, j] = 2 ∧ leaveInst (.sprint 0) 0 [i, j] = 0 ∧
     (s.power.queue.find? fun l => sameHolder l.op (.sprint 0)) = none ∧
     (({ op := .sprint 0, tokens := 0, inst := 0, prio := 3, no := 0, since := 0, items := [] } : Leave).op = .sprint 0)) ∧
    (served.sortBusy 3 = false ∧ served.query? someTag = none ∧ served.clusterBusy 0 = false ∧ served.cluster 0 = .rest) ∧
    (let s := { served with power := { served.power with clusters := [(0, .sprint), (1, .warmup)], waking := [2] } }
     s.cluster 0 = .sprint ∧ s.clusterBusy 0 = false ∧ s.cluster 1 = .warmup ∧ (2 : BitVec 3) ∈ s.power.waking ∧ (1 : BitVec 3) ∉ s.power.waking ∧
     ∀ l ∈ s.power.queue, sprintOf 1 l = false) ∧
    (State.reset.glb.phase = .starting ∧ State.reset.fw.boots ⟨2, false, true⟩ = none ∧ allChans.length = 12 ∧
      fitProper ⟨1, 1, 16, 1, 12, 4, true, true⟩ = true ∧ fitProper ⟨1, 5, 16, 1, 12, 4, true, true⟩ = false ∧
      (let r : SaveRec := { delays := [], crc := recordCrc [] 1, insts := [], tables := [((0, 2), table4)], segs := [(3, seg4)], journal := [], jpos := 1, dram := served.dram, epoch := 0 }
       ({ State.reset.glb with save := some r } : Glb).save = some r ∧ r.valid = true ∧
        ({ r with crc := r.crc + 1 } : SaveRec).valid = false)) := by
  exact ⟨by decide +kernel, by decide +kernel, by decide +kernel, by decide +kernel, by decide +kernel, by decide +kernel, by decide +kernel, by decide +kernel,
    by decide +kernel⟩

/-- An ACTIVE channel of two ranks, the second in a state given, whose first rank has 64 corrected errors of lane 5 within a second. -/
def ranked (a b : RankState) : Chan :=
  { Chan.empty with
    st := .active, dimms := 1, capGib := 12, hrGib := 1, rateMax := 4, rateFit := 2
    ranks := [⟨a, 4, List.replicate 64 (0, some 5), 16, 100⟩, ⟨b, 0, [], 0, 100⟩] }
def banked (c : Chan) : State := { stored with dram := { served.dram with chans := [(0, c)], map := [(0, 0x1000000008001)] } }

theorem witness_LinesRanksAndChannels :
    (let s := banked (ranked .active .spare)
     let c := s.chan 0
     c.st = .active ∧ ((c.ranks[0]?).map (·.st)) = some .active ∧ s.glb.phase = .ready ∧ c.rankIn .spare = some 1 ∧ (c.ranks[0]?).isSome = true ∧
     s.partnerInService = false ∧ ((0 : BitVec 4) ∉ s.dram.schedule) ∧ (0 : BitVec 2).toNat < c.ranks.length) ∧
    ((paired .paired false).partnerInService = true ∧ AMap.find? (paired .paired false).store.segs 3 = some seg4 ∧
      (paired .paired false).segName? 3 = some (2, 0, 0, true)) ∧
    ((ranked .active .retired).rankIn .spare = none) ∧
    (let c := (banked (ranked .migrating .filling)).chan 0
     c.rankIn .migrating = some 0 ∧ c.rankIn .filling = some 1 ∧ c.cursor + 1 < c.rankLines ∧
     c.rankLines ≤ ({ c with cursor := c.rankLines - 1 } : Chan).cursor + 1) ∧
    -- refreshes: of a rank that owes 4 and one that owes none, with a request of the mirror or of a deadline's SCAN queued
    ((ranked .active .spare).ranks[0]?.map (·.owed) = some 4 ∧ (ranked .active .spare).ranks[1]?.map (·.owed) = some 0 ∧
      (paired .paired false).isRealTime .mirror = true ∧ served.isRealTime .mirror = false ∧
      (let s := world [scan] [item0 .running] [(scan0, running 9)] true
       ({ s with queries := s.queries.map fun q => { q with deadline := 1 } } : State).isRealTime (.scan 9) = true ∧ s.isRealTime (.scan 9) = false)) ∧
    ((16 : BitVec 8).toInt ≤ 16 ∧ -16 ≤ (0xF0 : BitVec 8).toInt ∧ ¬((17 : BitVec 8).toInt ≤ 16)) ∧
    (({ ranked .active .spare with st := .held } : Chan).st = .held ∧ ({ served.dram with schedule := [0, 1] } : Dram).schedule = 0 :: [1]) ∧
    (served.managerAccess 0 = true ∧ (1 : BitVec 32).getLsbD 0 = true ∧ (0 : BitVec 32).getLsbD 0 = false ∧ served.dram.poolEn = false) ∧
    (let w : BitVec 64 := 0x1000000008001
     let s := banked (ranked .active .spare)
     (s.dram.map.all fun e => decide (e.2 = w)) = true ∧ mapValid w = true ∧ mapBase w * 2 ^ 30 ≤ 2 ^ 30 - 1 ∧ 2 ^ 30 - 1 < (mapBase w + mapSize w) * 2 ^ 30 ∧
     (chset w)[(2 ^ 30 - 1 - mapBase w * 2 ^ 30) / mapGrainBytes w % (chset w).length]? = some 0 ∧ (s.chan 0).st ≠ .retired) := by
  exact ⟨by decide +kernel, by decide +kernel, by decide +kernel, by decide +kernel, by decide +kernel, by decide +kernel, by decide +kernel, by decide +kernel,
    by decide +kernel⟩

/-- Data of a byte and of none, and a state in which the data before went as translated requests. -/
theorem witness_GoesOutInOrder :
    ([5] : Bytes) ≠ [] ∧ AMap.find? served.xlat.lastData (0, true) = none ∧
    AMap.find? ({ served.xlat with lastData := [((0, true), (none, 0x1000))] } : Xlat).lastData (0, true) = some (none, 0x1000) := by decide

/-- `noded` without its exchange, which may be stopped. -/
def quietTree (rootN : Bool) : State := let s := noded rootN; { s with pair := { s.pair with xchs := [] } }

/-- Commands of the tree where nothing is to stop; INSTANCE_CREATE of the least that there can be, a RESIZE of WEIGHT alone, a QUIESCE of an instance with
nothing left, a RESET and a DESTROY, and an ABORT of a tag that no command has. -/
theorem witness_DiscoveryAndInstancesLeaveTheRest :
    (let s := quietTree true
     (s.pair.xchs = [] ∧ s.asa.casEn = false ∧ (quietTree false).isRoot = true ∧ (quietTree false).managerAccess 0 = true ∧ s.isRoot = false ∧
       s.disc.linkEn = 7 ∧ s.disc.dseq ≠ 8 ∧ s.disc.parent ≠ none ∧ s.disc.conflict = false ∧ State.reset.linkUp 2 = false ∧ s.linkUp 2 = true) ∧
     Heard s (msg 2 5 8 (batonOf 6 7 0 0)) 0x03 ∧ fld (batonOf 6 7 0 0) 16 2 = 7) ∧
    (let c := cmdOf 0x18 [(16, 5), (24, 1), (44, 16), (46, 1), (47, 100)]
     let s := queued served [c]
     runsB served c [] 0x18 = true ∧ c.clean [(16, 1), (20, 32)] = true ∧ (s.inst 5).st = .absent ∧ s.lsDrawn + c.f 44 2 ≤ 2560 ∧
     s.pagesDrawn ≤ s.poolPages ∧ s.flowsDrawn + c.f 24 4 ≤ 65536) ∧
    (let c := cmdOf 0x19 [(16, 0), (18, 0x40), (46, 7)]
     runsB served c [] 0x19 = true ∧ c.clean [(16, 1), (18, 2), (28, 24)] = true ∧ c.f 18 2 = 2 ^ 6 ∧ c.f 46 1 = 7) ∧
    (∀ e ∈ [(0x1A, InstState.serving), (0x1B, .quiet), (0x1C, .detached)],
      let c := cmdOf e.1 [(16, 5)]
      let u := { served with insts := [(0, Inst.managerFirst), (5, { Inst.managerFirst with st := e.2 })] }
      runsB u c [] e.1 = true ∧ c.clean [(16, 1)] = true ∧ ((queued u [c]).inst 5).st = e.2 ∧ ((queued u [c]).inst 5).quiesce ≠ some someTag ∧
      (∀ d ∈ (queued u [c]).rings.cmds, d.tag.inst ≠ 5) ∧ ∀ x ∈ (queued u [c]).rings.cqs, x.1.1 = 5 → x.2.ready = []) ∧
    (let c := cmdOf 0x0A [(16, 1), (18, 8)]
     runsB served c [] 0x0A = true ∧ c.clean [(16, 4)] = true ∧ (queued served [c]).cmd? ⟨0, 1, 8⟩ = none) := by
  refine ⟨⟨?_, heard_of ?_, ?_⟩, ?_, ?_, ?_, ?_⟩ <;> decide +kernel

/-! ### Single commands, their results worked out by hand -/

/-- What a command leaves, read through a function of the state. -/
def after {α : Type} (i : Instr) (s : State) (f : State → α) : Option α :=
  match exec i s with
  | .next t => some (f t)
  | _ => none
def mcx (x : AMap (BitVec 5) (BitVec 64)) : State := withCore mc0 (firmware x)

/-- The most negative number times itself is 2^126, the high half of which is 2^62 (13, MULH). -/
theorem test_mulh_of_the_most_negative : xAfter (.mulh (at0 mc0) 3 1 1) (mcx [(1, 0x8000000000000000)]) mc0 3 = some 0x4000000000000000 := by decide +kernel
/-- Division by 0 gives all ones, and the remainder the dividend (13, DIV). -/
theorem test_div_by_zero : xAfter (.div (at0 mc0) 3 1 0) (mcx [(1, 7)]) mc0 3 = some 0xFFFFFFFFFFFFFFFF ∧
    xAfter (.rem (at0 mc0) 3 1 0) (mcx [(1, 7)]) mc0 3 = some 7 := by decide +kernel
/-- The most negative number divided by -1 keeps its value (13, DIV). -/
theorem test_div_overflow : xAfter (.div (at0 mc0) 3 1 2) (mcx [(1, 0x8000000000000000), (2, 0xFFFFFFFFFFFFFFFF)]) mc0 3 =
    some 0x8000000000000000 := by decide +kernel
/-- A shift by 65 is a shift by 1 (13, SRA). -/
theorem test_sra_takes_six_bits : xAfter (.sra (at0 mc0) 1 1 2) (mcx [(1, 0x8000000000000000), (2, 65)]) mc0 1 =
    some 0xC000000000000000 := by decide +kernel
theorem test_addw_extends_the_sign : xAfter (.addw (at0 mc0) 3 1 2) (mcx [(1, 0x7FFFFFFF), (2, 1)]) mc0 3 = some 0xFFFFFFFF80000000 := by decide +kernel
theorem test_x0_keeps_nothing : xAfter (.addi (at0 mc0) 0 0 5) (mcx []) mc0 0 = some 0 := by decide +kernel
theorem test_lb_extends_the_sign :
    xAfter (.lb (at0 mc0) 3 0 0x7F) (withCore mc0 { firmware [] with scratch := [⟨0x7F, 0x80⟩] }) mc0 3 = some 0xFFFFFFFFFFFFFF80 := by decide +kernel
/-- A load of two bytes from an odd address raises MISALIGN, cause 0x03, with the address and EPC at the instruction (14 R425, R440); GM was 1, so that
bit 8 of CAUSE is set. -/
theorem test_misaligned_load_traps :
    after (.lh (at0 mc0) 3 1 0) (mcx [(1, 7)]) (fun t => ((t.core mc0).cause, (t.core mc0).eval, (t.core mc0).klinkPc)) = some (0x103, 7, 0) := by
  decide +kernel
/-- CALLK from user mode: cause 0x09, EPC past it, runtime mode, x30 traded with KENTRY_SP (14 R425, R427). -/
theorem test_callk_from_user_mode :
    after (.callk (at0 ec0)) (withCore ec0 { kernel [(30, 5)] with kentrySp := 6 })
      (fun t => ((t.core ec0).cause, (t.core ec0).klinkPc, (t.core ec0).mode, (t.core ec0).getX 30, (t.core ec0).kentrySp)) =
      some (0x09, 0x100000004, 1, 6, 5) := by decide +kernel
/-- Four words of 0x03020104 and its neighbours, and SETVL past VLMAX: 64 words in an EC's registers. -/
theorem test_vadd_of_four_words :
    after (.vadd (at0 ec0) 2 1 (.vi 1) 0 false) (withCore ec0 (vectors 2 0)) (fun t => (t.core ec0).getV 2) =
      some 0x00000001000000010403020204030202 := by decide +kernel
theorem test_setvl_stops_at_vlmax : xAfter (.setvl (at0 ec0) 3 1 2) (withCore ec0 (runtime [(1, 100)])) ec0 3 = some 64 := by decide +kernel
/-- 1.5 + 2.25 is 3.75 in single precision, exactly. -/
theorem test_fadd_single : (f32.add 0x3FC00000 0x40100000) = (0x40700000, 0) := by decide +kernel
/-- 1 / 3 in double precision is rounded to even, and inexact. -/
theorem test_fdiv_double : (f64.div 0x3FF0000000000000 0x4008000000000000) = (0x3FD5555555555555, 1) := by decide +kernel

/-- The check value of CRC-32C: that of the digits 1 to 9. -/
theorem test_crc32c_check_value : crc32c [0x31, 0x32, 0x33, 0x34, 0x35, 0x36, 0x37, 0x38, 0x39] = 0xE3069283 := by decide +kernel

/-- CREATE_SQ of queue 3 exists afterwards, and its command is finished with status 0. -/
theorem test_create_sq :
    after (.createSq someTag) (queued served [cmdOf 0x05 [(8, 0x1000), (16, 3), (18, 1), (20, 16)]])
      (fun t => ((t.sq 0 3).map (·.log2), (t.cmd? someTag).map (·.stage), ((t.cq 0 1).map fun q => q.ready.map (·.status)))) =
      some (some 16, some .finished, some [0]) := by decide +kernel
/-- An SQ of 2^17 entries is refused with FIELD_INVALID (03 R103). -/
theorem test_create_sq_too_large :
    after (.createSq someTag) (queued served [cmdOf 0x05 [(8, 0x1000), (16, 3), (18, 1), (20, 17)]])
      (fun t => ((t.sq 0 3).isSome, ((t.cq 0 1).map fun q => q.ready.map (·.status)))) = some (false, some [0x0801]) := by decide +kernel
/-- Two entries hold the key: the lower one is the answer, and there is more than one (11 R351). -/
theorem test_asa_lowest_entry_wins :
    (let p := { pod2 .serving with reload := [], slots := writeEntry 0 1 5 51 true ++ writeEntry 0 0 5 50 true }
     (answerIndex (p.answer 5 allMask), answerTag (p.answer 5 allMask), answerCount (p.answer 5 allMask), (p.answer 5 allMask).getLsbD 1)) =
      (0, 50, 2, true) := by decide +kernel
/-- An SQ doorbell leaves a scan due, and one to an instance that does not serve leaves nothing (03 R72). -/
theorem test_doorbell :
    after (.sqDoorbell 0 1 .full 5) (queued served []) (fun t => (t.sq 0 1).map (·.scanDue)) = some (some true) := by decide +kernel
/-- PWR_BUDGET takes 150 and ignores 149 (19 R577). -/
theorem test_pwr_budget :
    after (.registerWrite 0 0 0xC0000 4 150) served (fun t => t.power.watts) = some 150 ∧
    after (.registerWrite 0 0 0xC0000 4 149) served (fun t => t.power.watts) = some 420 := by decide +kernel
/-- Another function than the manager writes no register of the power block (21 R619). -/
theorem test_pwr_budget_of_another :
    after (.registerWrite 0 0 0xC0000 4 150) { served with glb := { served.glb with manager := some 5 } } (fun t => t.power.watts) = some 420 := by
  decide +kernel
/-- SET_MANAGER of a port whose link is UP names its PF for the next transfer; of another it is refused (20 R608). -/
theorem test_set_manager :
    after (.setManager 0) served (fun t => t.glb.nextManager) = some (some 0) ∧ after (.setManager 3) served (fun t => t.glb.nextManager) = some none := by
  decide +kernel

end Sys2Proof.Tests
end

section
/-! SUPPORT. The rules of the queues' state: what a queue, a command and a waiter read as after each update of the rings, and how a
command that runs comes to its end (03). -/

namespace Sys2Proof.Machine

open Sys2Proof.Claims

/-! ### Maps: a second update of the same key -/

section Maps

variable {κ α : Type} [DecidableEq κ]

@[simp] theorem AMap.erase_erase_self (m : AMap κ α) (k : κ) : AMap.erase (AMap.erase m k) k = AMap.erase m k := by
  induction m with
  | nil => rfl
  | cons e r ih => obtain ⟨a, b⟩ := e; simp only [AMap.erase]; split <;> simp_all [AMap.erase]

@[simp] theorem AMap.erase_insert_self (m : AMap κ α) (k : κ) (a : α) : AMap.erase (AMap.insert m k a) k = AMap.erase m k := by
  simp [AMap.insert, AMap.erase]

@[simp] theorem AMap.insert_insert_self (m : AMap κ α) (k : κ) (a b : α) :
    AMap.insert (AMap.insert m k a) k b = AMap.insert m k b := by
  simp [AMap.insert, AMap.erase]

end Maps

/-! ### Queues after an update -/

section Queues

variable (s : State) (i j : BitVec 8) (q r : BitVec 12)

theorem State.sq_setSq (v : Sq) : (s.setSq i q v).sq j r = if j = i ∧ r = q then some v else s.sq j r := by
  by_cases h : j = i ∧ r = q
  · obtain ⟨rfl, rfl⟩ := h; simp [State.sq, State.setSq]
  · rw [if_neg h]; exact AMap.find?_insert_ne _ _ _ _ (by simpa using h)

theorem State.cq_setCq (v : Cq) : (s.setCq i q v).cq j r = if j = i ∧ r = q then some v else s.cq j r := by
  by_cases h : j = i ∧ r = q
  · obtain ⟨rfl, rfl⟩ := h; simp [State.cq, State.setCq]
  · rw [if_neg h]; exact AMap.find?_insert_ne _ _ _ _ (by simpa using h)

theorem State.sq_dropSq : (s.dropSq i q).sq j r = if j = i ∧ r = q then none else s.sq j r := by
  simp [State.sq, State.dropSq, AMap.find?_erase, eq_comm]

theorem State.cq_dropCq : (s.dropCq i q).cq j r = if j = i ∧ r = q then none else s.cq j r := by
  simp [State.cq, State.dropCq, AMap.find?_erase, eq_comm]

@[simp] theorem State.sq_setSq_self (v : Sq) : (s.setSq i q v).sq i q = some v := by simp [State.sq_setSq]
@[simp] theorem State.cq_setCq_self (v : Cq) : (s.setCq i q v).cq i q = some v := by simp [State.cq_setCq]
@[simp] theorem State.cq_setSq (v : Sq) : (s.setSq i q v).cq = s.cq := rfl

@[simp] theorem State.setSq_setSq (v w : Sq) : (s.setSq i q v).setSq i q w = s.setSq i q w := by simp [State.setSq]
@[simp] theorem State.dropSq_setSq (v : Sq) : (s.setSq i q v).dropSq i q = s.dropSq i q := by simp [State.setSq, State.dropSq]

end Queues

/-! ### Commands after an update -/

theorem State.tag_of_cmd? {s : State} {t : Tag} {c : Cmd} (h : s.cmd? t = some c) : c.tag = t := by
  simpa using List.find?_some h

/-- A change of a command that keeps its tag is seen under its tag and under no other. -/
theorem State.cmd?_modCmd (s : State) (t u : Tag) (g : Cmd → Cmd) (keeps : ∀ c, (g c).tag = c.tag) :
    (s.modCmd t g).cmd? u = if u = t then (s.cmd? u).map g else s.cmd? u := by
  have same : ((fun c : Cmd => c.tag == u) ∘ fun c => if c.tag = t then g c else c) = fun c => c.tag == u := by
    funext c; dsimp only [Function.comp]; split <;> simp [keeps]
  unfold State.cmd? State.modCmd
  rw [List.find?_map, same]
  cases h : List.find? (fun c : Cmd => c.tag == u) s.rings.cmds with
  | none => simp
  | some c =>
    have hc : c.tag = u := by simpa using List.find?_some h
    by_cases hu : u = t <;> simp [hc, hu]

theorem State.cmd?_begun (s : State) (t u : Tag) :
    (s.begun t).cmd? u = if u = t then (s.cmd? u).map (fun c => { c with stage := .begun }) else s.cmd? u :=
  State.cmd?_modCmd s t u _ fun _ => rfl

theorem State.cmd?_finished (s : State) (t u : Tag) :
    (s.modCmd t fun c => { c with stage := .finished }).cmd? u =
      if u = t then (s.cmd? u).map (fun c => { c with stage := .finished }) else s.cmd? u :=
  State.cmd?_modCmd s t u _ fun _ => rfl

/-! ### Waiters -/

theorem PageReq.waiters_filtered (l : List PageReq) (f : Waiter → Bool) (w : Waiter) :
    (l.map fun r => { r with waiters := r.waiters.filter fun w => !f w }).any (fun r => r.waiters.contains w) =
      (l.any (fun r => r.waiters.contains w) && !f w) := by
  induction l with
  | nil => rfl
  | cons r rest ih =>
    simp only [List.map_cons, List.any_cons, ih]
    cases h : f w <;> simp [List.contains_eq_mem, h]

theorem State.waitsFor_dropWaiters (s : State) (f : Waiter → Bool) (w : Waiter) :
    (s.dropWaiters f).waitsFor w = (s.waitsFor w && !f w) := by
  simp only [State.waitsFor, State.dropWaiters, PageReq.waiters_filtered, Bool.and_or_distrib_right]

theorem State.waitsFor_unwait (s : State) (v w : Waiter) : (s.unwait v).waitsFor w = (s.waitsFor w && !decide (w = v)) := by
  unfold State.unwait
  split
  · rw [State.waitsFor_dropWaiters]; rfl
  · by_cases h : w = v <;> simp_all

/-- Nothing of the state differs after a waiter has been dropped but the page requests. -/
theorem State.unwait_rest (s : State) (w : Waiter) :
    s.unwait w = { s with xlat := { s.xlat with reqs := (s.unwait w).xlat.reqs, waiting := (s.unwait w).xlat.waiting } } := by
  unfold State.unwait
  split <;> rfl

theorem State.unwait_of_not_waitsFor {s : State} {w : Waiter} (h : s.waitsFor w = false) : s.unwait w = s := by
  simp [State.unwait, h]

/-- A waiter is dropped the same before and after a command begins. -/
theorem State.unwait_begun (s : State) (t : Tag) (w : Waiter) : (s.begun t).unwait w = (s.unwait w).begun t := by
  change (if s.waitsFor w then (s.begun t).dropWaiters (· == w) else s.begun t) =
    (if s.waitsFor w then s.dropWaiters (· == w) else s).begun t
  split <;> rfl

/-- A waiter is dropped the same before and after a queue is set. -/
theorem State.unwait_setSq (s : State) (i : BitVec 8) (q : BitVec 12) (v : Sq) (w : Waiter) :
    (s.setSq i q v).unwait w = (s.unwait w).setSq i q v := by
  change (if s.waitsFor w then (s.setSq i q v).dropWaiters (· == w) else s.setSq i q v) =
    (if s.waitsFor w then s.dropWaiters (· == w) else s).setSq i q v
  split <;> rfl

@[simp] theorem State.unwait_rings (s : State) (w : Waiter) : (s.unwait w).rings = s.rings := by rw [State.unwait_rest]
@[simp] theorem State.unwait_store (s : State) (w : Waiter) : (s.unwait w).store = s.store := by rw [State.unwait_rest]
@[simp] theorem State.unwait_out (s : State) (w : Waiter) : (s.unwait w).out = s.out := by rw [State.unwait_rest]
@[simp] theorem State.unwait_insts (s : State) (w : Waiter) : (s.unwait w).insts = s.insts := by rw [State.unwait_rest]
@[simp] theorem State.unwait_disp (s : State) (w : Waiter) : (s.unwait w).disp = s.disp := by rw [State.unwait_rest]
@[simp] theorem State.unwait_fw (s : State) (w : Waiter) : (s.unwait w).fw = s.fw := by rw [State.unwait_rest]

/-! ### What a finished command leaves behind -/

/-- Forgetting a command touches no queue and no other command, no table and no write. -/
theorem State.forget_keeps (s : State) (c : Cmd) : (s.forget c).rings = s.rings ∧ (s.forget c).out = s.out ∧
    (s.forget c).insts = s.insts ∧ (s.forget c).store.tables = s.store.tables ∧ (s.forget c).store.writes = s.store.writes := by
  unfold State.forget
  dsimp only
  (repeat' split) <;> simp [State.dropJobs, State.gcSegs]

@[simp] theorem State.forget_rings (s : State) (c : Cmd) : (s.forget c).rings = s.rings := (s.forget_keeps c).1

/-- A completion that becomes ready joins the end of its CQ's list. -/
theorem State.pushCpl_eq {s : State} {i : BitVec 8} {x : Cpl} {q : Sq} {cq : Cq} (hq : s.sq i x.sqid = some q)
    (hcq : s.cq i q.cqid = some cq) : s.pushCpl i x = s.setCq i q.cqid { cq with ready := cq.ready ++ [x] } := by
  simp [State.pushCpl, hq, hcq]

/-- Nothing but a CQ changes when a completion becomes ready. -/
theorem State.pushCpl_rest (s : State) (i : BitVec 8) (x : Cpl) :
    s.pushCpl i x = { s with rings := { s.rings with cqs := (s.pushCpl i x).rings.cqs } } := by
  unfold State.pushCpl
  (repeat' split) <;> rfl

theorem State.pushCpl_grows {s : State} (i : BitVec 8) (x : Cpl) {j : BitVec 8} {k : BitVec 12} {cq : Cq} (h : s.cq j k = some cq) :
    ∃ l, (s.pushCpl i x).cq j k = some { cq with ready := cq.ready ++ l } := by
  unfold State.pushCpl
  split
  · exact ⟨[], by simpa using h⟩
  · split
    · exact ⟨[], by simpa using h⟩
    · rename_i q _ _ old hold
      by_cases same : j = i ∧ k = q.cqid
      · obtain ⟨rfl, rfl⟩ := same
        obtain rfl : old = cq := Option.some.inj (hold.symm.trans h)
        exact ⟨[x], by simp⟩
      · exact ⟨[], by simpa [State.cq_setCq, same] using h⟩

/-- A command outside a batch finishes by its own completion. -/
theorem State.finishAfter_eq {s : State} {t : Tag} {c : Cmd} (status : BitVec 15) (result : BitVec 64) (after : List Tag)
    (found : s.cmd? t = some c) (pending : c.stage ≠ .finished) (single : c.batch = none) :
    s.finishAfter t status result after =
      ((s.forget c).modCmd t fun c => { c with stage := .finished }).pushCpl t.inst (ownCpl t status result after) := by
  simp [State.finishAfter, found, pending, single]

/-! ### A command that runs -/

/-- A command can end with nothing but its completion: the engine holds nothing for it that its end takes away, it is in no batch, and
its queues exist. -/
structure Ending (s : State) (t : Tag) (c : Cmd) : Prop where
  found   : s.cmd? t = some c
  pending : c.stage ≠ .finished
  single  : c.batch = none
  free    : s.waitsFor (.cmd t) = false
  jobs    : s.jobsWait t = false
  alone   : t ∉ s.fw.late
  plain   : c.opcode ≠ 0x4C ∧ c.opcode ≠ 0x4A
  queues  : ∃ q cq, s.sq t.inst t.sqid = some q ∧ s.cq t.inst q.cqid = some cq

theorem ending_of_due {s : State} {t : Tag} {op : Nat} {c : Cmd} (h : Due s t op c) (plain : op ≠ 0x4C ∧ op ≠ 0x4A) : Ending s t c :=
  ⟨h.found, h.pending, h.single, h.free, h.jobs, h.alone, h.named ▸ plain, h.queues⟩

/-- Nothing is forgotten of such a command. -/
theorem Ending.forget_eq {s : State} {t : Tag} {c : Cmd} (h : Ending s t c) : s.forget c = s := by
  obtain ⟨notFlush, notRead⟩ := h.plain
  have late : s.fw.late.filter (· != t) = s.fw.late :=
    List.filter_eq_self.mpr fun u hu => by simpa using fun e : u = t => h.alone (e ▸ hu)
  simp [State.forget, State.tag_of_cmd? h.found, State.unwait_of_not_waitsFor h.free, h.jobs, notFlush, notRead, late]

theorem Ending.begun {s : State} {t : Tag} {c : Cmd} (h : Ending s t c) : Ending (s.begun t) t { c with stage := .begun } where
  found := by simp [State.cmd?_begun, h.found]
  pending := by simp
  single := h.single
  free := h.free
  jobs := h.jobs
  alone := h.alone
  plain := h.plain
  queues := h.queues

/-- A command that has begun and finishes has ended, over the state before it began. -/
theorem Ending.ended {s : State} {t : Tag} {c : Cmd} (h : Ending s t c) (status : BitVec 15) (result : BitVec 64) (after : List Tag) :
    Ended s t status result after ((s.begun t).finishAfter t status result after) := by
  obtain ⟨q, cq, hq, hcq⟩ := h.queues
  have begun := h.begun
  have eq : (s.begun t).finishAfter t status result after =
      ((s.begun t).modCmd t fun c => { c with stage := .finished }).setCq t.inst q.cqid
        { cq with ready := cq.ready ++ [ownCpl t status result after] } := by
    rw [State.finishAfter_eq _ _ _ begun.found begun.pending begun.single, begun.forget_eq]
    exact State.pushCpl_eq hq hcq
  rw [eq]
  refine ⟨rfl, fun u => ?_, q, cq, hq, hcq, fun i k => State.cq_setCq _ _ _ _ _ _⟩
  change ((s.begun t).modCmd t _).cmd? u = _
  rw [State.cmd?_finished, State.cmd?_begun]
  by_cases hu : u = t <;> simp [hu, Function.comp_def]

/-- A command that runs begins and goes on with its own effect. -/
theorem opcode_of_runs {s : State} {t : Tag} {op : Nat} {c : Cmd} (h : Runs s t op c) (f : Cmd → State → State) :
    s.opcode t op f = .next (f c (s.begun t)) := by
  have begins : s.begin? t op = some c := by
    simp only [State.begin?, h.found, h.named, State.ready, h.ready, h.free]
    simpa using And.intro h.pending (h.turn.resolve_left ·)
  have passes : s.preCheck c = none := by
    obtain ⟨managed, fua⟩ := h.permitted
    have manager : (managerOpcodes.contains c.opcode && !s.isManager c.tag.inst) = false := by
      by_cases hm : c.opcode ∈ managerOpcodes <;> simp [hm, State.isManager, managed]
    have forced : (c.fua && !fuaOpcodes.contains c.opcode) = false := by
      by_cases hf : c.fua = true <;> simp [hf, fua]
    simp [State.preCheck, -List.contains_eq_mem, manager, forced]
  simp [State.opcode, begins, passes]

end Sys2Proof.Machine
end

section
/-! Creating and deleting queues (03 R95, R103; 17 R508). -/

namespace Sys2Proof.Machine

open Sys2Proof.Claims

/-! ### The fields of a body -/

theorem Cmd.f_lt (c : Cmd) (off n : Nat) : c.f off n < 256 ^ n := Nat.mod_lt _ (Nat.pow_pos (by decide))

/-- A PASID word with PV in bit 31, read by its size. -/
theorem bit_31 {w : Nat} (h : w < 2 ^ 32) : bit w 31 = decide (2 ^ 31 ≤ w) := by
  rw [bit, Nat.testBit_eq_decide_div_mod_eq, decide_eq_decide]
  omega

theorem pasidOf_eq {w : Nat} (h : w < 2 ^ 32) : pasidOf w = if w < 2 ^ 31 then none else some (BitVec.ofNat 20 w) := by
  rw [pasidOf, bit_31 h, ← ite_not]
  simp only [decide_eq_true_eq, Nat.not_le]

/-- IEN of a byte with bits 7:6 zero, read by its size. -/
theorem bit_5 {w : Nat} (h : w < 64) : bit w 5 = decide (32 ≤ w) := by
  rw [bit, Nat.testBit_eq_decide_div_mod_eq, decide_eq_decide]
  omega

/-- The parts of a CREATE_SQ or CREATE_CQ body that R103 and 15 R447 allow, whatever the queue. -/
structure CreateBody (s : State) (c : Cmd) : Prop where
  clean : c.clean [(8, 8), (16, 4), (20, 1), (24, 4)] = true
  pasid : c.f 24 4 % 2 ^ 31 < 2 ^ 20
  pv    : 2 ^ 31 ≤ c.f 24 4 → (s.fn c.tag.inst).pasidEn = true
  qid   : 1 ≤ c.f 16 2 ∧ c.f 16 2 ≤ 4095
  size  : 1 ≤ c.f 20 1 % 32 ∧ c.f 20 1 % 32 ≤ 16
  base  : c.f 8 8 % 4096 = 0

/-- Such a body is not refused, where bits 7:6 of its size byte are zero, and bit 5 where IEN is reserved. -/
theorem CreateBody.accepted {s : State} {c : Cmd} (h : CreateBody s c) {reserved : Bool} (high : c.f 20 1 < 64)
    (ien : reserved = true → c.f 20 1 < 32) : s.createBad c reserved = false := by
  obtain ⟨clean, pasid, pv, ⟨qid1, qid2⟩, ⟨size1, size2⟩, base⟩ := h
  have word : c.f 24 4 < 2 ^ 32 := c.f_lt 24 4
  have reservedBits : bits (c.f 24 4) 30 20 = 0 := by simp only [bits]; omega
  have highBits : bits (c.f 20 1) 7 6 = 0 := by simp only [bits]; omega
  have log2 : bits (c.f 20 1) 4 0 = c.f 20 1 % 32 := by simp [bits]
  have ienOk : (reserved && bit (c.f 20 1) 5) = false := by
    cases reserved with
    | false => rfl
    | true => simpa [bit_5 high] using ien rfl
  have pvOk : s.pvBad c 24 = false := by
    rw [State.pvBad, bit_31 word]
    simpa using pv
  simp only [State.createBad, clean, reservedBits, highBits, ienOk, pvOk, base, log2]
  simp
  omega

/-! ### The three commands on a body that is allowed -/

theorem Ending.sqid_ne_of_absent {s : State} {t : Tag} {c : Cmd} (h : Ending s t c) {q : BitVec 12} (absent : s.sq t.inst q = none) :
    t.sqid ≠ q := by
  obtain ⟨tq, _, hq, _⟩ := h.queues
  exact fun e => by simp [← e, hq] at absent

/-- A change of another queue of the same function leaves a command's own queues as they were. -/
theorem Ending.setSq {s : State} {t : Tag} {c : Cmd} (h : Ending s t c) {q : BitVec 12} (other : t.sqid ≠ q) (v : Sq) :
    Ending (s.setSq t.inst q v) t c := by
  obtain ⟨tq, tcq, hq, hcq⟩ := h.queues
  exact { h with queues := ⟨tq, tcq, by simpa [State.sq_setSq, other] using hq, hcq⟩ }

theorem Ending.setCq {s : State} {t : Tag} {c : Cmd} (h : Ending s t c) {q : BitVec 12} (new : s.cq t.inst q = none) (v : Cq) :
    Ending (s.setCq t.inst q v) t c := by
  obtain ⟨tq, tcq, hq, hcq⟩ := h.queues
  have other : tq.cqid ≠ q := fun e => by simp [← e, hcq] at new
  exact { h with queues := ⟨tq, tcq, hq, by simpa [State.cq_setCq, other] using hcq⟩ }

/-- So does the end of a CQ on which none of its SQs completes. -/
theorem Ending.dropCq {s : State} {t : Tag} {c : Cmd} (h : Ending s t c) {k : BitVec 12}
    (unused : ∀ e, e ∈ s.rings.sqs → e.1.1 = t.inst → e.2.cqid ≠ k) : Ending (s.dropCq t.inst k) t c := by
  obtain ⟨tq, tcq, hq, hcq⟩ := h.queues
  have other : tq.cqid ≠ k := unused _ (AMap.mem_of_find? _ _ _ hq) rfl
  exact { h with queues := ⟨tq, tcq, hq, by simpa [State.cq_dropCq, other] using hcq⟩ }

/-- So does a waiter that waits no longer. -/
theorem Ending.unwait {s : State} {t : Tag} {c : Cmd} (h : Ending s t c) (w : Waiter) : Ending (s.unwait w) t c where
  found := by simpa [State.cmd?] using h.found
  pending := h.pending
  single := h.single
  free := by simp [State.waitsFor_unwait, h.free]
  jobs := by simpa [State.jobsWait] using h.jobs
  alone := by simpa using h.alone
  plain := h.plain
  queues := by simpa [State.sq, State.cq] using h.queues

/-- A command that runs ends, where its meaning finishes it over a state that it may end over. -/
theorem ends_of_runs {s e : State} {t : Tag} {op : Nat} {c d : Cmd} {i : Instr} {f : Cmd → State → State} {status : BitVec 15}
    {result : BitVec 64} (h : Runs s t op c) (meaning : exec i s = s.opcode t op f) (ending : Ending e t d)
    (effect : f c (s.begun t) = (e.begun t).finishAfter t status result []) : Ends s i t status result e :=
  ⟨_, by rw [meaning, opcode_of_runs h, effect], ending.ended status result []⟩

theorem createSq_ends {s : State} {t : Tag} {c : Cmd} (h : Runs s t 0x05 c) (body : CreateBody s c) (plain : c.f 20 1 < 32)
    (new : s.sq t.inst (BitVec.ofNat 12 (c.f 16 2)) = none) (cqid1 : 1 ≤ c.f 18 2) (cqid2 : c.f 18 2 ≤ 4095)
    (cq : (s.cq t.inst (BitVec.ofNat 12 (c.f 18 2))).isSome = true) :
    if s.ioSqs t.inst < (s.inst t.inst).sqLimit.toNat then
      Ends s (.createSq t) t 0 0 (s.setSq t.inst (BitVec.ofNat 12 (c.f 16 2)) (freshSq (BitVec.ofNat 64 (c.f 8 8)) (pasidOf (c.f 24 4))
        (c.f 20 1) (BitVec.ofNat 12 (c.f 18 2))))
    else Ends s (.createSq t) t 0x1801 0 s := by
  have ending := ending_of_due h.toDue (by decide)
  have accepted : (s.begun t).createBad c true = false := body.accepted (by omega) fun _ => plain
  have log2 : bits (c.f 20 1) 4 0 = c.f 20 1 := by simp only [bits]; omega
  have absent : (s.begun t).sq t.inst (BitVec.ofNat 12 (c.f 16 2)) = none := new
  have there : (s.begun t).cq t.inst (BitVec.ofNat 12 (c.f 18 2)) ≠ none := Option.isSome_iff_ne_none.mp cq
  have zero : c.f 18 2 ≠ 0 := by omega
  split
  · rename_i room
    have room' : ¬((s.begun t).inst t.inst).sqLimit.toNat ≤ (s.begun t).ioSqs t.inst := Nat.not_le.mpr room
    refine ends_of_runs h (exec_createSq t s) (ending.setSq (ending.sqid_ne_of_absent new) _) ?_
    simp [accepted, absent, there, zero, Nat.not_lt.mpr cqid2, room', log2]
    rfl
  · rename_i full
    have full' : ((s.begun t).inst t.inst).sqLimit.toNat ≤ (s.begun t).ioSqs t.inst := Nat.le_of_not_lt full
    refine ends_of_runs h (exec_createSq t s) ending ?_
    simp [accepted, absent, there, zero, Nat.not_lt.mpr cqid2, full']
    rfl

theorem createCq_ends {s : State} {t : Tag} {c : Cmd} (h : Runs s t 0x06 c) (body : CreateBody s c) (plain : c.f 20 1 < 64)
    (new : s.cq t.inst (BitVec.ofNat 12 (c.f 16 2)) = none) (vector : 32 ≤ c.f 20 1 → c.f 18 2 < msixCount t.inst) :
    if s.ioCqs t.inst < (s.inst t.inst).cqLimit.toNat then
      Ends s (.createCq t) t 0 0 (s.setCq t.inst (BitVec.ofNat 12 (c.f 16 2)) (freshCq (BitVec.ofNat 64 (c.f 8 8)) (pasidOf (c.f 24 4))
        (c.f 20 1 % 32) (BitVec.ofNat 16 (c.f 18 2)) (decide (32 ≤ c.f 20 1))))
    else Ends s (.createCq t) t 0x1801 0 s := by
  have ending := ending_of_due h.toDue (by decide)
  have accepted : (s.begun t).createBad c false = false := body.accepted plain (by simp)
  have log2 : bits (c.f 20 1) 4 0 = c.f 20 1 % 32 := by simp [bits]
  have absent : (s.begun t).cq t.inst (BitVec.ofNat 12 (c.f 16 2)) = none := new
  have vectorOk : (decide (32 ≤ c.f 20 1) && decide (msixCount t.inst ≤ c.f 18 2)) = false := by simpa using vector
  split
  · rename_i room
    have room' : ¬((s.begun t).inst t.inst).cqLimit.toNat ≤ (s.begun t).ioCqs t.inst := Nat.not_le.mpr room
    refine ends_of_runs h (exec_createCq t s) (ending.setCq new _) ?_
    simp [-Bool.and_eq_true, accepted, absent, bit_5 plain, vectorOk, room', log2]
    rfl
  · rename_i full
    have full' : ((s.begun t).inst t.inst).cqLimit.toNat ≤ (s.begun t).ioCqs t.inst := Nat.le_of_not_lt full
    refine ends_of_runs h (exec_createCq t s) ending ?_
    simp [-Bool.and_eq_true, accepted, absent, bit_5 plain, vectorOk, full']
    rfl

theorem deleteCq_ends {s : State} {t : Tag} {c : Cmd} (h : Runs s t 0x08 c) (clean : c.clean [(16, 2)] = true) (qid1 : 1 ≤ c.f 16 2)
    (qid2 : c.f 16 2 ≤ 4095) (there : (s.cq t.inst (BitVec.ofNat 12 (c.f 16 2))).isSome = true)
    (unused : ∀ e, e ∈ s.rings.sqs → e.1.1 = t.inst → e.2.cqid ≠ BitVec.ofNat 12 (c.f 16 2)) :
    Ends s (.deleteCq t) t 0 0 ((s.unwait (.cqWrite t.inst (BitVec.ofNat 12 (c.f 16 2)))).dropCq t.inst (BitVec.ofNat 12 (c.f 16 2))) := by
  have ending : Ending ((s.unwait (.cqWrite t.inst (BitVec.ofNat 12 (c.f 16 2)))).dropCq t.inst (BitVec.ofNat 12 (c.f 16 2))) t c :=
    ((ending_of_due h.toDue (by decide)).unwait _).dropCq (by simpa using unused)
  refine ends_of_runs h (exec_deleteCq t s) ending ?_
  have zero : c.f 16 2 ≠ 0 := by omega
  have free : ((s.begun t).rings.sqs.any fun e => e.1.1 == t.inst && e.2.cqid == BitVec.ofNat 12 (c.f 16 2)) = false := by
    change (s.rings.sqs.any _) = false
    simpa using fun i q v mem => unused ((i, q), v) mem
  have there' : (s.begun t).cq t.inst (BitVec.ofNat 12 (c.f 16 2)) ≠ none := Option.isSome_iff_ne_none.mp there
  simp only [clean, free]
  simp [zero, Nat.not_lt.mpr qid2, there', State.unwait_begun]
  rfl

/-- Settles O32: CREATE_SQ, CREATE_CQ and DELETE_CQ, a lemma each. -/
theorem queuesAreCreatedAndDeleted : Obligations.QueuesAreCreatedAndDeleted := by
  unfold Obligations.QueuesAreCreatedAndDeleted
  intro s t c
  have word : c.f 24 4 < 2 ^ 32 := c.f_lt 24 4
  have bodyOf (op : Nat) (h : Runs s t op c) (clean : c.clean [(8, 8), (16, 4), (20, 1), (24, 4)] = true)
      (pasid : c.f 24 4 % 2 ^ 31 < 2 ^ 20) (pv : 2 ^ 31 ≤ c.f 24 4 → (s.fn t.inst).pasidEn = true) (qid1 : 1 ≤ c.f 16 2)
      (qid2 : c.f 16 2 ≤ 4095) (size1 : 1 ≤ c.f 20 1 % 32) (size2 : c.f 20 1 % 32 ≤ 16) (base : c.f 8 8 % 4096 = 0) : CreateBody s c :=
    ⟨clean, pasid, State.tag_of_cmd? h.found ▸ pv, ⟨qid1, qid2⟩, ⟨size1, size2⟩, base⟩
  refine ⟨?_, ?_, ?_⟩
  · rintro runs ⟨clean, pasid, pv, qid1, qid2, size1, size2, base⟩ plain new cqid1 cqid2 cq
    have ends := createSq_ends runs (bodyOf _ runs clean pasid pv qid1 qid2 size1 size2 base) plain new cqid1 cqid2 cq
    rwa [pasidOf_eq word] at ends
  · rintro runs ⟨clean, pasid, pv, qid1, qid2, size1, size2, base⟩ plain new vector
    have ends := createCq_ends runs (bodyOf _ runs clean pasid pv qid1 qid2 size1 size2 base) plain new vector
    rwa [pasidOf_eq word] at ends
  · intro runs clean qid1 qid2 there unused
    refine ⟨_, deleteCq_ends runs clean qid1 qid2 there unused, ?_, ?_⟩
    · change (s.unwait _).waitsFor _ = false
      simp [State.waitsFor_unwait]
    · rw [State.unwait_rest]; rfl

end Sys2Proof.Machine
end

section
/-! Draining a queue and aborting a command (03 R95-R97, R104; 04 R141-R144). -/

namespace Sys2Proof.Machine

open Sys2Proof.Claims

/-! ### Draining -/

/-- An SQ that has entered DRAINING (03 R95). -/
def Sq.drained (q : Sq) (d : Drain) : Sq := { q with st := .draining, drain := some d, scanDue := false, scanning := false }

/-- The SQ as RESET_QUEUE leaves it (03 R97). -/
def Sq.restarted (q : Sq) : Sq :=
  { q with st := .active, drain := none, head := 0, pass := 0, latchSlot := 0, latchReason := 0, scanDue := false, scanning := false }

theorem State.closeBatch_of_none {s : State} {i : BitVec 8} {k : BitVec 12} {q : Sq} (hq : s.sq i k = some q)
    (unbatched : q.openBatch = none) : s.closeBatch i k = s := by
  simp [State.closeBatch, hq, unbatched]

theorem State.drainSq_eq {s : State} {i : BitVec 8} {k : BitVec 12} {q : Sq} (d : Drain) (hq : s.sq i k = some q)
    (unbatched : q.openBatch = none) : s.drainSq i k d = s.setSq i k (q.drained d) := by
  simp only [State.drainSq, hq]
  exact State.closeBatch_of_none (State.sq_setSq_self ..) unbatched

/-- A change of commands that keeps their tags leaves an SQ as busy as it was. -/
theorem State.sqBusy_begun (s : State) (t : Tag) (i : BitVec 8) (k : BitVec 12) : (s.begun t).sqBusy i k = s.sqBusy i k := by
  have tags : ((fun c : Cmd => c.tag.inst == i && c.tag.sqid == k) ∘ fun c => if c.tag = t then { c with stage := .begun } else c) =
      fun c => c.tag.inst == i && c.tag.sqid == k := by
    funext c; dsimp only [Function.comp]; split <;> rfl
  simp only [State.sqBusy, State.begun, State.modCmd, List.any_map, tags]

theorem State.sqBusy_begun_setSq (s : State) (t : Tag) (i j : BitVec 8) (q k : BitVec 12) (v : Sq) :
    ((s.begun t).setSq i q v).sqBusy j k = s.sqBusy j k := State.sqBusy_begun s t j k

/-- The SQ of an outstanding command is busy. -/
theorem State.sqBusy_of_cmd? {s : State} {t : Tag} {c : Cmd} (h : s.cmd? t = some c) : s.sqBusy t.inst t.sqid = true := by
  have tag := State.tag_of_cmd? h
  have mem := List.mem_of_find?_eq_some h
  simp only [State.sqBusy, Bool.or_eq_true, List.any_eq_true]
  exact .inl ⟨c, mem, by simp [tag]⟩

theorem State.drainCheck_of_busy {s : State} {i : BitVec 8} {k : BitVec 12} (busy : s.sqBusy i k = true) : s.drainCheck i k = s := by
  unfold State.drainCheck
  split
  · rfl
  · simp [busy]

theorem State.drainCheck_delete {s : State} {i : BitVec 8} {k : BitVec 12} {q : Sq} {t : Tag} (hq : s.sq i k = some q)
    (idle : s.sqBusy i k = false) (st : q.st = .draining) (drain : q.drain = some (.delete t)) :
    s.drainCheck i k = ((s.unwait (.sqFetch i k)).dropSq i k).finish t stOk 0 := by
  simp [State.drainCheck, hq, idle, st, drain]

theorem State.drainCheck_reset {s : State} {i : BitVec 8} {k : BitVec 12} {q : Sq} {t : Tag} (hq : s.sq i k = some q)
    (idle : s.sqBusy i k = false) (st : q.st = .draining) (drain : q.drain = some (.reset t)) :
    s.drainCheck i k = ((s.unwait (.sqFetch i k)).setSq i k { q.restarted with openBatch := none }).finish t stOk 0 := by
  simp [State.drainCheck, hq, idle, st, drain, Sq.restarted]

/-- RESET_QUEUE and DELETE_SQ of a sound queue with no batch open: it is DRAINING, and what it drains for happens once it is idle. -/
theorem State.drainCmd_eq {s : State} {t : Tag} {c : Cmd} {q : Sq} (d : Drain) (clean : c.clean [(16, 2)] = true) (qid1 : 1 ≤ c.f 16 2)
    (qid2 : c.f 16 2 ≤ 4095) (hq : s.sq t.inst (BitVec.ofNat 12 (c.f 16 2)) = some q) (active : q.st ≠ .draining)
    (unbatched : q.openBatch = none) :
    s.drainCmd t c d [] =
      (s.setSq t.inst (BitVec.ofNat 12 (c.f 16 2)) (q.drained d)).drainCheck t.inst (BitVec.ofNat 12 (c.f 16 2)) := by
  have zero : c.f 16 2 ≠ 0 := by omega
  simp only [State.drainCmd, clean]
  simp [zero, Nat.not_lt.mpr qid2, hq, active, State.drainSq_eq d hq unbatched, State.stopCmds, forEach]

theorem Ending.dropSq {s : State} {t : Tag} {c : Cmd} (h : Ending s t c) {q : BitVec 12} (other : t.sqid ≠ q) :
    Ending (s.dropSq t.inst q) t c := by
  obtain ⟨tq, tcq, hq, hcq⟩ := h.queues
  exact { h with queues := ⟨tq, tcq, by simpa [State.sq_dropSq, other] using hq, hcq⟩ }

/-- The queue that a DELETE_SQ or RESET_QUEUE names, as R95 lets it be drained. -/
structure Drainable (s : State) (t : Tag) (c : Cmd) (q : Sq) : Prop where
  clean  : c.clean [(16, 2)] = true
  qid1   : 1 ≤ c.f 16 2
  qid2   : c.f 16 2 ≤ 4095
  found  : s.sq t.inst (BitVec.ofNat 12 (c.f 16 2)) = some q
  active : q.st ≠ .draining
  unbatched : q.openBatch = none

section Drains

variable {s : State} {t : Tag} {op : Nat} {c : Cmd} {q : Sq} {i : Instr} {d : Drain}

/-- What either command comes to, once begun. -/
theorem Drainable.effect (h : Drainable s t c q) (d : Drain) : (s.begun t).drainCmd t c d [] =
    ((s.begun t).setSq t.inst (BitVec.ofNat 12 (c.f 16 2)) (q.drained d)).drainCheck t.inst (BitVec.ofNat 12 (c.f 16 2)) :=
  State.drainCmd_eq d h.clean h.qid1 h.qid2 h.found h.active h.unbatched

/-- A busy queue is DRAINING, and no other command nor any CQ differs. -/
theorem Drainable.drains (h : Drainable s t c q) (runs : Runs s t op c)
    (meaning : exec i s = s.opcode t op fun c s => s.drainCmd t c d [])
    (busy : s.sqBusy t.inst (BitVec.ofNat 12 (c.f 16 2)) = true) :
    ∃ new, exec i s = .next new ∧ new.sq t.inst (BitVec.ofNat 12 (c.f 16 2)) = some (q.drained d) ∧
      (∀ u, u ≠ t → new.cmd? u = s.cmd? u) ∧ new.rings.cqs = s.rings.cqs := by
  refine ⟨(s.begun t).setSq t.inst (BitVec.ofNat 12 (c.f 16 2)) (q.drained d), ?_, State.sq_setSq_self ..,
    fun u hu => (State.cmd?_begun s t u).trans (if_neg hu), rfl⟩
  rw [meaning, opcode_of_runs runs, h.effect, State.drainCheck_of_busy ((State.sqBusy_begun_setSq ..).trans busy)]

/-- The queue of the command itself is busy with it. -/
theorem sqid_ne_of_idle (runs : Runs s t op c) (idle : s.sqBusy t.inst (BitVec.ofNat 12 (c.f 16 2)) = false) :
    t.sqid ≠ BitVec.ofNat 12 (c.f 16 2) := fun e => by
  rw [← e, State.sqBusy_of_cmd? runs.found] at idle
  exact absurd idle (by decide)

/-- An idle queue goes at once, where it drains for a DELETE_SQ. -/
theorem Drainable.deleted (h : Drainable s t c q) (runs : Runs s t 0x07 c)
    (idle : s.sqBusy t.inst (BitVec.ofNat 12 (c.f 16 2)) = false) :
    Ends s (.deleteSq t []) t 0 0
      ((s.unwait (.sqFetch t.inst (BitVec.ofNat 12 (c.f 16 2)))).dropSq t.inst (BitVec.ofNat 12 (c.f 16 2))) := by
  refine ends_of_runs runs (exec_deleteSq t [] s)
    (((ending_of_due runs.toDue (by decide)).unwait _).dropSq (sqid_ne_of_idle runs idle)) ?_
  rw [h.effect, State.drainCheck_delete (State.sq_setSq_self ..) ((State.sqBusy_begun_setSq ..).trans idle) rfl rfl, State.unwait_setSq,
    State.dropSq_setSq, State.unwait_begun]
  rfl

/-- An idle queue is ACTIVE on pass 0 at once, where it drains for a RESET_QUEUE. -/
theorem Drainable.restarted (h : Drainable s t c q) (runs : Runs s t 0x09 c)
    (idle : s.sqBusy t.inst (BitVec.ofNat 12 (c.f 16 2)) = false) :
    Ends s (.resetQueue t []) t 0 0
      ((s.unwait (.sqFetch t.inst (BitVec.ofNat 12 (c.f 16 2)))).setSq t.inst (BitVec.ofNat 12 (c.f 16 2)) q.restarted) := by
  refine ends_of_runs runs (exec_resetQueue t [] s)
    (((ending_of_due runs.toDue (by decide)).unwait _).setSq (sqid_ne_of_idle runs idle) _) ?_
  have closed : { (q.drained (.reset t)).restarted with openBatch := none } = q.restarted := by
    rw [← h.unbatched]; rfl
  rw [h.effect, State.drainCheck_reset (State.sq_setSq_self ..) ((State.sqBusy_begun_setSq ..).trans idle) rfl rfl, closed, State.unwait_setSq,
    State.setSq_setSq, State.unwait_begun]
  rfl

end Drains

/-! ### Aborting -/

/-- What the end of a command outside a batch leaves of the rings, the tables and the writes. -/
structure FinishedOwn (s : State) (t : Tag) (status : BitVec 15) (result : BitVec 64) (after : List Tag) (new : State) : Prop where
  cmds   : ∀ u, new.cmd? u = if u = t then (s.cmd? u).map (fun c => { c with stage := .finished }) else s.cmd? u
  sqs    : new.sq = s.sq
  tables : new.store.tables = s.store.tables
  writes : new.store.writes = s.store.writes
  own    : ∀ q cq, s.sq t.inst t.sqid = some q → s.cq t.inst q.cqid = some cq →
    new.cq t.inst q.cqid = some { cq with ready := cq.ready ++ [ownCpl t status result after] }
  grows  : ∀ i k cq, s.cq i k = some cq → ∃ l, new.cq i k = some { cq with ready := cq.ready ++ l }

theorem State.finishAfter_own {s : State} {t : Tag} {c : Cmd} (status : BitVec 15) (result : BitVec 64) (after : List Tag)
    (found : s.cmd? t = some c) (pending : c.stage ≠ .finished) (single : c.batch = none) :
    FinishedOwn s t status result after (s.finishAfter t status result after) := by
  have rings := s.forget_rings c
  obtain ⟨-, -, -, tables, writes⟩ := s.forget_keeps c
  have cmd : (s.forget c).cmd? = s.cmd? := by funext u; simp only [State.cmd?, rings]
  have sq : (s.forget c).sq = s.sq := by funext i k; simp only [State.sq, rings]
  have cq : (s.forget c).cq = s.cq := by funext i k; simp only [State.cq, rings]
  rw [State.finishAfter_eq _ _ _ found pending single]
  exact {
    cmds := fun u => by
      rw [State.pushCpl_rest]
      exact (State.cmd?_finished (s.forget c) t u).trans (by rw [cmd])
    sqs := by rw [State.pushCpl_rest]; exact sq
    tables := by rw [State.pushCpl_rest]; exact tables
    writes := by rw [State.pushCpl_rest]; exact writes
    own := fun q old hq hcq => by
      have markedSq : ((s.forget c).modCmd t fun c => { c with stage := .finished }).sq t.inst t.sqid = some q :=
        (congrFun (congrFun sq _) _).trans hq
      have markedCq : ((s.forget c).modCmd t fun c => { c with stage := .finished }).cq t.inst q.cqid = some old :=
        (congrFun (congrFun cq _) _).trans hcq
      rw [State.pushCpl_eq (x := ownCpl t status result after) markedSq markedCq, State.cq_setCq_self]
    grows := fun i k old h => State.pushCpl_grows _ _ ((congrFun (congrFun cq i) k).trans h) }

/-- A command of the load path, or a write before its commit, can be caught (04 R141). -/
theorem State.canCatch_of_open {s : State} {d : Cmd} (pending : d.stage ≠ .finished)
    (uncommitted : d.opcode ∈ [0x4A, 0x50] ∨ (d.opcode ∈ [0x40, 0x41, 0x48, 0x49, 0x4B] ∧
      ∀ w, w ∈ s.store.writes → w.tag = some d.tag → w.phase = .built ∨ w.phase = .admitting)) : s.canCatch d = true := by
  rcases uncommitted with load | ⟨write, early⟩
  · have notWrite : d.opcode ∉ [0x40, 0x41, 0x48, 0x49, 0x4B] ∧ d.opcode ≠ 0x4C := by
      simp only [List.mem_cons, List.not_mem_nil, or_false] at load ⊢; omega
    simp only [State.canCatch, List.contains_eq_mem, notWrite, load]
    simpa using pending
  · have open_ : (s.store.writes.any fun w => w.tag == some d.tag && w.phase != .built && w.phase != .admitting) = false := by
      rw [List.any_eq_false]
      intro w mem
      simp only [Bool.and_eq_true, beq_iff_eq, bne_iff_ne, ne_eq, not_and, Decidable.not_not]
      exact fun ⟨tag, built⟩ => (early w mem tag).resolve_left built
    simp only [State.canCatch, List.contains_eq_mem, write, open_]
    simpa using pending

/-- The state without the writes of a command, and the segments that they alone kept. -/
def State.dropWrites (s : State) (t : Tag) : State :=
  State.gcSegs { s with store := { s.store with writes := s.store.writes.filter fun w => w.tag != some t } }

/-- A caught command that is no query takes its writes with it and finishes with the status (04 R142). -/
theorem State.catchCmd_eq {s : State} {d : Cmd} (status : BitVec 15) (h : d.opcode ≠ 0x52) :
    s.catchCmd d status = (s.dropWrites d.tag).finishAfter d.tag status 0 [] := by
  simp [State.catchCmd, h, State.finish, State.dropWrites]

/-- The command that an ABORT names, and that its body is sound. -/
structure AbortBody (s : State) (t : Tag) (c : Cmd) (target : Tag) : Prop where
  clean  : c.clean [(16, 4)] = true
  qid    : c.f 16 2 ≤ 4095
  queue  : (s.sq t.inst (BitVec.ofNat 12 (c.f 16 2))).isSome = true
  target : target = ⟨t.inst, BitVec.ofNat 12 (c.f 16 2), BitVec.ofNat 16 (c.f 18 2)⟩

section Aborts

variable {s : State} {t target : Tag} {c d : Cmd}

/-- What an ABORT with a sound body comes to, by what is outstanding under the tag it names. -/
theorem AbortBody.exec_eq (h : AbortBody s t c target) (runs : Runs s t 0x0A c) (succeeds : Bool) :
    exec (.abort t succeeds) s = .next (((s.begun t).cmd? target).elim ((s.begun t).finish t stOk 0) fun d =>
      if d.opcode = 0x0A then (s.begun t).finish t stOk 0
      else if succeeds && (s.begun t).canCatch d then ((s.begun t).catchCmd d stAborted).finishAfter t stOk 1 [target]
      else (s.begun t).finishAfter t stOk 0 [target]) := by
  obtain ⟨clean, qid, queue, rfl⟩ := h
  have there : (s.begun t).sq t.inst (BitVec.ofNat 12 (c.f 16 2)) ≠ none := Option.isSome_iff_ne_none.mp queue
  rw [exec_abort, execAbort, opcode_of_runs runs]
  simp only [clean]
  simp only [Nat.not_lt.mpr qid]
  cases (s.begun t).cmd? ⟨t.inst, BitVec.ofNat 12 (c.f 16 2), BitVec.ofNat 16 (c.f 18 2)⟩ <;> simp [there]

/-- A command other than an ABORT is another than the ABORT that names it. -/
theorem abort_target_ne (runs : Runs s t 0x0A c) (found : s.cmd? target = some d) (other : d.opcode ≠ 0x0A) : target ≠ t := by
  rintro rfl
  obtain rfl : c = d := Option.some.inj (runs.found.symm.trans found)
  exact other runs.named

/-- The target that an ABORT sees, once it has begun, has the opcode it had. -/
theorem cmd?_begun_target (t : Tag) (found : s.cmd? target = some d) :
    ∃ e, (s.begun t).cmd? target = some e ∧ e.opcode = d.opcode ∧ (target ≠ t → e = d) := by
  rw [State.cmd?_begun, found]
  split
  · exact ⟨_, rfl, rfl, fun ne => absurd ‹_› ne⟩
  · exact ⟨d, rfl, rfl, fun _ => rfl⟩

theorem AbortBody.ends_of_none (h : AbortBody s t c target) (runs : Runs s t 0x0A c) (none : s.cmd? target = none) (succeeds : Bool) :
    Ends s (.abort t succeeds) t 0 0 s := by
  refine ⟨_, ?_, (ending_of_due runs.toDue (by decide)).ended 0 0 []⟩
  have absent : (s.begun t).cmd? target = Option.none := by simp [State.cmd?_begun, none]
  rw [h.exec_eq runs, absent]
  rfl

theorem AbortBody.ends_of_abort (h : AbortBody s t c target) (runs : Runs s t 0x0A c) (found : s.cmd? target = some d)
    (abort : d.opcode = 0x0A) (succeeds : Bool) : Ends s (.abort t succeeds) t 0 0 s := by
  refine ⟨_, ?_, (ending_of_due runs.toDue (by decide)).ended 0 0 []⟩
  obtain ⟨e, there, op, -⟩ := cmd?_begun_target t found
  rw [h.exec_eq runs, there]
  simp only [Option.elim_some, op, abort]
  rfl

theorem AbortBody.ended_of_missed (h : AbortBody s t c target) (runs : Runs s t 0x0A c) (found : s.cmd? target = some d)
    (other : d.opcode ≠ 0x0A) : ∃ new, exec (.abort t false) s = .next new ∧ Ended s t 0 0 [target] new := by
  refine ⟨_, ?_, (ending_of_due runs.toDue (by decide)).ended 0 0 [target]⟩
  obtain ⟨e, there, op, -⟩ := cmd?_begun_target t found
  rw [h.exec_eq runs, there]
  simp only [Option.elim_some, op, other]
  rfl

/-- A target that is caught: its own end, over a state without its writes, and then the ABORT's. -/
theorem AbortBody.caught (h : AbortBody s t c target) (runs : Runs s t 0x0A c) (found : s.cmd? target = some d)
    (uncommitted : d.opcode ∈ [0x4A, 0x50] ∨ (d.opcode ∈ [0x40, 0x41, 0x48, 0x49, 0x4B] ∧
      ∀ w, w ∈ s.store.writes → w.tag = some target → w.phase = .built ∨ w.phase = .admitting))
    (pending : d.stage ≠ .finished) (single : d.batch = none) :
    ∃ stopped new, exec (.abort t true) s = .next new ∧
      FinishedOwn ((s.begun t).dropWrites target) target stAborted 0 [] stopped ∧ FinishedOwn stopped t stOk 1 [target] new := by
  have notAbortNorQuery : d.opcode ≠ 0x0A ∧ d.opcode ≠ 0x52 := by
    simp only [List.mem_cons, List.not_mem_nil, or_false] at uncommitted; omega
  obtain ⟨other, plain⟩ := notAbortNorQuery
  have ne := abort_target_ne runs found other
  have tag : d.tag = target := State.tag_of_cmd? found
  obtain ⟨e, there, -, same⟩ := cmd?_begun_target t found
  obtain rfl := same ne
  have mine := (ending_of_due runs.toDue (by decide)).begun
  have catches : (s.begun t).canCatch e = true := State.canCatch_of_open pending (by rw [tag]; exact uncommitted)
  have stopped := State.finishAfter_own (s := (s.begun t).dropWrites target) stAborted 0 [] there pending single
  have abortThere : (((s.begun t).dropWrites target).finishAfter target stAborted 0 []).cmd? t = some { c with stage := .begun } := by
    rw [stopped.cmds, if_neg ne.symm]; exact mine.found
  refine ⟨_, _, ?_, stopped, State.finishAfter_own _ _ _ abortThere mine.pending mine.single⟩
  rw [h.exec_eq runs, there]
  simp only [Option.elim_some, other, catches, State.catchCmd_eq stAborted plain, tag]
  rfl

end Aborts

/-- Settles O33: the two drains by whether the queue is busy, and ABORT by what it names. -/
theorem queuesDrainAndCommandsAbort : Obligations.QueuesDrainAndCommandsAbort := by
  unfold Obligations.QueuesDrainAndCommandsAbort
  intro s t c q
  refine ⟨?_, ?_, ?_⟩
  · rintro runs ⟨clean, qid1, qid2, found, active, unbatched⟩
    have queue : Drainable s t c q := ⟨clean, qid1, qid2, found, active, unbatched⟩
    refine ⟨fun idle => ⟨_, queue.deleted runs idle, ?_, ?_⟩, fun busy => queue.drains runs (exec_deleteSq t [] s) busy⟩
    · change (s.unwait _).waitsFor _ = false
      simp [State.waitsFor_unwait]
    · rw [State.unwait_rest]; rfl
  · rintro runs ⟨clean, qid1, qid2, found, active, unbatched⟩
    have queue : Drainable s t c q := ⟨clean, qid1, qid2, found, active, unbatched⟩
    refine ⟨fun idle => ⟨_, queue.restarted runs idle, ?_, ?_⟩, fun busy => queue.drains runs (exec_resetQueue t [] s) busy⟩
    · change (s.unwait _).waitsFor _ = false
      simp [State.waitsFor_unwait]
    · rw [State.unwait_rest]; rfl
  · intro runs clean qid there
    have body : AbortBody s t c ⟨t.inst, BitVec.ofNat 12 (c.f 16 2), BitVec.ofNat 16 (c.f 18 2)⟩ := ⟨clean, qid, there, rfl⟩
    refine ⟨fun none => body.ends_of_none runs none true, fun d found => ⟨fun abort stopped => body.ends_of_abort runs found abort stopped,
      fun other => body.ended_of_missed runs found other, ?_⟩⟩
    intro x cq tq tcq uncommitted pending single hx hcq htq htcq
    obtain ⟨stopped, new, meaning, first, second⟩ := body.caught runs found uncommitted pending single
    have aReady := first.own x cq hx hcq
    obtain ⟨l, mineBefore⟩ := first.grows t.inst tq.cqid tcq htcq
    have bReady := second.own tq _ ((congrFun (congrFun first.sqs _) _).trans htq) mineBefore
    obtain ⟨m, aLater⟩ := second.grows _ _ _ aReady
    refine ⟨new, _, _, _, _, meaning, second.tables.trans first.tables, aLater, bReady,
      List.mem_append_left _ (List.mem_append_right _ (List.mem_singleton_self _)), rfl, rfl, rfl, rfl,
      List.mem_append_right _ (List.mem_singleton_self _), rfl, rfl, rfl, rfl, rfl, ?_, ?_⟩
    · intro u notMine notTarget
      rw [second.cmds, if_neg notMine, first.cmds, if_neg notTarget]
      exact (State.cmd?_begun s t u).trans (if_neg notMine)
    · intro w
      rw [second.writes, first.writes]
      simp [State.dropWrites, State.gcSegs, State.begun, State.modCmd]

end Sys2Proof.Machine
end

section
/-! Doorbells, stalls, the fetch rate and the admin queue (03 R72, R73, R81-R84, R99, R100; 17 R512; 21 R625, R626, R637). -/

namespace Sys2Proof.Machine

/-! ### Doorbells -/

/-- Doorbells are served while the engine is READY and who owns them is SERVING. -/
def State.serving (s : State) (i : BitVec 8) : Bool := s.ready && (s.inst i).st == .serving

theorem State.serving_iff (s : State) (i : BitVec 8) : s.serving i = true ↔ s.glb.phase = .ready ∧ (s.inst i).st = .serving := by
  simp [State.serving, State.ready]

theorem dbValue_of_ne_high {w : DbWidth} (h : w ≠ .high) (v : BitVec 64) :
    dbValue w v = some (if w = .low then v &&& 0xFFFFFFFF else v) := by
  cases w <;> simp_all [dbValue]

/-- The slots that a write of a CQ head doorbell returns (03 R82). -/
def Cq.returnedBy (cq : Cq) (new : Nat) : Nat :=
  if new = cq.head ∧ 2 ^ cq.log2 ≤ cq.unreturned then 2 ^ cq.log2 else (new + 2 ^ cq.log2 - cq.head) % 2 ^ cq.log2

/-- The CQ after them (03 R81, R84; 15 R456). -/
def Cq.returned (cq : Cq) (new : Nat) : Cq :=
  { cq with
    head := new, unreturned := cq.unreturned - cq.returnedBy new, faulted := false
    stallRaised := if cq.returnedBy new = 0 ∧ cq.faulted = false then cq.stallRaised else false }

theorem Cq.full_eq (cq : Cq) : cq.full = decide (2 ^ cq.log2 ≤ cq.unreturned) := rfl

section Doorbells

variable {s : State} {i : BitVec 8} {k : BitVec 12} {w : DbWidth} {v : BitVec 64}

theorem State.ringSq_eq {q : Sq} (hq : s.sq i k = some q) (low : w ≠ .high) :
    s.ringSq i k w v = if s.serving i && q.st == .active then s.setSq i k { q with scanDue := true } else s := by
  simp [State.ringSq, dbValue_of_ne_high low, hq, State.serving]

theorem State.ringCq_eq {cq : Cq} (hcq : s.cq i k = some cq) (low : w ≠ .high) (serving : s.serving i = true) {u : BitVec 64}
    (hu : (if w = .low then v &&& 0xFFFFFFFF else v) = u) :
    s.ringCq i k w v =
      if u.toNat % 65536 < 2 ^ cq.log2 ∧ cq.returnedBy (u.toNat % 65536) ≤ cq.unreturned then
        s.setCq i k (cq.returned (u.toNat % 65536))
      else s.raiseInst 513 i (k.setWidth 64) u := by
  have slots (new : Nat) : (if (decide (new = cq.head) && cq.full) = true then cq.size else (new + cq.size - cq.head) % cq.size) =
      cq.returnedBy new := by
    simp [Cq.returnedBy, Cq.full_eq, Cq.size]
  have stall (n : Nat) : (cq.stallRaised && n == 0 && !cq.faulted) = if n = 0 ∧ cq.faulted = false then cq.stallRaised else false := by
    by_cases hz : n = 0 <;> cases cq.faulted <;> simp [hz]
  simp only [State.serving] at serving
  simp only [State.ringCq, dbValue_of_ne_high low, hu, hcq, serving, slots, stall]
  by_cases sound : u.toNat % 65536 < 2 ^ cq.log2 ∧ cq.returnedBy (u.toNat % 65536) ≤ cq.unreturned
  · obtain ⟨inside, enough⟩ := sound
    simp [Cq.size, Cq.returned, inside, enough, Nat.not_le.mpr inside, Nat.not_lt.mpr enough]
  · have refused : 2 ^ cq.log2 ≤ u.toNat % 65536 ∨ cq.unreturned < cq.returnedBy (u.toNat % 65536) := by
      omega
    simp [Cq.size, sound, refused]

/-- A write to the high half of a doorbell rings nothing, nor does one to a queue whose owner is not SERVING. -/
theorem State.ringSq_ignored (h : s.serving i = false ∨ w = .high) : s.ringSq i k w v = s := by
  unfold State.ringSq
  split
  · rename_i low _
    have idle := h.resolve_right fun high => by simp [high, dbValue] at low
    simp only [State.serving] at idle
    simp [idle]
  · rfl

theorem State.ringCq_ignored (h : s.serving i = false ∨ w = .high) : s.ringCq i k w v = s := by
  unfold State.ringCq
  split
  · rename_i low _
    have idle := h.resolve_right fun high => by simp [high, dbValue] at low
    simp only [State.serving] at idle
    simp [idle]
  · rfl

end Doorbells

/-! ### Tokens and stalls -/

theorem execFetchToken_eq {s : State} {i : BitVec 8} {k : BitVec 12} {q : Sq} (hq : s.sq i k = some q) (rate : (s.inst i).fetchRate ≠ 0)
    (io : k ≠ 0) : execFetchToken i k s = .next (s.setSq i k { q with tokens := if q.tokens < 16 then q.tokens + 1 else 16 }) := by
  have accrues : ((s.inst i).fetchRate != 0 && k != 0) = true := by simpa using And.intro rate io
  have bucket : min fullTokens (q.tokens + 1) = if q.tokens < 16 then q.tokens + 1 else 16 := by
    unfold fullTokens; split <;> omega
  simp only [execFetchToken, hq, accrues, bucket]
  rfl

theorem execCqStalled_eq {s : State} {i : BitVec 8} {k : BitVec 12} {cq : Cq} (hcq : s.cq i k = some cq)
    (held : 2 ^ cq.log2 ≤ cq.unreturned ∨ cq.faulted = true) (d0 : (s.fn i).d3hot = false) :
    execCqStalled i k s = .next (if cq.stallRaised then s else
      (s.setCq i k { cq with stallRaised := true }).raiseInst 512 i (k.setWidth 64) 0) := by
  have stopped : (cq.full || cq.faulted || s.waitsFor (.cqWrite i k)) = true := by
    simp only [Cq.full_eq, Bool.or_eq_true, decide_eq_true_eq]; exact .inl held
  cases raised : cq.stallRaised <;> simp [-Bool.or_eq_true, execCqStalled, hcq, stopped, d0, raised]

/-! ### The admin queue -/

/-- The sizes that a write to ADM_CTRL leaves (21 R625). -/
def Fn.sized (f : Fn) (ctl : BitVec 32) : Fn :=
  if f.admEn then f else { f with sqLog2 := ctl.extractLsb' 8 4, cqLog2 := ctl.extractLsb' 16 4 }

/-- Sizes and bases with which the admin queues can be made (21 R626). -/
def Fn.admSound (f : Fn) : Prop :=
  1 ≤ f.sqLog2.toNat ∧ f.sqLog2.toNat ≤ 12 ∧ 1 ≤ f.cqLog2.toNat ∧ f.cqLog2.toNat ≤ 12 ∧ f.admSqBase ≠ 0 ∧ f.admCqBase ≠ 0

theorem State.fn_setFn (s : State) (i j : BitVec 8) (f : Fn) : (s.setFn i f).fn j = if j = i then f else s.fn j :=
  AMap.get_insert ..

@[simp] theorem State.inst_setFn (s : State) (i : BitVec 8) (f : Fn) : (s.setFn i f).inst = s.inst := rfl

/-- Only functions differ after a write of sizes. -/
theorem State.admSizes_rest (s : State) (i : BitVec 8) (v : BitVec 32) :
    s.admSizes i v = { s with fns := (s.admSizes i v).fns } := by
  unfold State.admSizes
  split <;> rfl

@[simp] theorem State.sq_admSizes (s : State) (i : BitVec 8) (v : BitVec 32) : (s.admSizes i v).sq = s.sq := by
  rw [State.admSizes_rest]; rfl
@[simp] theorem State.inst_admSizes (s : State) (i : BitVec 8) (v : BitVec 32) : (s.admSizes i v).inst = s.inst := by
  rw [State.admSizes_rest]; rfl

theorem State.fn_admSizes_ne (s : State) {i j : BitVec 8} (v : BitVec 32) (h : j ≠ i) : (s.admSizes i v).fn j = s.fn j := by
  unfold State.admSizes
  split
  · rfl
  · exact (State.fn_setFn ..).trans (if_neg h)

/-- While RDY is 0 the sizes are stored unless EN is 1 already. -/
theorem State.fn_admSizes {s : State} {i : BitVec 8} (v : BitVec 32) (h : s.sq i 0 = none) :
    (s.admSizes i v).fn i = (s.fn i).sized v := by
  have notReady : s.admRdy i = false := by simp only [State.admRdy, h]; rfl
  cases enabled : (s.fn i).admEn
  · simp [State.admSizes, enabled, notReady, Fn.sized, State.modFn, State.fn_setFn]
  · simp [State.admSizes, enabled, Fn.sized]

/-- All that a write of EN = 1 can do: nothing, store the sizes, change its function besides, and make its two queues besides. -/
theorem State.admEnable_cases (s : State) (i : BitVec 8) (v : BitVec 32) :
    s.admEnable i v = s ∨ s.admEnable i v = s.admSizes i v ∨ (∃ f, s.admEnable i v = (s.admSizes i v).setFn i f) ∨
      ∃ f p q, s.admEnable i v = (((s.admSizes i v).setFn i f).setCq i 0 p).setSq i 0 q := by
  unfold State.admEnable
  dsimp only
  split
  · exact .inl rfl
  · split
    · exact .inr (.inl rfl)
    · split
      · exact .inr (.inr (.inl ⟨_, rfl⟩))
      · split
        · exact .inr (.inr (.inr ⟨_, _, _, rfl⟩))
        · exact .inr (.inr (.inl ⟨_, rfl⟩))

theorem State.admEnable_rest (s : State) (i : BitVec 8) (v : BitVec 32) : s.admEnable i v = { s with
    fns := (s.admEnable i v).fns
    rings := { s.rings with sqs := (s.admEnable i v).rings.sqs, cqs := (s.admEnable i v).rings.cqs } } := by
  rcases s.admEnable_cases i v with h | h | ⟨f, h⟩ | ⟨f, p, q, h⟩
  · rw [h]
  · rw [h, State.admSizes_rest]
  · rw [h, State.admSizes_rest]; rfl
  · rw [h, State.admSizes_rest]; rfl

theorem State.admEnable_queues_ne (s : State) {i j : BitVec 8} (v : BitVec 32) {k : BitVec 12} (other : j ≠ i ∨ k ≠ 0) :
    (s.admEnable i v).sq j k = s.sq j k ∧ (s.admEnable i v).cq j k = s.cq j k := by
  have ne : ¬(j = i ∧ k = 0) := fun ⟨hi, hk⟩ => other.elim (· hi) (· hk)
  rcases s.admEnable_cases i v with h | h | ⟨f, h⟩ | ⟨f, p, q, h⟩
  · rw [h]; exact ⟨rfl, rfl⟩
  · rw [h, State.admSizes_rest]; exact ⟨rfl, rfl⟩
  · rw [h, State.admSizes_rest]; exact ⟨rfl, rfl⟩
  · rw [h, State.sq_setSq, if_neg ne, State.cq_setSq, State.cq_setCq, if_neg ne, State.admSizes_rest]
    exact ⟨rfl, rfl⟩

theorem State.admEnable_fn_ne (s : State) {i j : BitVec 8} (v : BitVec 32) (other : j ≠ i) : (s.admEnable i v).fn j = s.fn j := by
  have set (f : Fn) : ((s.admSizes i v).setFn i f).fn j = s.fn j := by
    rw [State.fn_setFn, if_neg other, State.fn_admSizes_ne s v other]
  rcases s.admEnable_cases i v with h | h | ⟨f, h⟩ | ⟨f, p, q, h⟩
  · rw [h]
  · rw [h, State.fn_admSizes_ne s v other]
  · rw [h, set]
  · rw [h]; exact set f

section Enable

variable {s : State} {i : BitVec 8} {ctl : BitVec 32}

/-- The function whose admin queues are enabled, and the one whose sizes or bases do not allow it (21 R626). -/
def Fn.enabled (f : Fn) : Fn := { f with admEn := true, cfgErr := false, admSlot := 0, admReason := 0 }
def Fn.refused (f : Fn) : Fn := { f with admEn := false, cfgErr := true }

theorem Fn.admSound_iff (f : Fn) : f.admSound ↔
    (f.sqLog2 == 0 || f.sqLog2.toNat > 12 || f.cqLog2 == 0 || f.cqLog2.toNat > 12 || f.admSqBase == 0 || f.admCqBase == 0) = false := by
  have pos (b : BitVec 4) : 1 ≤ b.toNat ↔ ¬b = 0 := by
    rw [BitVec.toNat_eq]; simp; omega
  simp [Fn.admSound, pos, and_assoc]

variable (served : s.served i = true) (absent : s.sq i 0 = none) (exist : (s.inst i).st ≠ .absent)
include served absent exist

theorem State.admEnable_refused (unsound : ¬((s.fn i).sized ctl).admSound) :
    s.admEnable i ctl = (s.admSizes i ctl).setFn i ((s.fn i).sized ctl).refused := by
  rw [Fn.admSound_iff, Bool.not_eq_false] at unsound
  simp only [State.admEnable, State.admRdy, served, absent, exist, State.fn_admSizes ctl absent, unsound]
  rfl

theorem State.admEnable_enabled (sound : ((s.fn i).sized ctl).admSound) :
    s.admEnable i ctl =
      let u := (s.admSizes i ctl).setFn i ((s.fn i).sized ctl).enabled
      let f := (s.fn i).sized ctl
      if (s.inst i).st = .serving then
        (u.setCq i 0 (freshCq f.admCqBase none f.cqLog2.toNat 0 true)).setSq i 0 (freshSq f.admSqBase none f.sqLog2.toNat 0)
      else u := by
  rw [Fn.admSound_iff] at sound
  simp only [State.admEnable, State.admRdy, served, absent, exist, State.fn_admSizes ctl absent, sound]
  by_cases serving : (s.inst i).st = .serving <;> simp [serving, Fn.enabled]

omit absent exist in
/-- A write of EN = 0 stores the sizes where it may, and the admin SQ drains (03 R100). -/
theorem State.admDisable_eq {q : Sq} (hq : s.sq i 0 = some q) (unbatched : q.openBatch = none) :
    s.admDisable i ctl = ((s.admSizes i ctl).modFn i fun f => { f with admEn := false }).setSq i 0 (q.drained .disable) := by
  have there : ((s.admSizes i ctl).modFn i fun f => { f with admEn := false }).sq i 0 = some q := by
    rw [← hq, ← State.sq_admSizes s i ctl]; rfl
  simp only [State.admDisable, served, State.drainSq_eq .disable there unbatched]
  rfl

end Enable

/-- The admin queues of a disabled function go once nothing of them is outstanding (03 R100). -/
theorem execAdminQueueDelete_eq {s : State} {i : BitVec 8} {q : Sq} (hq : s.sq i 0 = some q) (drain : q.drain = some .disable) :
    execAdminQueueDelete i s = .next (if s.sqBusy i 0 then s else
      (((s.unwait (.sqFetch i 0)).unwait (.cqWrite i 0)).dropSq i 0).dropCq i 0) := by
  cases busy : s.sqBusy i 0 <;> simp only [execAdminQueueDelete, hq, drain, busy] <;> rfl

/-- Settles O36: each command by the lemma that says what it comes to. -/
theorem doorbellsAndTheAdminQueue : Obligations.DoorbellsAndTheAdminQueue := by
  unfold Obligations.DoorbellsAndTheAdminQueue
  intro s inst sqid cqid w value ctl
  dsimp only
  simp only [← State.serving_iff, Bool.not_eq_true]
  refine ⟨fun q hq => ⟨?_, ?_, ?_⟩, fun cq hcq => ⟨?_, ?_, ?_⟩, fun ready present => ⟨?_, ?_⟩, fun q hq drain => ⟨?_, ?_⟩⟩
  · intro serving active low
    rw [exec_sqDoorbell, execSqDoorbell, State.ringSq_eq hq low]
    simp [serving, active]
  · intro h
    rw [exec_sqDoorbell, execSqDoorbell]
    by_cases ignored : s.serving inst = false ∨ w = .high
    · rw [State.ringSq_ignored ignored]
    · obtain ⟨serving, low⟩ := not_or.mp ignored
      rw [State.ringSq_eq hq low]
      simp [(h.resolve_left serving).resolve_right low]
  · intro rate io
    exact ⟨_, (exec_fetchToken ..).trans (execFetchToken_eq hq rate io), rfl⟩
  · intro serving low
    rw [exec_cqHeadDoorbell, execCqHeadDoorbell, State.ringCq_eq hcq low serving rfl]
    rfl
  · intro h
    rw [exec_cqHeadDoorbell, execCqHeadDoorbell, State.ringCq_ignored h]
  · intro held d0
    rw [exec_cqStalled, execCqStalled_eq hcq held d0]
  · intro absent exist
    have served : s.served inst = true := by simp [State.served, State.ready, ready, present]
    refine ⟨_, exec_admCtrlEnable inst ctl s, fun unsound => ?_, fun sound => ?_, fun i k other => s.admEnable_queues_ne ctl other,
      fun i other => s.admEnable_fn_ne ctl other, s.admEnable_rest inst ctl⟩
    · rw [State.admEnable_refused served absent exist unsound]
      exact ⟨(State.fn_setFn ..).trans (if_pos rfl), (congrFun (congrFun (State.sq_admSizes s inst ctl) inst) 0).trans absent⟩
    · rw [State.admEnable_enabled served absent exist sound]
      dsimp only
      split
      · exact ⟨(State.fn_setFn ..).trans (if_pos rfl), fun _ =>
          ⟨⟨_, State.sq_setSq_self .., rfl, rfl, rfl, rfl, rfl, rfl, rfl⟩,
            _, State.cq_setCq_self .., rfl, rfl, rfl, rfl, rfl, rfl, rfl, rfl, rfl⟩⟩
      · exact ⟨(State.fn_setFn ..).trans (if_pos rfl), fun serving => absurd serving ‹_›⟩
  · intro q hq unbatched
    have served : s.served inst = true := by simp [State.served, State.ready, ready, present]
    refine ⟨_, (exec_admCtrlDisable inst ctl s).trans (congrArg Host.Outcome.next (State.admDisable_eq served hq unbatched)), ?_, State.sq_setSq_self ..,
      fun i k other => ?_, fun i other => ?_, ?_⟩
    · exact congrArg Fn.admEn ((State.fn_setFn ..).trans (if_pos rfl))
    · have ne : ¬(i = inst ∧ k = 0) := fun ⟨hi, hk⟩ => other.elim (· hi) (· hk)
      exact (State.sq_setSq ..).trans ((if_neg ne).trans (congrFun (congrFun (State.sq_admSizes s inst ctl) i) k))
    · exact (State.fn_setFn ..).trans ((if_neg other).trans (s.fn_admSizes_ne ctl other))
    · rw [State.admSizes_rest]; rfl
  · intro busy
    rw [exec_adminQueueDelete, execAdminQueueDelete_eq hq drain, busy]
    rfl
  · intro idle
    rw [exec_adminQueueDelete, execAdminQueueDelete_eq hq drain, idle]
    refine ⟨_, rfl, ?_, ?_, ?_⟩
    · simp only [Bool.false_eq_true, if_false]
      rw [State.unwait_rest (s.unwait _), State.unwait_rest s]; rfl
    · change ((s.unwait _).unwait _).waitsFor _ = false
      simp [State.waitsFor_unwait]
    · change ((s.unwait _).unwait _).waitsFor _ = false
      simp [State.waitsFor_unwait]

end Sys2Proof.Machine
end

section
/-! Fetching entries: the scan's turn, an entry that is not owned, one that is fetched, one that is malformed (03 R69, R72, R76, R77, R86,
R92-R94; 17 R512). -/

namespace Sys2Proof.Machine

/-! ### The scan's turn -/

theorem State.scanPending_iff (s : State) (i : BitVec 8) (k : BitVec 12) (q : Sq) :
    s.scanPending i k q = true ↔ s.mayFetch i k q = true ∧ (q.scanning = true ∨ q.scanDue = true) ∧
      ((s.inst i).fetchRate = 0 ∨ k = 0 ∨ q.tokens ≠ 0) := by
  simp [State.scanPending, and_assoc, or_assoc]

/-- R76: an SQ has its turn unless it has had it in this round and another that can be served has not. -/
theorem State.scanTurn_iff (s : State) (i : BitVec 8) (k : BitVec 12) : s.scanTurn i k = true ↔ ((i, k) ∉ s.rings.served ∨
    ¬∃ x, x ∈ s.rings.sqs ∧ x.1 ≠ (i, k) ∧ x.1 ∉ s.rings.served ∧ s.mayFetch x.1.1 x.1.2 x.2 = true ∧
      (x.2.scanning = true ∨ x.2.scanDue = true) ∧ ((s.inst x.1.1).fetchRate = 0 ∨ x.1.2 = 0 ∨ x.2.tokens ≠ 0)) := by
  rw [State.scanTurn, Bool.or_eq_true, Bool.not_eq_true', Bool.not_eq_true', List.contains_eq_mem, decide_eq_false_iff_not,
    ← Bool.not_eq_true, List.any_eq_true]
  simp only [Bool.and_eq_true, State.scanPending_iff, bne_iff_ne, List.contains_eq_mem, Bool.not_eq_true', decide_eq_false_iff_not,
    and_assoc]

theorem State.mem_served_takeTurn (s : State) (i : BitVec 8) (k : BitVec 12) : (i, k) ∈ (s.takeTurn i k).rings.served := by
  simp only [State.takeTurn]
  split <;> simp

/-! ### One entry of a scan -/

/-- The SQ while its scan goes on: a doorbell that came before the scan has been served, one that came during it has not (03 R73). -/
def Sq.scanned (q : Sq) : Sq := { q with scanning := true, scanDue := q.scanning && q.scanDue }

/-- The state after the read of the head slot. -/
def State.headRead (s : State) (i : BitVec 8) (k : BitVec 12) (q : Sq) : State :=
  ((s.takeTurn i k).setSq i k q.scanned).accessed i q.pasid (q.base + BitVec.ofNat 64 (64 * q.head)) 64 false

theorem Sq.scanned_eq (q : Sq) : (if q.scanning then q else { q with scanning := true, scanDue := false }) = q.scanned := by
  obtain ⟨_, _, _, _, _, _, _, _, _, scanning, _, _, _, _⟩ := q
  cases scanning <;> rfl

section Scan

variable {s : State} {i : BitVec 8} {k : BitVec 12} {q : Sq} {e : BitVec 512}

/-- What a scan over one entry comes to, by who owns the entry and whether it is well formed. -/
theorem execSqScan_eq (hq : s.sq i k = some q) (may : s.mayFetch i k q = true) (due : q.scanning = true ∨ q.scanDue = true)
    (turn : s.scanTurn i k = true) :
    exec (.sqScan i k [.entry e]) s = .next (
      if owned q e = false then (s.headRead i k q).setSq i k { q.scanned with scanning := false }
      else (s.malformed i k e).elim
        (if ((s.inst i).fetchRate != 0 && k != 0 && q.tokens == 0) = true then s.headRead i k q
          else (s.headRead i k q).fetchEntry i k q.scanned e)
        fun why => (s.headRead i k q).malformedEntry i k q.scanned e why) := by
  have pending : (s.mayFetch i k q && (q.scanning || q.scanDue) && s.scanTurn i k) = true := by
    simp only [may, turn, Bool.true_and, Bool.and_true, Bool.or_eq_true]; exact due
  have there : ((s.takeTurn i k).setSq i k q.scanned).sq i k = some q.scanned := State.sq_setSq_self ..
  have sameOwner : owned q.scanned e = owned q e := rfl
  have sameFault (pasid : Option (BitVec 20)) (a : BitVec 64) (n : Nat) (w : Bool) :
      (((s.takeTurn i k).setSq i k q.scanned).accessed i pasid a n w).malformed i k e = s.malformed i k e := rfl
  rw [exec_sqScan, execSqScan, hq]
  simp only [pending, if_true, Sq.scanned_eq, State.scan, there, sameOwner, sameFault]
  cases owned q e <;> cases s.malformed i k e <;> rfl

theorem execSqScan_of_not_turn (hq : s.sq i k = some q) (turn : s.scanTurn i k = false) (reads : List SqRead) :
    exec (.sqScan i k reads) s = .next s := by
  rw [exec_sqScan, execSqScan, hq]
  simp [turn]

end Scan

/-! ### An entry that is fetched -/

theorem State.joinBatch_rest (s : State) (i : BitVec 8) (k : BitVec 12) (q : Sq) (cid : BitVec 16) (nc close : Bool) :
    (s.joinBatch i k q cid nc close).1 = { s with rings := { s.rings with
      batches := (s.joinBatch i k q cid nc close).1.rings.batches, nextBatch := (s.joinBatch i k q cid nc close).1.rings.nextBatch } } := by
  unfold State.joinBatch
  dsimp only
  split
  · rfl
  · split <;> rfl

/-- An entry with neither NC nor BE joins no batch. -/
theorem State.joinBatch_none (s : State) (i : BitVec 8) (k : BitVec 12) (q : Sq) (cid : BitVec 16) :
    s.joinBatch i k q cid false false = (s, none) := rfl

@[simp] theorem State.batch?_setBatch_self (s : State) (b : Batch) : (s.setBatch b).batch? b.no = some b := by
  simp [State.batch?, State.setBatch]

/-- Any other joins one, which the entry with BE closes. -/
theorem State.joinBatch_some (s : State) (i : BitVec 8) (k : BitVec 12) (q : Sq) (cid : BitVec 16) {nc close : Bool}
    (joins : nc = true ∨ close = true) : ∃ n b, (s.joinBatch i k q cid nc close).2 = some n ∧
      (s.joinBatch i k q cid nc close).1.batch? n = some b ∧ cid ∈ b.members ∧ b.closed = close := by
  have some : (!nc && !close) = false := by rcases joins with rfl | rfl <;> simp
  simp only [State.joinBatch, some]
  exact ⟨_, _, rfl, State.batch?_setBatch_self _ _, by simp, rfl⟩

/-- The head of an SQ moves on by one slot, and its pass at the end of the ring (03 R69). -/
def Sq.advanced (q : Sq) : Sq :=
  { q with
    head := if q.head + 1 < 2 ^ q.log2 then q.head + 1 else 0
    pass := if q.head + 1 < 2 ^ q.log2 then q.pass else q.pass + 1 }

/-- The SQ after a fetch: the head has moved on, the open batch is that which the entry leaves, and a token is spent where
fetching is rated (17 R512). -/
def State.fetchedSq (s : State) (i : BitVec 8) (k : BitVec 12) (q : Sq) (e : BitVec 512) : Sq :=
  { q.advanced with
    openBatch := if e.getLsbD 2 then none
      else if e.getLsbD 1 then (s.joinBatch i k q (BitVec.ofNat 16 (ef e 2 2)) (e.getLsbD 1) (e.getLsbD 2)).2 else q.openBatch
    tokens := if (s.inst i).fetchRate != 0 && k != 0 then q.tokens - 1 else q.tokens }

/-- The tag under which an entry is outstanding. -/
def entryTag (i : BitVec 8) (k : BitVec 12) (e : BitVec 512) : Tag := ⟨i, k, BitVec.ofNat 16 (ef e 2 2)⟩

/-- The rings after an entry has been fetched: its SQ has moved on, its batch holds it, and it is the last command (03 R69, R86). -/
def State.queued (s : State) (i : BitVec 8) (k : BitVec 12) (q : Sq) (e : BitVec 512) : State :=
  let j := s.joinBatch i k q (BitVec.ofNat 16 (ef e 2 2)) (e.getLsbD 1) (e.getLsbD 2)
  { s with rings := { s.rings with
      sqs := s.rings.sqs.insert (i, k) (s.fetchedSq i k q e)
      cmds := s.rings.cmds ++ [(⟨entryTag i k e, e, .fetched, s.rings.nextCmd, s.time, j.2, none⟩ : Cmd)], nextCmd := s.rings.nextCmd + 1
      batches := j.1.rings.batches, nextBatch := j.1.rings.nextBatch } }

/-- What a fetch notes of a FLUSH, the writes it covers (04 R128), and of an FW_ACTIVATE, an activation in progress (20 R608). -/
def State.noted (s : State) (i : BitVec 8) (t : Tag) (op : Nat) : State :=
  { s with
    store := { s.store with flushes := if op = 0x4C then s.store.flushes.insert t (s.undurable i) else s.store.flushes }
    fw := { s.fw with late := if op = 0x11 ∧ s.fw.act ≠ none then t :: s.fw.late else s.fw.late } }

theorem State.noted_eq (s : State) (i : BitVec 8) (t : Tag) (op : Nat) :
    (if op = 0x4C then { s with store := { s.store with flushes := s.store.flushes.insert t (s.undurable i) } }
    else if op = 0x11 && s.fw.act.isSome then { s with fw := { s.fw with late := t :: s.fw.late } }
    else s) = s.noted i t op := by
  have late : (decide (op = 0x11) && s.fw.act.isSome) = decide (op = 0x11 ∧ s.fw.act ≠ none) := by
    cases s.fw.act <;> simp
  rw [State.noted, late]
  by_cases flush : op = 0x4C
  · simp [flush]
  · by_cases waits : op = 0x11 ∧ s.fw.act ≠ none
    · rw [if_neg flush, if_neg flush, if_pos (decide_eq_true waits), if_pos waits]
    · rw [if_neg flush, if_neg flush, if_neg (mt of_decide_eq_true waits), if_neg waits]

/-- The head of an SQ that moves on, as the model computes it. -/
theorem Sq.advanced_eq (q : Sq) : (if decide (q.size ≤ q.head + 1) = true then 0 else q.head + 1) = q.advanced.head ∧
    (if decide (q.size ≤ q.head + 1) = true then q.pass + 1 else q.pass) = q.advanced.pass := by
  by_cases inside : q.head + 1 < 2 ^ q.log2
  · have : decide (q.size ≤ q.head + 1) = false := decide_eq_false (Nat.not_le.mpr inside)
    simp [this, Sq.advanced, inside]
  · have : decide (q.size ≤ q.head + 1) = true := decide_eq_true (Nat.le_of_not_lt inside)
    simp [this, Sq.advanced, inside]

/-- A fetch queues the entry and takes its notes. -/
theorem State.fetchEntry_eq (s : State) (i : BitVec 8) (k : BitVec 12) (q : Sq) (e : BitVec 512) :
    s.fetchEntry i k q e = (s.queued i k q e).noted i (entryTag i k e) (ef e 1 1) := by
  have joined := s.joinBatch_rest i k q (BitVec.ofNat 16 (ef e 2 2)) (e.getLsbD 1) (e.getLsbD 2)
  rw [← State.noted_eq, State.fetchEntry, State.queued, State.fetchedSq]
  obtain ⟨head, pass⟩ := q.advanced_eq
  simp only [head, pass]
  generalize s.joinBatch i k q (BitVec.ofNat 16 (ef e 2 2)) (e.getLsbD 1) (e.getLsbD 2) = j at joined ⊢
  obtain ⟨u, b⟩ := j
  obtain ⟨batches, next, rfl⟩ : ∃ B N, u = { s with rings := { s.rings with batches := B, nextBatch := N } } := ⟨_, _, joined⟩
  rfl

/-- A well-formed entry's tag is not outstanding (03 R92). -/
theorem State.cmd?_of_sound {s : State} {i : BitVec 8} {k : BitVec 12} {e : BitVec 512} (h : s.malformed i k e = none) :
    s.cmd? (entryTag i k e) = none := by
  refine List.find?_eq_none.mpr fun c mem tag => ?_
  have used : (s.rings.cmds.any fun c => c.tag == ⟨i, k, BitVec.ofNat 16 (ef e 2 2)⟩) = true := List.any_eq_true.mpr ⟨c, mem, tag⟩
  simp only [State.malformed, used, if_true] at h
  repeat' split at h
  all_goals cases h

/-- The command that an entry becomes, with the batch that it joins. -/
def State.newCmd (s : State) (i : BitVec 8) (k : BitVec 12) (q : Sq) (e : BitVec 512) : Cmd :=
  ⟨entryTag i k e, e, .fetched, s.rings.nextCmd, s.time,
    (s.joinBatch i k q (BitVec.ofNat 16 (ef e 2 2)) (e.getLsbD 1) (e.getLsbD 2)).2, none⟩

theorem State.cmd?_queued {s : State} {i : BitVec 8} {k : BitVec 12} {e : BitVec 512} (q : Sq) (absent : s.cmd? (entryTag i k e) = none)
    (u : Tag) : (s.queued i k q e).cmd? u = if u = entryTag i k e then some (s.newCmd i k q e) else s.cmd? u := by
  change (s.rings.cmds ++ [s.newCmd i k q e]).find? (·.tag == u) = _
  rw [List.find?_append]
  change (s.cmd? u).or _ = _
  split
  · rename_i h; subst h; simp [absent, State.newCmd]
  · rename_i h; simp [State.newCmd, Ne.symm h]

theorem State.sq_queued (s : State) (i j : BitVec 8) (k r : BitVec 12) (q : Sq) (e : BitVec 512) :
    (s.queued i k q e).sq j r = if j = i ∧ r = k then some (s.fetchedSq i k q e) else s.sq j r :=
  State.sq_setSq s i j k r _

theorem State.sq_headRead_ne (s : State) {i j : BitVec 8} {k r : BitVec 12} (q : Sq) (other : j ≠ i ∨ r ≠ k) :
    (s.headRead i k q).sq j r = s.sq j r :=
  (State.sq_setSq (s.takeTurn i k) i j k r q.scanned).trans (if_neg fun ⟨hi, hk⟩ => other.elim (· hi) (· hk))

/-- The writes that a FLUSH covers (04 R128). -/
theorem State.mem_undurable (s : State) (i : BitVec 8) (n : Nat) : n ∈ s.undurable i ↔ ∃ w, w ∈ s.store.writes ∧ w.no = n ∧ w.inst = i ∧
    w.completed = true ∧ w.tag ≠ none ∧ ¬(w.localDurable = true ∧ w.partnerDurable = true) := by
  simp only [State.undurable, List.mem_map, List.mem_filter, Bool.and_eq_true, beq_iff_eq, Bool.not_eq_true', Option.isSome_iff_ne_none,
    ← Bool.not_eq_true]
  exact exists_congr fun w => ⟨fun ⟨⟨mem, ⟨⟨own, done⟩, tag⟩, pending⟩, no⟩ => ⟨mem, no, own, done, tag, pending⟩,
    fun ⟨mem, no, own, done, tag, pending⟩ => ⟨⟨mem, ⟨⟨own, done⟩, tag⟩, pending⟩, no⟩⟩

/-! ### A malformed entry -/

theorem State.batchCheck_rest (s : State) (n : Nat) : s.batchCheck n = { s with rings := { s.rings with
    cqs := (s.batchCheck n).rings.cqs, batches := (s.batchCheck n).rings.batches } } := by
  unfold State.batchCheck
  split
  · rfl
  · split
    · rw [State.pushCpl_rest]; rfl
    · rfl

/-- A batch that closes leaves its SQ without an open batch, and no other SQ and no turn differs. -/
theorem State.closeBatch_sqs {s : State} {i : BitVec 8} {k : BitVec 12} {q : Sq} (hq : s.sq i k = some q) :
    (s.closeBatch i k).sq i k = some { q with openBatch := none } ∧ (s.closeBatch i k).rings.served = s.rings.served := by
  cases h : q.openBatch with
  | none =>
    have same : { q with openBatch := none } = q := by rw [← h]
    rw [State.closeBatch_of_none hq h, same]
    exact ⟨hq, rfl⟩
  | some n =>
    simp only [State.closeBatch, hq, h]
    split
    · exact ⟨State.sq_setSq_self .., rfl⟩
    · rw [State.batchCheck_rest]
      exact ⟨State.sq_setSq_self .., rfl⟩

/-- The SQ as a malformed entry leaves it (03 R93). -/
def Sq.latched (q : Sq) (why : BitVec 4) : Sq :=
  { q with st := .error, scanDue := false, scanning := false, latchSlot := BitVec.ofNat 16 q.head, latchReason := why }

/-- The latch of a malformed entry, the admin queue's in its function's registers too. -/
def State.latch (s : State) (i : BitVec 8) (k : BitVec 12) (q : Sq) (why : BitVec 4) : State :=
  if k = 0 then (s.setSq i k (q.latched why)).modFn i fun f => { f with admSlot := BitVec.ofNat 16 q.head, admReason := why }
  else s.setSq i k (q.latched why)

theorem State.latch_rings (s : State) (i : BitVec 8) (k : BitVec 12) (q : Sq) (why : BitVec 4) :
    (s.latch i k q why).rings = (s.setSq i k (q.latched why)).rings := by
  unfold State.latch
  split <;> rfl

/-- The completion with which a malformed entry is reported (03 R94). -/
def malformedCpl (k : BitVec 12) (q : Sq) (e : BitVec 512) (why : BitVec 4) : Cpl :=
  { sqid := k, cid := BitVec.ofNat 16 (ef e 2 2), status := stQueueMalformed, result := BitVec.ofNat 64 (q.head + 65536 * why.toNat),
    batch := false, sqhead := some (BitVec.ofNat 16 q.head), covers := [], after := [] }

theorem State.malformedEntry_eq (s : State) (i : BitVec 8) (k : BitVec 12) (q : Sq) (e : BitVec 512) (why : BitVec 4) :
    s.malformedEntry i k q e why = ((s.latch i k q why).closeBatch i k).pushCpl i (malformedCpl k q e why) := rfl

section Malformed

variable (s : State) (i : BitVec 8) (k : BitVec 12) (q : Sq) (e : BitVec 512) (why : BitVec 4)

theorem State.sq_latch : (s.latch i k q why).sq i k = some (q.latched why) := by
  rw [State.sq, State.latch_rings]
  exact State.sq_setSq_self ..

/-- The SQ stays latched, and no turn differs. -/
theorem State.malformedEntry_sqs :
    (s.malformedEntry i k q e why).sq i k = some { q.latched why with openBatch := none } ∧
    (s.malformedEntry i k q e why).rings.served = s.rings.served := by
  obtain ⟨sq, served⟩ := State.closeBatch_sqs (s.sq_latch i k q why)
  rw [State.malformedEntry_eq, State.pushCpl_rest]
  exact ⟨sq, served.trans (by rw [State.latch_rings]; rfl)⟩

/-- Where no batch is open, the report is the last ready completion of the CQ. -/
theorem State.malformedEntry_cq {cq : Cq} (unbatched : q.openBatch = none) (hcq : s.cq i q.cqid = some cq) :
    (s.malformedEntry i k q e why).cq i q.cqid = some { cq with ready := cq.ready ++ [malformedCpl k q e why] } := by
  have latched := s.sq_latch i k q why
  have there : (s.latch i k q why).cq i (q.latched why).cqid = some cq := by
    rw [State.cq, State.latch_rings]; exact hcq
  rw [State.malformedEntry_eq, State.closeBatch_of_none latched unbatched, State.pushCpl_eq (x := malformedCpl k q e why) latched there]
  exact State.cq_setCq_self ..

end Malformed

end Sys2Proof.Machine
end

section
/-! Posting a completion: the bytes of its entry, the tags that end with it, and what follows (03 R67, R79, R83; 20 R587). -/

namespace Sys2Proof.Machine

/-! ### Bytes -/

@[simp] theorem length_leBytes (n v : Nat) : (leBytes n v).length = n := by
  induction n generalizing v with
  | zero => rfl
  | succ n ih => simp [leBytes, ih]

/-- A number's bytes spell it, as far as they reach. -/
theorem leNat_leBytes (n v : Nat) : leNat (leBytes n v) = v % 256 ^ n := by
  induction n generalizing v with
  | zero => simp [leBytes, leNat, Nat.mod_one]
  | succ n ih =>
    have power : 256 ^ (n + 1) = 256 * 256 ^ n := Nat.pow_succ'
    rw [leBytes, leNat, ih, BitVec.toNat_ofNat, power, Nat.mod_mul]

/-- The parts of a CQ entry (03 R79). -/
theorem cqEntry_parts (x : Cpl) (head : Nat) (phase : Bool) :
    (cqEntry x head phase).length = 16 ∧ leNat ((cqEntry x head phase).take 8) = x.result.toNat ∧
    leNat (((cqEntry x head phase).drop 8).take 2) = head % 65536 ∧
    leNat (((cqEntry x head phase).drop 10).take 2) = x.sqid.toNat + (if x.batch then 0x1000 else 0) ∧
    leNat (((cqEntry x head phase).drop 12).take 2) = x.cid.toNat ∧
    leNat ((cqEntry x head phase).drop 14) = x.status.toNat + (if phase then 0x8000 else 0) := by
  have result := x.result.isLt
  have sqid := x.sqid.isLt
  have cid := x.cid.isLt
  have status := x.status.isLt
  refine ⟨by simp [cqEntry], (leNat_leBytes 8 _).trans (Nat.mod_eq_of_lt result), leNat_leBytes 2 head,
    (leNat_leBytes 2 _).trans ?_, (leNat_leBytes 2 _).trans (Nat.mod_eq_of_lt cid), (leNat_leBytes 2 _).trans ?_⟩
  · cases x.batch <;> simp [Bool.asNat] <;> omega
  · cases phase <;> simp [Bool.asNat] <;> omega

/-! ### The write of an entry -/

/-- Bytes that end within their page go out as one write. -/
theorem requests_of_fits {a : BitVec 64} {bs : Bytes} (fuel : Nat) (h : bs.length ≤ 4096 - a.toNat % 4096) :
    requests (fuel + 1) a bs = [(a, bs)] := by
  rw [requests, if_pos h]

theorem State.sendRequests_rest (s : State) (i : BitVec 8) (pasid : Option (BitVec 20)) (a : BitVec 64) (bs : Bytes) (data : Bool) :
    s.sendRequests i pasid a bs data = { s with out := (s.sendRequests i pasid a bs data).out } := by
  unfold State.sendRequests forEach
  generalize requests _ a bs = l
  induction l generalizing s with
  | nil => rfl
  | cons e r ih => exact ih (s.emit _)

theorem State.sendOrdered_rest (s : State) (i : BitVec 8) (pasid : Option (BitVec 20)) (a : BitVec 64) (bs : Bytes) :
    s.sendOrdered i pasid a bs = { s with xlat := (s.sendOrdered i pasid a bs).xlat, out := (s.sendOrdered i pasid a bs).out } := by
  unfold State.sendOrdered
  dsimp only
  split
  · rw [State.sendRequests_rest]; rfl
  · rw [State.sendRequests_rest]

/-- An ordered write that ends within its page is one request without Relaxed Ordering (15 R448, R467). -/
theorem State.orderedWrite_sent (s : State) (i : BitVec 8) (pasid : Option (BitVec 20)) {a : BitVec 64} {bs : Bytes}
    (h : bs.length ≤ 4096 - a.toNat % 4096) :
    ∃ attr, Sent.hostWrite i pasid a bs attr ∈ (s.orderedWrite i pasid a bs).out ∧ attr.relaxed = false := by
  unfold State.orderedWrite State.sendOrdered State.sendRequests
  rw [requests_of_fits _ h]
  exact ⟨_, List.mem_cons_self, rfl⟩

theorem State.orderedWrite_rest (s : State) (i : BitVec 8) (pasid : Option (BitVec 20)) (a : BitVec 64) (bs : Bytes) :
    s.orderedWrite i pasid a bs = { s with xlat := (s.orderedWrite i pasid a bs).xlat, out := (s.orderedWrite i pasid a bs).out } := by
  unfold State.orderedWrite
  rw [State.sendOrdered_rest]
  rfl

/-! ### What has left the engine stays -/

theorem State.mem_out_messageDue {s : State} {x : Sent} (i : BitVec 8) (v : BitVec 11) (h : x ∈ s.out) : x ∈ (s.messageDue i v).out := by
  unfold State.messageDue
  dsimp only
  split
  · exact h
  · split
    · split
      · exact List.mem_cons_of_mem _ h
      · exact h
    · split
      · exact h
      · exact List.mem_cons_of_mem _ h

theorem State.mem_out_occur {s : State} {x : Sent} (i : BitVec 8) (v : BitVec 11) (h : x ∈ s.out) : x ∈ (s.occur i v).out := by
  unfold State.occur
  dsimp only
  split
  · exact h
  · split
    · exact State.mem_out_messageDue i v h
    · exact h

/-! ### The tags that end -/

theorem State.dropQuery_keeps (s : State) (t : Tag) :
    (s.dropQuery t).out = s.out ∧ (s.dropQuery t).insts = s.insts ∧ (s.dropQuery t).rings = s.rings := by
  unfold State.dropQuery State.gcSegs
  dsimp only
  exact ⟨State.unwait_out .., State.unwait_insts .., State.unwait_rings ..⟩

/-- The tags that a completion covers, and no other command, are gone, and with them what the queries among them held. -/
theorem State.endTags_rest (s : State) (i : BitVec 8) (k : BitVec 12) (cids : List (BitVec 16)) :
    (s.endTags i k cids).out = s.out ∧ (s.endTags i k cids).insts = s.insts ∧
    (s.endTags i k cids).rings =
      { s.rings with cmds := s.rings.cmds.filter fun c => decide (c.tag ∉ cids.map (Tag.mk i k)) } := by
  induction cids generalizing s with
  | nil =>
    have all : (s.rings.cmds.filter fun c => decide (c.tag ∉ ([] : List (BitVec 16)).map (Tag.mk i k))) = s.rings.cmds :=
      List.filter_eq_self.mpr fun _ _ => decide_eq_true List.not_mem_nil
    rw [all]
    exact ⟨rfl, rfl, rfl⟩
  | cons cid rest ih =>
    obtain ⟨u, next, out, insts, rings⟩ : ∃ u : State, s.endTags i k (cid :: rest) = u.endTags i k rest ∧ u.out = s.out ∧ u.insts = s.insts ∧
        u.rings = (s.dropCmds fun c => c.tag == ⟨i, k, cid⟩).rings := by
      refine ⟨_, rfl, ?_⟩
      dsimp only
      split
      · split
        · exact State.dropQuery_keeps _ _
        · exact ⟨rfl, rfl, rfl⟩
      · exact ⟨rfl, rfl, rfl⟩
    obtain ⟨outRest, instsRest, ringsRest⟩ := ih u
    rw [next, outRest, instsRest, ringsRest, out, insts, rings]
    refine ⟨rfl, rfl, ?_⟩
    simp only [State.dropCmds, List.filter_filter]
    congr 2
    funext c
    rw [Bool.eq_iff_iff]
    simp only [Bool.and_eq_true, Bool.not_eq_true', beq_eq_false_iff_ne, decide_eq_true_eq, List.map_cons, List.mem_cons, not_or, ne_eq,
      and_comm]

section EndTags

variable {s : State} {i : BitVec 8} {k : BitVec 12} {cids : List (BitVec 16)}

theorem State.cmd?_endTags (u : Tag) :
    (s.endTags i k cids).cmd? u = if u ∈ cids.map (Tag.mk i k) then none else s.cmd? u := by
  rw [State.cmd?, (s.endTags_rest i k cids).2.2, List.find?_filter]
  split
  · rename_i covered
    refine List.find?_eq_none.mpr fun c _ => ?_
    by_cases h : c.tag = u <;> simp_all
  · rename_i other
    refine congrArg (List.find? · s.rings.cmds) (funext fun c => ?_)
    by_cases h : c.tag = u
    · subst h; simpa using other
    · simp [h]

end EndTags

/-! ### What the completions that follow can change -/

/-- From one state to the next completions have become ready, and nothing of what has left the engine, no tag and no CQ's other parts
differ but that tags may have gone. -/
structure Reports (s t : State) : Prop where
  out  : t.out = s.out
  cmds : ∀ u, s.cmd? u = none → t.cmd? u = none
  cqs  : ∀ i k cq, s.cq i k = some cq → ∃ l, t.cq i k = some { cq with ready := cq.ready ++ l }

theorem Reports.of_eq {s t : State} (out : t.out = s.out) (cmds : t.rings.cmds = s.rings.cmds) (cqs : t.rings.cqs = s.rings.cqs) :
    Reports s t where
  out := out
  cmds := fun u h => by rw [State.cmd?, cmds]; exact h
  cqs := fun i k cq h => ⟨[], by rw [State.cq, cqs, List.append_nil]; exact h⟩

theorem Reports.trans {s t u : State} (h : Reports s t) (g : Reports t u) : Reports s u where
  out := g.out.trans h.out
  cmds := fun v none => g.cmds v (h.cmds v none)
  cqs := fun i k cq there => by
    obtain ⟨l, mid⟩ := h.cqs i k cq there
    obtain ⟨m, last⟩ := g.cqs i k _ mid
    exact ⟨l ++ m, by simpa using last⟩

theorem reports_pushCpl (s : State) (i : BitVec 8) (x : Cpl) : Reports s (s.pushCpl i x) where
  out := by rw [State.pushCpl_rest]
  cmds := fun u h => by rw [State.pushCpl_rest]; exact h
  cqs := fun _ _ _ h => State.pushCpl_grows i x h

theorem reports_batchCheck (s : State) (n : Nat) : Reports s (s.batchCheck n) := by
  unfold State.batchCheck
  split
  · exact .of_eq rfl rfl rfl
  · split
    · exact (Reports.of_eq (s := s) (t := s.dropBatch n) rfl rfl rfl).trans (reports_pushCpl ..)
    · exact .of_eq rfl rfl rfl

theorem reports_batchEntryDone (s : State) (n : Nat) (t : Tag) (status : BitVec 15) (result : BitVec 64) (after : List Tag) :
    Reports s (s.batchEntryDone n t status result after) := by
  have set (b : Batch) : Reports s (s.setBatch b) := .of_eq rfl rfl rfl
  unfold State.batchEntryDone
  split
  · exact reports_pushCpl ..
  · dsimp only
    split
    · exact (set _).trans (reports_batchCheck ..)
    · exact ((set _).trans (reports_pushCpl ..)).trans (reports_batchCheck ..)

theorem reports_finished (s : State) (t : Tag) : Reports s (s.modCmd t fun c => { c with stage := .finished }) where
  out := rfl
  cmds := fun u h => by rw [State.cmd?_finished, h]; simp
  cqs := fun _ _ cq h => ⟨[], by rw [List.append_nil]; exact h⟩

theorem reports_forget (s : State) (c : Cmd) : Reports s (s.forget c) := by
  obtain ⟨rings, out, -⟩ := s.forget_keeps c
  exact .of_eq out (by rw [rings]) (by rw [rings])

theorem reports_finishAfter (s : State) (t : Tag) (status : BitVec 15) (result : BitVec 64) (after : List Tag) :
    Reports s (s.finishAfter t status result after) := by
  unfold State.finishAfter
  split
  · exact .of_eq rfl rfl rfl
  · rename_i c _
    have marks := (reports_forget s c).trans (reports_finished _ t)
    split
    · exact .of_eq rfl rfl rfl
    · dsimp only
      split
      · exact marks.trans (reports_pushCpl ..)
      · exact marks.trans (reports_batchEntryDone ..)

theorem reports_unwait (s : State) (w : Waiter) : Reports s (s.unwait w) :=
  .of_eq (State.unwait_out ..) (by rw [State.unwait_rings]) (by rw [State.unwait_rings])

theorem reports_setSq (s : State) (i : BitVec 8) (k : BitVec 12) (q : Sq) : Reports s (s.setSq i k q) := .of_eq rfl rfl rfl
theorem reports_dropSq (s : State) (i : BitVec 8) (k : BitVec 12) : Reports s (s.dropSq i k) := .of_eq rfl rfl rfl
theorem reports_setInst (s : State) (i : BitVec 8) (v : Inst) : Reports s (s.setInst i v) := .of_eq rfl rfl rfl

theorem reports_drainCheck (s : State) (i : BitVec 8) (k : BitVec 12) : Reports s (s.drainCheck i k) := by
  have unwaits := reports_unwait s (.sqFetch i k)
  unfold State.drainCheck
  split
  · exact .of_eq rfl rfl rfl
  · split
    · split
      · exact (unwaits.trans (reports_setSq ..)).trans (reports_finishAfter ..)
      · exact (unwaits.trans (reports_dropSq ..)).trans (reports_finishAfter ..)
      · exact .of_eq rfl rfl rfl
    · exact .of_eq rfl rfl rfl

theorem reports_quiesceCheck (s : State) (i : BitVec 8) : Reports s (s.quiesceCheck i) := by
  unfold State.quiesceCheck
  dsimp only
  split
  · split
    · exact (reports_setInst ..).trans (reports_finishAfter ..)
    · exact .of_eq rfl rfl rfl
  · exact .of_eq rfl rfl rfl

/-! ### A completion that is written -/

/-- The CQ after an entry has been written into its next slot (03 R79, R83). -/
def Cq.posted (cq : Cq) (x : Cpl) : Cq :=
  { cq with
    tail := if cq.tail + 1 < 2 ^ cq.log2 then cq.tail + 1 else 0
    pass := if cq.tail + 1 < 2 ^ cq.log2 then cq.pass else cq.pass + 1
    unreturned := cq.unreturned + 1
    ready := cq.ready.erase x }

/-- The bytes of the entry. -/
def State.entryBytes (s : State) (i : BitVec 8) (cq : Cq) (x : Cpl) : Bytes :=
  cqEntry x (x.sqhead.elim (((s.sq i x.sqid).map (·.head)).getD 0) (·.toNat)) (decide (cq.pass % 2 = 0))

/-- The state after the write of a completion, the end of its tags and the occurrence on its vector. -/
def State.written (s : State) (i : BitVec 8) (k : BitVec 12) (cq : Cq) (x : Cpl) : State :=
  let u := ((s.setCq i k (cq.posted x)).orderedWrite i cq.pasid (cq.base + BitVec.ofNat 64 (16 * cq.tail)) (s.entryBytes i cq x)).endTags i
    x.sqid x.covers
  if cq.ien then u.occur i (cq.vector.setWidth 11) else u

theorem State.post_eq (s : State) (i : BitVec 8) (k : BitVec 12) (cq : Cq) (x : Cpl) :
    s.post i k cq x = ((s.written i k cq x).drainCheck i x.sqid).quiesceCheck i := by
  have moved : (if decide (cq.size ≤ cq.tail + 1) = true then 0 else cq.tail + 1) = (cq.posted x).tail ∧
      (if decide (cq.size ≤ cq.tail + 1) = true then cq.pass + 1 else cq.pass) = (cq.posted x).pass := by
    by_cases inside : cq.tail + 1 < 2 ^ cq.log2
    · have : decide (cq.size ≤ cq.tail + 1) = false := decide_eq_false (Nat.not_le.mpr inside)
      simp [this, Cq.posted, inside]
    · have : decide (cq.size ≤ cq.tail + 1) = true := decide_eq_true (Nat.le_of_not_lt inside)
      simp [this, Cq.posted, inside]
  obtain ⟨tail, pass⟩ := moved
  unfold State.post State.written State.entryBytes
  simp only [tail, pass]
  cases x.sqhead <;> rfl

section Written

variable (s : State) (i : BitVec 8) (k : BitVec 12) (cq : Cq) (x : Cpl)

theorem State.written_rest : (s.written i k cq x).insts = s.insts ∧ (s.written i k cq x).rings =
    { (s.setCq i k (cq.posted x)).rings with
      cmds := s.rings.cmds.filter fun c => decide (c.tag ∉ x.covers.map (Tag.mk i x.sqid)) } := by
  have occurs (u : State) (v : BitVec 11) : (u.occur i v).insts = u.insts ∧ (u.occur i v).rings = u.rings := by
    have only := State.occur_rest u i v
    rw [EventsOnly] at only
    rw [only]
    exact ⟨rfl, rfl⟩
  obtain ⟨-, insts, rings⟩ := ((s.setCq i k (cq.posted x)).orderedWrite i cq.pasid (cq.base + BitVec.ofNat 64 (16 * cq.tail))
    (s.entryBytes i cq x)).endTags_rest i x.sqid x.covers
  rw [State.orderedWrite_rest] at insts rings
  unfold State.written
  rw [State.orderedWrite_rest]
  dsimp only
  split
  · rw [(occurs _ _).1, (occurs _ _).2]
    exact ⟨insts, rings⟩
  · exact ⟨insts, rings⟩

theorem State.cq_written : (s.written i k cq x).cq i k = some (cq.posted x) := by
  rw [State.cq, (s.written_rest i k cq x).2]
  exact State.cq_setCq_self ..

theorem State.sqs_written : (s.written i k cq x).rings.sqs = s.rings.sqs := by
  rw [(s.written_rest i k cq x).2]; rfl

/-- The tags that the completion covers, and no others, are no longer outstanding (03 R67). -/
theorem State.cmd?_written (u : Tag) :
    (s.written i k cq x).cmd? u = if u ∈ x.covers.map (Tag.mk i x.sqid) then none else s.cmd? u := by
  rw [← State.cmd?_endTags, State.cmd?, State.cmd?, (s.written_rest i k cq x).2, (s.endTags_rest i x.sqid x.covers).2.2]

/-- The entry goes out as one ordered write: it does not cross a page, since its slot is a multiple of 16 bytes from a page's start. -/
theorem State.written_sent (aligned : cq.base.toNat % 4096 = 0) :
    ∃ a, Sent.hostWrite i cq.pasid (cq.base + BitVec.ofNat 64 (16 * cq.tail)) (s.entryBytes i cq x) a ∈ (s.written i k cq x).out ∧
      a.relaxed = false := by
  have fits : (s.entryBytes i cq x).length ≤ 4096 - (cq.base + BitVec.ofNat 64 (16 * cq.tail)).toNat % 4096 := by
    rw [State.entryBytes, (cqEntry_parts ..).1, BitVec.toNat_add, BitVec.toNat_ofNat]
    omega
  obtain ⟨a, sent, ordered⟩ := (s.setCq i k (cq.posted x)).orderedWrite_sent i cq.pasid fits
  rw [← (State.endTags_rest _ i x.sqid x.covers).1] at sent
  refine ⟨a, ?_, ordered⟩
  unfold State.written
  dsimp only
  split
  · exact State.mem_out_occur _ _ sent
  · exact sent

end Written

/-- Nothing drains while the SQ is not DRAINING, nor quiesces while its owner is SERVING. -/
theorem State.checks_of_serving {s : State} {i : BitVec 8} {k : BitVec 12} (serving : (s.inst i).st = .serving)
    (active : ∀ q, s.sq i k = some q → q.st ≠ .draining) : (s.drainCheck i k).quiesceCheck i = s := by
  have drain : s.drainCheck i k = s := by
    unfold State.drainCheck
    split
    · rfl
    · rename_i q hq
      simp [active q hq]
  simp [drain, State.quiesceCheck, serving]

theorem execCompletionPost_eq {s : State} {i : BitVec 8} {k : BitVec 12} {cq : Cq} {x : Cpl} {acc : HostAcc} (hcq : s.cq i k = some cq)
    (may : s.mayPost i = true) (room : cq.unreturned < 2 ^ cq.log2) (sound : cq.faulted = false)
    (free : s.waitsFor (.cqWrite i k) = false) (first : cq.ready.find? (s.postable i) = some x) (ok : s.accOf i acc = .ok) :
    exec (.completionPost i k acc) s = .next (((s.written i k cq x).drainCheck i x.sqid).quiesceCheck i) := by
  have notFull : cq.full = false := decide_eq_false (Nat.not_le.mpr room)
  rw [exec_completionPost, execCompletionPost, hcq]
  simp only [may, notFull, sound, free, first, ok, State.post_eq]
  rfl

end Sys2Proof.Machine
end

section
/-! A scan's entry and a completion's post, assembled. -/

namespace Sys2Proof.Machine

theorem owned_iff (q : Sq) (e : BitVec 512) : owned q e = true ↔
    ((e.getLsbD 0 = true ↔ q.pass % 2 = 0) ∧ ef e 4 2 = (q.pass * 2 ^ q.log2 + q.head) % 65536) := by
  rw [owned, Bool.and_eq_true, beq_iff_eq, beq_iff_eq, Bool.eq_iff_iff, decide_eq_true_eq]
  rfl

section Scan

variable {s : State} {i : BitVec 8} {k : BitVec 12} {q : Sq} {e : BitVec 512}

/-- A turn that is taken stays taken, whatever the entry. -/
theorem mem_served_of_scan (hq : s.sq i k = some q) (may : s.mayFetch i k q = true) (due : q.scanning = true ∨ q.scanDue = true)
    (turn : s.scanTurn i k = true) {new : State} (h : exec (.sqScan i k [.entry e]) s = .next new) : (i, k) ∈ new.rings.served := by
  have taken : (i, k) ∈ (s.headRead i k q).rings.served := s.mem_served_takeTurn i k
  rw [execSqScan_eq hq may due turn] at h
  obtain rfl := Host.Outcome.next.inj h
  split
  · exact taken
  · cases s.malformed i k e with
    | none =>
      simp only [Option.elim_none]
      split
      · exact taken
      · rw [State.fetchEntry_eq]; exact taken
    | some why => rw [Option.elim_some, (State.malformedEntry_sqs ..).2]; exact taken

theorem execSqScan_unowned (hq : s.sq i k = some q) (may : s.mayFetch i k q = true) (due : q.scanning = true ∨ q.scanDue = true)
    (turn : s.scanTurn i k = true) (mine : ¬owned q e = true) :
    exec (.sqScan i k [.entry e]) s = .next ((s.headRead i k q).setSq i k { q.scanned with scanning := false }) := by
  rw [execSqScan_eq hq may due turn, if_pos (by simpa using mine)]

theorem execSqScan_fetched (hq : s.sq i k = some q) (may : s.mayFetch i k q = true) (due : q.scanning = true ∨ q.scanDue = true)
    (turn : s.scanTurn i k = true) (mine : owned q e = true) (sound : s.malformed i k e = none)
    (token : (s.inst i).fetchRate = 0 ∨ k = 0 ∨ 0 < q.tokens) :
    exec (.sqScan i k [.entry e]) s =
      .next (((s.headRead i k q).queued i k q.scanned e).noted i (entryTag i k e) (ef e 1 1)) := by
  have spends : ¬((s.inst i).fetchRate != 0 && k != 0 && q.tokens == 0) = true := by
    simp only [Bool.and_eq_true, bne_iff_ne, beq_iff_eq]
    rintro ⟨⟨rate, io⟩, empty⟩
    exact Nat.ne_of_gt ((token.resolve_left rate).resolve_left io) empty
  rw [execSqScan_eq hq may due turn, if_neg (by simpa using mine), sound, Option.elim_none, if_neg spends, State.fetchEntry_eq]

theorem execSqScan_malformed (hq : s.sq i k = some q) (may : s.mayFetch i k q = true) (due : q.scanning = true ∨ q.scanDue = true)
    (turn : s.scanTurn i k = true) (mine : owned q e = true) {why : BitVec 4} (bad : s.malformed i k e = some why) :
    exec (.sqScan i k [.entry e]) s = .next ((s.headRead i k q).malformedEntry i k q.scanned e why) := by
  rw [execSqScan_eq hq may due turn, if_neg (by simpa using mine), bad, Option.elim_some]

/-- The batch that a fetched entry joins, if its NC or BE bit is set, and the batch that its SQ has open from then on (03 R86). -/
theorem State.fetched_batch (s : State) (i : BitVec 8) (k : BitVec 12) (q : Sq) (e : BitVec 512) :
    (e.getLsbD 1 = false → e.getLsbD 2 = false → (s.newCmd i k q e).batch = none ∧ (s.queued i k q e).rings.batches = s.rings.batches ∧
      (s.fetchedSq i k q e).openBatch = q.openBatch) ∧
    (e.getLsbD 1 = true ∨ e.getLsbD 2 = true → ∃ n b, (s.newCmd i k q e).batch = some n ∧ (s.queued i k q e).batch? n = some b ∧
      BitVec.ofNat 16 (ef e 2 2) ∈ b.members ∧ b.closed = e.getLsbD 2 ∧
      (s.fetchedSq i k q e).openBatch = if e.getLsbD 2 then none else some n) := by
  refine ⟨fun nc close => ?_, fun joins => ?_⟩
  · simp only [State.newCmd, State.queued, State.fetchedSq, nc, close, State.joinBatch_none, Bool.false_eq_true, if_false, and_self]
  · obtain ⟨n, b, no, batch, member, closed⟩ := s.joinBatch_some i k q (BitVec.ofNat 16 (ef e 2 2)) joins
    refine ⟨n, b, no, batch, member, closed, ?_⟩
    simp only [State.fetchedSq, no]
    split
    · rfl
    · rename_i notEnd
      rw [if_pos (joins.resolve_right notEnd)]

/-- A token is spent on an I/O queue whose owner has a fetch rate (17 R512). -/
theorem State.fetchedSq_tokens (s : State) (i : BitVec 8) (k : BitVec 12) (q : Sq) (e : BitVec 512) :
    (s.fetchedSq i k q e).tokens = if (s.inst i).fetchRate = 0 ∨ k = 0 then q.tokens else q.tokens - 1 := by
  simp only [State.fetchedSq, Bool.and_eq_true, bne_iff_ne, ne_eq, ← not_or, ite_not]

end Scan

/-- Settles O37: the scan by whose turn it is and what the head slot holds; the post by the state that the write leaves and the reports that
may follow it. -/
theorem entriesAreFetchedAndCompletionsPosted : Obligations.EntriesAreFetchedAndCompletionsPosted := by
  unfold Obligations.EntriesAreFetchedAndCompletionsPosted
  intro s inst sqid cqid e
  refine ⟨fun q hq may due => ?_, fun cq x acc hcq may room sound free first ok aligned => ?_⟩
  · dsimp only
    simp only [← State.scanTurn_iff]
    simp only [← owned_iff]
    refine ⟨fun turn => ?_, fun turn new => mem_served_of_scan hq may due turn, fun turn mine => ?_, fun turn mine wellFormed token => ?_,
      fun why turn mine bad => ?_⟩
    · exact execSqScan_of_not_turn hq (by simpa using turn) _
    · refine ⟨_, execSqScan_unowned hq may due turn mine, ?_⟩
      exact State.setSq_setSq ((s.takeTurn inst sqid).accessed inst q.pasid (q.base + BitVec.ofNat 64 (64 * q.head)) 64 false) ..
    · have cmds := State.cmd?_queued (s := s.headRead inst sqid q) q.scanned (State.cmd?_of_sound wellFormed)
      obtain ⟨single, joined⟩ := (s.headRead inst sqid q).fetched_batch inst sqid q.scanned e
      refine ⟨_, (s.headRead inst sqid q).newCmd inst sqid q.scanned e, (s.headRead inst sqid q).fetchedSq inst sqid q.scanned e,
        execSqScan_fetched hq may due turn mine wellFormed token, (cmds _).trans (if_pos rfl), rfl, rfl, rfl, rfl,
        fun u other => (cmds u).trans (if_neg other), rfl, rfl, (State.sq_queued ..).trans (if_pos ⟨rfl, rfl⟩), rfl, ?_,
        fun i k other => ?_, single, joined, fun notFlush => if_neg notFlush, fun flush => ⟨_, ?_, s.mem_undurable inst⟩, rfl, rfl⟩
      · exact State.fetchedSq_tokens ..
      · exact ((State.sq_queued ..).trans (if_neg fun ⟨hi, hk⟩ => other.elim (· hi) (· hk))).trans (s.sq_headRead_ne q other)
      · exact (congrArg (AMap.find? · _) (if_pos flush)).trans (AMap.find?_insert_self ..)
    · obtain ⟨sq, -⟩ := (s.headRead inst sqid q).malformedEntry_sqs inst sqid q.scanned e why
      exact ⟨_, _, execSqScan_malformed hq may due turn mine bad, sq, rfl, rfl, rfl, rfl, rfl, fun cq unbatched hcq =>
        ⟨_, State.malformedEntry_cq (s.headRead inst sqid q) inst sqid q.scanned e why unbatched hcq, rfl, rfl, rfl, rfl, rfl⟩⟩
  · have follow := (reports_drainCheck (s.written inst cqid cq x) inst x.sqid).trans (reports_quiesceCheck _ inst)
    obtain ⟨l, posted⟩ := follow.cqs _ _ _ (s.cq_written inst cqid cq x)
    obtain ⟨a, sent, ordered⟩ := s.written_sent inst cqid cq x aligned
    obtain ⟨length, result, head, sq, cid, status⟩ :=
      cqEntry_parts x (x.sqhead.elim (((s.sq inst x.sqid).map (·.head)).getD 0) (·.toNat)) (decide (cq.pass % 2 = 0))
    refine ⟨_, s.entryBytes inst cq x, _, a, execCompletionPost_eq hcq may room sound free first ok, follow.out ▸ sent, ordered, length,
      result, fun q none hq => ?_, fun h some => ?_, sq, cid, ?_, posted, rfl, rfl, rfl, rfl, fun cid covered => ?_,
      fun serving active => ?_⟩
    · rw [State.entryBytes]
      simpa [none, hq] using head
    · rw [State.entryBytes]
      simpa [some, Nat.mod_eq_of_lt (show h.toNat < 65536 from h.isLt)] using head
    · rw [State.entryBytes]
      simpa using status
    · exact follow.cmds _ ((s.cmd?_written inst cqid cq x _).trans (if_pos (List.mem_map_of_mem covered)))
    · obtain ⟨insts, -⟩ := s.written_rest inst cqid cq x
      have sqs := s.sqs_written inst cqid cq x
      have same : ((s.written inst cqid cq x).drainCheck inst x.sqid).quiesceCheck inst = s.written inst cqid cq x :=
        State.checks_of_serving (by rw [State.inst, insts]; exact serving) fun q hq => active q (by rw [State.sq, ← sqs]; exact hq)
      rw [same] at posted ⊢
      refine ⟨congrArg Cq.ready (Option.some.inj (posted.symm.trans (s.cq_written inst cqid cq x))), fun u other => ?_, sqs, insts⟩
      refine (s.cmd?_written inst cqid cq x u).trans (if_neg fun covered => ?_)
      obtain ⟨c, mem, rfl⟩ := List.mem_map.mp covered
      simp [mem] at other

end Sys2Proof.Machine
end

section
/-! The flaws of a stream: what an event leaves pending at the manager, and what stopping a query leaves of functions, streams and
queries (06 R196, R211-R213; 05 R168; 20 R583-R586). -/

namespace Sys2Proof.Machine

/-! ### Pending events -/

theorem State.evtPend_setVec (s : State) (i j : BitVec 8) (v : BitVec 11) (x : Vec) :
    ((s.setFn i ((s.fn i).setVec v x)).fn j).evtPend = (s.fn j).evtPend := by
  rw [State.fn_setFn]
  split
  · rename_i h; subst h; rfl
  · rfl

theorem State.evtPend_messageDue (s : State) (i j : BitVec 8) (v : BitVec 11) :
    ((s.messageDue i v).fn j).evtPend = (s.fn j).evtPend := by
  unfold State.messageDue
  dsimp only
  (repeat' split) <;> exact s.evtPend_setVec i j v _

theorem State.evtPend_occur (s : State) (i j : BitVec 8) (v : BitVec 11) : ((s.occur i v).fn j).evtPend = (s.fn j).evtPend := by
  unfold State.occur
  dsimp only
  split
  · rfl
  · split
    · rw [State.evtPend_messageDue, State.evtPend_setVec]
    · exact s.evtPend_setVec i j v _

/-- A record delivered sets its pending bit and clears none (20 R585). -/
theorem State.evtPend_deliver (s : State) (i j : BitVec 8) (r : EvRec) :
    ((s.deliver i r).fn j).evtPend = if j = i then (s.fn i).evtPend ||| (1#1024 <<< r.id.toNat) else (s.fn j).evtPend := by
  unfold State.deliver
  dsimp only
  split
  · rw [State.evtPend_occur, State.fn_setFn]; split <;> rfl
  · rw [State.fn_setFn]; split <;> rfl

theorem State.manager_deliverManager (s : State) (r : EvRec) : (s.deliverManager r).glb = s.glb := by
  rw [s.deliverManager_rest r]

theorem State.evtPend_deliverManager {s : State} {m : BitVec 8} (r : EvRec) (manager : s.glb.manager = some m) :
    ((s.deliverManager r).fn m).evtPend = (s.fn m).evtPend ||| (1#1024 <<< r.id.toNat) := by
  unfold State.deliverManager
  rw [manager]
  exact (s.evtPend_deliver m m r).trans (if_pos rfl)

/-- A device-scope event is pending at the manager's PF from then on (20 R583, R585). -/
theorem State.pending_raiseDevice {s : State} {m : BitVec 8} {id : Nat} (inst : BitVec 8) (d0 d1 : BitVec 64)
    (manager : s.glb.manager = some m) (known : id < 1024) : ((s.raiseDevice id inst d0 d1).fn m).evtPend.getLsbD id = true := by
  have first : ((s.deliverManager (s.record id inst d0 d1)).fn m).evtPend.getLsbD id = true := by
    have number : (BitVec.ofNat 16 id).toNat = id := by rw [BitVec.toNat_ofNat]; omega
    simp [State.evtPend_deliverManager _ manager, State.record, number, known]
  have again {u : State} (r : EvRec) (glb : u.glb = s.glb) (pending : (u.fn m).evtPend.getLsbD id = true) :
      ((u.deliverManager r).fn m).evtPend.getLsbD id = true := by
    rw [State.evtPend_deliverManager r (glb ▸ manager), BitVec.getLsbD_or, pending, Bool.true_or]
  unfold State.raiseDevice State.raiseDeviceX
  dsimp only
  split
  · split
    · exact again _ (State.manager_deliverManager ..) first
    · exact first
  · exact first

/-! ### What ending a query's work leaves alone -/

/-- What a query is in, and the status it stops with. -/
def State.stage? (s : State) (t : Tag) : Option (QState × BitVec 15) := (s.query? t).map fun q => (q.st, q.status)

/-- From one state to the next no function, no stream and no query's state or status differs. -/
structure Winds (s t : State) : Prop where
  fns : t.fns = s.fns
  streams : t.streams = s.streams
  stages : t.stage? = s.stage?

theorem Winds.of_eq {s t : State} (fns : t.fns = s.fns) (streams : t.streams = s.streams) (queries : t.queries = s.queries) :
    Winds s t := ⟨fns, streams, funext fun u => by rw [State.stage?, State.query?, queries]; rfl⟩

theorem Winds.trans {s t u : State} (h : Winds s t) (g : Winds t u) : Winds s u :=
  ⟨g.fns.trans h.fns, g.streams.trans h.streams, g.stages.trans h.stages⟩

theorem Winds.forEach {α : Type} {f : State → α → State} (h : ∀ s x, Winds s (f s x)) (l : List α) (s : State) :
    Winds s (forEach l s f) := by
  unfold Machine.forEach
  induction l generalizing s with
  | nil => exact .of_eq rfl rfl rfl
  | cons a r ih => exact (h s a).trans (ih _)

/-- A change of a query that keeps its tag is seen under its tag and under no other. -/
theorem State.query?_modQuery (s : State) (t u : Tag) (g : Query → Query) (keeps : ∀ q, (g q).tag = q.tag) :
    (s.modQuery t g).query? u = if u = t then (s.query? u).map g else s.query? u := by
  have same : ((fun q : Query => q.tag == u) ∘ fun q => if q.tag = t then g q else q) = fun q => q.tag == u := by
    funext q; dsimp only [Function.comp]; split <;> simp [keeps]
  unfold State.query? State.modQuery
  rw [List.find?_map, same]
  cases h : List.find? (fun q : Query => q.tag == u) s.queries with
  | none => simp
  | some q =>
    have hq : q.tag = u := by simpa using List.find?_some h
    by_cases hu : u = t <;> simp [hq, hu]

theorem winds_modQuery (s : State) (t : Tag) (g : Query → Query) (keeps : ∀ q, (g q).tag = q.tag ∧ (g q).st = q.st ∧ (g q).status = q.status) :
    Winds s (s.modQuery t g) where
  fns := rfl
  streams := rfl
  stages := funext fun u => by
    rw [State.stage?, s.query?_modQuery t u g fun q => (keeps q).1]
    split
    · simp [State.stage?, Function.comp_def, keeps]
    · rfl

theorem winds_addTotal (s : State) (t : Tag) (k : Nat) (counts : BitVec 64) : Winds s (s.addTotal t k counts) :=
  winds_modQuery _ _ _ fun _ => ⟨rfl, rfl, rfl⟩

theorem winds_modItem (s : State) (n : Nat) (g : Item → Item) : Winds s (s.modItem n g) := .of_eq rfl rfl rfl

theorem winds_endStall (s : State) (n : Nat) (least : BitVec 64) : Winds s (s.endStall n least) := by
  unfold State.endStall
  split
  · exact .of_eq rfl rfl rfl
  · split
    · exact .of_eq rfl rfl rfl
    · exact (winds_modItem s n _).trans (winds_addTotal ..)

theorem winds_closeTotals (s : State) (f : Item → Bool) : Winds s (s.closeTotals f) := by
  refine Winds.forEach (fun s i => ?_) _ s
  split
  · exact winds_addTotal ..
  · split
    · exact winds_addTotal ..
    · exact .of_eq rfl rfl rfl
  · exact winds_endStall ..
  · exact .of_eq rfl rfl rfl

theorem winds_removeItems (s : State) (f : Item → Bool) : Winds s (s.removeItems f) := .of_eq rfl rfl rfl

theorem winds_withdraw (s : State) (t : Tag) : Winds s (s.withdraw t) := (winds_closeTotals s _).trans (winds_removeItems _ _)

theorem winds_closeCascade (s : State) (t : Tag) : Winds s (s.closeCascade t) := by
  refine (Winds.forEach (fun s e => ?_) _ s).trans (.of_eq rfl rfl rfl)
  unfold State.sendLink
  split <;> exact .of_eq rfl rfl rfl

theorem winds_dropLeave (s : State) (t : Tag) : Winds s (s.dropLeave t) := .of_eq rfl rfl rfl

theorem winds_stopExchanges (s : State) (t : Tag) : Winds s (s.stopExchanges t) := by
  have node (s : State) (n : BitVec 16) (x : BitVec 32) (l : Bytes) : Winds s (s.sendNode n 0x22 x l) := by
    unfold State.sendNode
    (repeat' split) <;> exact .of_eq rfl rfl rfl
  refine Winds.forEach (fun s x => ?_) _ s
  split
  · refine Winds.forEach (fun s n => ?_) _ s
    split
    · exact .of_eq rfl rfl rfl
    · exact node ..
  · exact .of_eq rfl rfl rfl

theorem winds_emitCsw (s : State) (t : Tag) : Winds s (s.emitCsw t) := by
  unfold State.emitCsw
  split
  · exact .of_eq rfl rfl rfl
  · split
    · exact .of_eq rfl rfl rfl
    · split
      · exact winds_modQuery _ _ _ fun _ => ⟨rfl, rfl, rfl⟩
      · rw [State.orderedWrite_rest]; exact .of_eq rfl rfl rfl

theorem winds_pushCpl (s : State) (i : BitVec 8) (x : Cpl) : Winds s (s.pushCpl i x) := by
  rw [State.pushCpl_rest]; exact .of_eq rfl rfl rfl

theorem winds_batchEntryDone (s : State) (n : Nat) (t : Tag) (status : BitVec 15) (result : BitVec 64) (after : List Tag) :
    Winds s (s.batchEntryDone n t status result after) := by
  have check (u : State) : Winds u (u.batchCheck n) := by rw [State.batchCheck_rest]; exact .of_eq rfl rfl rfl
  have set (u : State) (b : Batch) : Winds u (u.setBatch b) := .of_eq rfl rfl rfl
  unfold State.batchEntryDone
  dsimp only
  split
  · exact winds_pushCpl ..
  · split
    · exact (set _ _).trans (check _)
    · exact ((set _ _).trans (winds_pushCpl ..)).trans (check _)

theorem winds_finish (s : State) (t : Tag) (status : BitVec 15) (result : BitVec 64) : Winds s (s.finish t status result) := by
  have forget (c : Cmd) : Winds s (s.forget c) := by
    unfold State.forget
    rw [State.unwait_rest]
    dsimp only
    (repeat' split) <;> exact .of_eq rfl rfl rfl
  unfold State.finish State.finishAfter
  split
  · exact .of_eq rfl rfl rfl
  · split
    · exact .of_eq rfl rfl rfl
    · rename_i c _ _
      have ended : Winds s ((s.forget c).modCmd t fun c => { c with stage := .finished }) :=
        (forget c).trans (.of_eq rfl rfl rfl)
      dsimp only
      split
      · exact ended.trans (winds_pushCpl ..)
      · exact ended.trans (winds_batchEntryDone ..)

theorem winds_completeQuery (s : State) (t : Tag) : Winds s (s.completeQuery t) := by
  unfold State.completeQuery
  split
  · split
    · exact winds_finish ..
    · exact .of_eq rfl rfl rfl
  · exact .of_eq rfl rfl rfl

/-! ### Stopping a query -/

theorem AMap.find?_filter_key {κ α : Type} [DecidableEq κ] (m : AMap κ α) {f : κ → Bool} {k : κ} (h : f k = false) :
    AMap.find? (List.filter (fun e : κ × α => f e.1) m) k = none := by
  induction m with
  | nil => rfl
  | cons e r ih =>
    obtain ⟨a, b⟩ := e
    cases keeps : f a
    · simpa [keeps] using ih
    · have other : a ≠ k := fun e => by rw [e, h] at keeps; cases keeps
      simpa [keeps, AMap.find?, other] using ih

/-- A query that enters DONE: its items are gone, and so are its streams, its spill and its flows. -/
def State.emptied (s : State) (t : Tag) (status : BitVec 15) : State :=
  let s := (s.closeTotals fun i => i.query == t).removeItems fun i => i.query == t
  let u := s.modQuery t fun q => { q with st := .done, status := status, finished := s.time, staged := 0, raw := none }
  { u with
    streams := u.streams.filter fun e => e.1.query != t
    ops := u.ops.mapVals fun k c => if k.1 = t then { c with spill := 0, lsUnits := 0 } else c
    disp := { u.disp with flows := u.disp.flows.filter fun e => e.1.1 != t } }

/-- What a query holds of the rest of the engine is free. -/
def State.freed (s : State) (t : Tag) : State := ((((s.closeCascade t).releasePods t).dropLeave t).dropExchanges t).dropQueryWaits t

theorem winds_freed (s : State) (t : Tag) : Winds s (s.freed t) := by
  have pods (u : State) : Winds u (u.releasePods t) := .of_eq rfl rfl rfl
  have exchanges (u : State) : Winds u (u.dropExchanges t) := .of_eq rfl rfl rfl
  have waits (u : State) : Winds u (u.dropQueryWaits t) := .of_eq rfl rfl rfl
  exact ((((winds_closeCascade s t).trans (pods _)).trans (winds_dropLeave _ t)).trans (exchanges _)).trans (waits _)

theorem State.queryClose_eq (s : State) (t : Tag) (status : BitVec 15) : ∃ v : AMap (BitVec 8) Inst,
    s.queryClose t status = { (s.emptied t status).freed t with insts := v } := by
  unfold State.queryClose
  dsimp only
  split <;> exact ⟨_, rfl⟩

/-- A query that enters DONE takes its streams with it, and no function changes (05 R168). -/
theorem State.queryClose_keeps (s : State) (t : Tag) (status : BitVec 15) :
    (s.queryClose t status).fns = s.fns ∧ ∀ x : StreamRef, x.query = t → (s.queryClose t status).stream? x = none := by
  have before : Winds s ((s.closeTotals fun i => i.query == t).removeItems fun i => i.query == t) :=
    (winds_closeTotals ..).trans (winds_removeItems ..)
  have after := winds_freed (s.emptied t status) t
  obtain ⟨v, eq⟩ := s.queryClose_eq t status
  rw [eq]
  refine ⟨after.fns.trans before.fns, fun x mine => (congrArg (AMap.find? · x) after.streams).trans ?_⟩
  exact AMap.find?_filter_key _ (f := fun k : StreamRef => k.query != t) (by simp [mine])

theorem State.queryDone_keeps (s : State) (t : Tag) (status : BitVec 15) :
    (s.queryDone t status).fns = s.fns ∧ ∀ x : StreamRef, x.query = t → (s.queryDone t status).stream? x = none := by
  obtain ⟨fns, gone⟩ := s.queryClose_keeps t status
  have report := (winds_emitCsw (s.queryClose t status) t).trans (winds_completeQuery _ t)
  exact ⟨report.fns.trans fns, fun x mine => (congrArg (AMap.find? · x) report.streams).trans (gone x mine)⟩

/-- What a running query is once an event stops it. -/
def Query.stopped (status : BitVec 15) (reason index : BitVec 16) (q : Query) : Query :=
  { q with st := .stopping, status := status, reason := reason, index := index }

/-- A query in RUNNING or PAUSED enters STOPPING with the status, and its work winds down (05 R168). -/
theorem State.stopQueryAt_running {s : State} {t : Tag} {q : Query} (status : BitVec 15) (reason index : BitVec 16)
    (found : s.query? t = some q) (serving : q.st = .running ∨ q.st = .paused) :
    Winds (s.modQuery t (Query.stopped status reason index)) (s.stopQueryAt t status reason index) := by
  have eq : s.stopQueryAt t status reason index =
      (((((s.modQuery t (Query.stopped status reason index)).withdraw t).closeCascade t).dropLeave t).stopExchanges t).emitCsw t := by
    simp only [State.stopQueryAt, found]
    rcases serving with h | h <;> (simp only [h]; rfl)
  rw [eq]
  exact ((((winds_withdraw _ t).trans (winds_closeCascade _ t)).trans (winds_dropLeave _ t)).trans (winds_stopExchanges _ t)).trans (winds_emitCsw _ t)

/-- Stopping a query changes no function; a stream of it stays as it was, or goes with it. -/
theorem State.stopQueryAt_keeps (s : State) (t : Tag) (status : BitVec 15) (reason index : BitVec 16) :
    (s.stopQueryAt t status reason index).fns = s.fns ∧ ∀ x : StreamRef, x.query = t →
      (s.stopQueryAt t status reason index).stream? x = s.stream? x ∨ (s.stopQueryAt t status reason index).stream? x = none := by
  have winding {q : Query} (found : s.query? t = some q) (serving : q.st = .running ∨ q.st = .paused) :=
    State.stopQueryAt_running status reason index found serving
  obtain ⟨fns, gone⟩ := State.queryDone_keeps (s.modQuery t fun q => { q with reason := reason, index := index }) t status
  cases found : s.query? t with
  | none => simp [State.stopQueryAt, found]
  | some q =>
    cases st : q.st with
    | running | paused =>
      have winds := winding found (by simp [st])
      exact ⟨winds.fns, fun x _ => .inl (congrArg (AMap.find? · x) winds.streams)⟩
    | validating | waiting =>
      simp only [State.stopQueryAt, found, st]
      exact ⟨fns, fun x mine => .inr (gone x mine)⟩
    | stopping | done => simp [State.stopQueryAt, found, st]

/-- A running query that an event stops is STOPPING with the event's status. -/
theorem State.stopQuery_status {s : State} {t : Tag} {q : Query} (status : BitVec 15) (found : s.query? t = some q)
    (running : q.st = .running) : ∃ p, (s.stopQuery t status).query? t = some p ∧ p.st = .stopping ∧ p.status = status := by
  have stage := congrFun (State.stopQueryAt_running status 0 0xFFFF found (.inl running)).stages t
  rw [State.stage?, State.stage?, State.query?_modQuery s t t (Query.stopped status 0 0xFFFF) fun _ => rfl, if_pos rfl, found] at stage
  obtain ⟨p, hp, same⟩ := Option.map_eq_some_iff.mp stage
  obtain ⟨st, status⟩ := Prod.mk.inj same
  exact ⟨p, hp, st, status⟩

end Sys2Proof.Machine
end

section
/-! Words of streams: commits and pops of an unframed stream, what a flaw ends in, and the units that offer and pop words (06 R197-R206, R209-R214). -/

namespace Sys2Proof.Machine

@[simp] theorem State.stream?_setStream_self (s : State) (x : StreamRef) (st : Stream) : (s.setStream x st).stream? x = some st :=
  AMap.find?_insert_self ..

/-! ### The head and the words of a stream -/

/-- The word that comes next lies in the head exactly when it is not in the middle (R201, R203). -/
theorem Stream.inHead_rp (st : Stream) : st.inHead st.rp = decide (st.rp ∉ st.inMiddle) := by
  have later (p : BitVec 32) : 0 < (p - st.rp).toNat ↔ p ≠ st.rp := by
    constructor <;> intro h <;> bv_omega
  rw [Bool.eq_iff_iff]
  simp only [Stream.inHead, BitVec.sub_self, BitVec.toNat_zero, Nat.zero_lt_succ, decide_true, Bool.true_and, List.all_eq_true,
    decide_eq_true_eq, later]
  exact ⟨fun h mem => h _ mem rfl, fun h p mem e => h (e ▸ mem)⟩

/-- A word reads as it was committed, without an error (R209, R211). -/
theorem StreamWord.of_sound (w : BitVec 512) (vb : BitVec 7) : (StreamWord.of w vb).sound = true := by
  simp [StreamWord.sound, StreamWord.of]

theorem execHeadRefill_of_inHead {s : State} {x : StreamRef} {st : Stream} (found : s.stream? x = some st)
    (full : ∃ e, e ∈ st.words ∧ st.inHead e.1 = true) : exec (.headRefill x) s = .next s := by
  have any : (st.words.any fun e => st.inHead e.1) = true := List.any_eq_true.mpr full
  simp only [exec_headRefill, execHeadRefill, found, any, if_true]

theorem execHeadRefill_of_empty {s : State} {x : StreamRef} {st : Stream} (found : s.stream? x = some st)
    (empty : ∀ e, e ∈ st.words → st.inHead e.1 = false) : exec (.headRefill x) s =
      .next (s.setStream x { st with inMiddle := st.inMiddle.filter fun p => 16 ≤ (p - st.rp).toNat }) := by
  have any : ¬(st.words.any fun e => st.inHead e.1) = true := by simpa using fun a b mem => empty (a, b) mem
  simp only [exec_headRefill, execHeadRefill, found, if_neg any]

/-! ### Commits -/

/-- A word that comes to its position changes the words, and what lies in the middle. -/
theorem Stream.put_rest (st : Stream) (p : BitVec 32) (w : BitVec 512) (vb : BitVec 7) :
    st.put p w vb = { st with words := AMap.insert st.words p (StreamWord.of w vb), inMiddle := (st.put p w vb).inMiddle } := by
  unfold Stream.put
  dsimp only
  split <;> rfl

/-- An unframed stream once a word of an item has landed: both copies of WP move, and the item holds the stream (R189, R212). -/
def Stream.landed (st : Stream) (n : Nat) (w : BitVec 512) (vb : BitVec 7) : Stream :=
  { ({ st with wp := st.wp + 1, wp2 := st.wp2 + 1 } : Stream).put st.wp w vb with holder := some n }

/-- RP and the capacity stay as they are, and the word stands where WP was. -/
theorem Stream.landed_keeps (st : Stream) (n : Nat) (w : BitVec 512) (vb : BitVec 7) : st.landed n w vb =
    { st with wp := st.wp + 1, wp2 := st.wp2 + 1, words := AMap.insert st.words st.wp (StreamWord.of w vb), holder := some n,
              inMiddle := (st.landed n w vb).inMiddle } := by
  unfold Stream.landed
  rw [Stream.put_rest]

section Commits

variable {s : State} {x : StreamRef} {st : Stream} {n : Nat}

/-- A commit to an unframed stream that the item may write to: it lands within the capacity, where the copies of WP agree; else it is
refused, and the middle takes a further page where it may (R204, R205, R212). -/
theorem State.commitWord_eq (word : BitVec 512) (vb : BitVec 7) (found : s.stream? x = some st) (plain : st.framed = false)
    (works : st.st ≠ .failed) (kept : st.discard = false) (mine : st.holder = none ∨ st.holder = some n) :
    s.commitWord x n word vb = if (st.wp - st.rp).toNat < 32 + 1024 * st.pages then
      if st.wp = st.wp2 then (s.setStream x (st.landed n word vb), .landed) else (s.pointerMismatch x, .aborted)
    else (s.setStream x (s.growMiddle x st), .refused) := by
  have free : st.holder.any (· != n) = false := by rcases mine with h | h <;> simp [h]
  have copies : st.wp + 1 = st.wp2 + 1 ↔ st.wp = st.wp2 := by constructor <;> intro h <;> bv_omega
  have place : st.allocate n word vb = (st.wp, { st with wp := st.wp + 1, wp2 := st.wp2 + 1 }) := by simp [Stream.allocate, plain]
  have grown : s.grow x = s.setStream x (s.growMiddle x st) := by simp only [State.grow, found]
  have fits : st.fits st.wp = decide ((st.wp - st.rp).toNat < 32 + 1024 * st.pages) := rfl
  unfold State.commitWord
  rw [found]
  dsimp only
  rw [if_neg works, if_neg (by simp [kept]), if_neg (by simp [plain, free]), place, grown]
  by_cases room : (st.wp - st.rp).toNat < 32 + 1024 * st.pages
  · rw [if_pos room, if_neg (by rw [fits, decide_eq_true room]; decide)]
    by_cases same : st.wp = st.wp2
    · rw [if_pos same, if_neg (fun differ => differ (copies.mpr same)), if_neg (by simp [plain])]
      rfl
    · rw [if_neg same, if_pos (mt copies.mp same)]
  · rw [if_neg room, if_pos (by rw [fits, decide_eq_false room]; rfl)]

theorem State.commitWord_of_holder {h : Nat} (word : BitVec 512) (vb : BitVec 7) (found : s.stream? x = some st) (plain : st.framed = false)
    (works : st.st ≠ .failed) (kept : st.discard = false) (held : st.holder = some h) (other : h ≠ n) :
    s.commitWord x n word vb = (s, .refused) := by
  simp [State.commitWord, found, works, kept, plain, held, other]

theorem State.commitWord_of_failed (word : BitVec 512) (vb : BitVec 7) (found : s.stream? x = some st) (failed : st.st = .failed) :
    s.commitWord x n word vb = (s, .aborted) := by
  simp [State.commitWord, found, failed]

end Commits

/-! ### Pops -/

theorem Stream.popView_of_empty {st : Stream} (n : Nat) (plain : st.framed = false) (works : st.st ≠ .failed) (flows : st.gated = false)
    (empty : st.rp = st.wp) : st.popView n = if st.st = .ended ∧ st.words = [] then .ended else .empty := by
  simp [Stream.popView, plain, works, flows, empty]

/-- The word at RP is given where it is in the head without an error; else it stalls the pop (R206, R211). -/
theorem Stream.popView_of_word {st : Stream} {e : StreamWord} (n : Nat) (plain : st.framed = false) (works : st.st ≠ .failed)
    (flows : st.gated = false) (more : st.rp ≠ st.wp) (next : AMap.find? st.words st.rp = some e) :
    st.popView n = if st.rp ∉ st.inMiddle ∧ e.sound = true then .word e.bits e.vb else .stall := by
  simp [Stream.popView, plain, works, flows, more, next, Stream.inHead_rp]

theorem Stream.popped_of_plain {st : Stream} (n : Nat) (plain : st.framed = false) :
    st.popped n = { st with words := AMap.erase st.words st.rp, rp := st.rp + 1, rp2 := st.rp2 + 1 } := by
  simp [Stream.popped, plain]

/-! ### Flaws -/

/-- The event of a flaw, which names the stream (R211, R213). -/
def State.flawRaised (s : State) (x : StreamRef) (id : Nat) : State :=
  s.raiseDevice id x.query.inst (s.streamD0 x.query) (x.idx.setWidth 64)

/-- The event of a flaw, and the end of the stream's query with INTEGRITY (R211, R213). -/
def State.flawed (s : State) (x : StreamRef) (id : Nat) : State := (s.flawRaised x id).stopQuery x.query stIntegrity

theorem State.flawRaised_keeps (s : State) (x : StreamRef) (id : Nat) :
    (s.flawRaised x id).query? = s.query? ∧ (s.flawRaised x id).streams = s.streams := by
  have rest := s.raiseDevice_rest id x.query.inst (s.streamD0 x.query) (x.idx.setWidth 64)
  rw [State.flawRaised, rest]
  exact ⟨rfl, rfl⟩

/-- The event is pending at the manager's PF, and a running query stops with INTEGRITY. -/
theorem State.flawed_lost (s : State) (x : StreamRef) {id : Nat} (known : id < 1024) :
    (∀ m, s.glb.manager = some m → ((s.flawed x id).fn m).evtPend.getLsbD id = true) ∧
    ∀ q, s.query? x.query = some q → q.st = .running →
      ∃ p, (s.flawed x id).query? x.query = some p ∧ p.st = .stopping ∧ p.status = stIntegrity := by
  obtain ⟨queries, -⟩ := s.flawRaised_keeps x id
  obtain ⟨fns, -⟩ := (s.flawRaised x id).stopQueryAt_keeps x.query stIntegrity 0 0xFFFF
  refine ⟨fun m manager => ?_, fun q found running => State.stopQuery_status _ (queries ▸ found) running⟩
  rw [State.fn, State.flawed, State.stopQuery, fns]
  exact State.pending_raiseDevice _ _ _ manager known

/-- The stream stays as it was, or goes with its query. -/
theorem State.flawed_stream? (s : State) (x : StreamRef) (id : Nat) :
    (s.flawed x id).stream? x = s.stream? x ∨ (s.flawed x id).stream? x = none := by
  have same : (s.flawRaised x id).stream? x = s.stream? x := congrArg (AMap.find? · x) (s.flawRaised_keeps x id).2
  exact same ▸ ((s.flawRaised x id).stopQueryAt_keeps x.query stIntegrity 0 0xFFFF).2 x rfl

/-- A stream of a running query stays while the query stops. -/
theorem State.flawed_stream?_of_running {s : State} {x : StreamRef} {q : Query} (id : Nat) (found : s.query? x.query = some q)
    (running : q.st = .running) : (s.flawed x id).stream? x = s.stream? x := by
  obtain ⟨queries, streams⟩ := s.flawRaised_keeps x id
  have winds := State.stopQueryAt_running (s := s.flawRaised x id) stIntegrity 0 0xFFFF (queries ▸ found) (.inl running)
  exact congrArg (AMap.find? · x) (winds.streams.trans streams)

/-- A stream whose copies of a pointer disagree: reset and FAILED (R213). -/
def Stream.failed (st : Stream) : Stream :=
  { st with
    wp := 0, rp := 0, wp2 := 0, rp2 := 0, words := [], inMiddle := [], frames := [], opens := [], reads := [], holder := none, st := .failed }

theorem State.pointerMismatch_eq {s : State} {x : StreamRef} {st : Stream} (found : s.stream? x = some st) :
    s.pointerMismatch x = (s.setStream x st.failed).flawed x 321 := by
  simp only [State.pointerMismatch, found]
  rfl

/-- Such a stream, where it is still there, holds nothing and has failed. -/
theorem State.pointerMismatch_stream? {s : State} {x : StreamRef} {st u : Stream} (found : s.stream? x = some st)
    (after : (s.pointerMismatch x).stream? x = some u) : u = st.failed := by
  rw [State.pointerMismatch_eq found] at after
  rcases (s.setStream x st.failed).flawed_stream? x 321 with same | gone
  · rw [same, State.stream?_setStream_self] at after
    exact (Option.some.inj after).symm
  · rw [gone] at after
    cases after

theorem State.pointerMismatch_lost {s : State} {x : StreamRef} {st : Stream} (found : s.stream? x = some st) :
    (∀ m, s.glb.manager = some m → ((s.pointerMismatch x).fn m).evtPend.getLsbD 321 = true) ∧
    ∀ q, s.query? x.query = some q → q.st = .running →
      ∃ p, (s.pointerMismatch x).query? x.query = some p ∧ p.st = .stopping ∧ p.status = stIntegrity := by
  rw [State.pointerMismatch_eq found]
  exact (s.setStream x st.failed).flawed_lost x (by decide)

/-- A state in which the word that an item pops next has an error, if there is its stream (R211). -/
def State.spoiled (s : State) (x : StreamRef) (n : Nat) : State :=
  match s.stream? x with
  | some st => s.setStream x (st.spoil (match (if st.framed then st.frameFor n else none) with
      | some f => f.start + BitVec.ofNat 32 f.popped
      | none => st.rp))
  | none => s

theorem State.wordLost_eq (s : State) (x : StreamRef) (n : Nat) : s.wordLost x n = (s.spoiled x n).flawed x 320 := rfl

theorem State.spoiled_keeps (s : State) (x : StreamRef) (n : Nat) :
    (s.spoiled x n).glb = s.glb ∧ (s.spoiled x n).query? = s.query? := by
  unfold State.spoiled
  split <;> exact ⟨rfl, rfl⟩

theorem State.wordLost_lost (s : State) (x : StreamRef) (n : Nat) :
    (∀ m, s.glb.manager = some m → ((s.wordLost x n).fn m).evtPend.getLsbD 320 = true) ∧
    ∀ q, s.query? x.query = some q → q.st = .running →
      ∃ p, (s.wordLost x n).query? x.query = some p ∧ p.st = .stopping ∧ p.status = stIntegrity := by
  obtain ⟨glb, queries⟩ := s.spoiled_keeps x n
  have lost := (s.spoiled x n).flawed_lost x (id := 320) (by decide)
  rwa [glb, queries, ← State.wordLost_eq] at lost

theorem State.stream?_spoiled {s : State} {x : StreamRef} {st : Stream} (n : Nat) (found : s.stream? x = some st) (plain : st.framed = false) :
    (s.spoiled x n).stream? x = some (st.spoil st.rp) := by
  simp [State.spoiled, found, plain]

theorem AMap.find?_mapVals {κ α : Type} [DecidableEq κ] (m : AMap κ α) (f : κ → α → α) (k : κ) :
    AMap.find? (AMap.mapVals m f) k = (AMap.find? m k).map (f k) := by
  induction m with
  | nil => rfl
  | cons e r ih =>
    obtain ⟨a, b⟩ := e
    by_cases h : a = k
    · simp [AMap.mapVals, AMap.find?, h]
    · simpa [AMap.mapVals, AMap.find?, h] using ih

/-- A word with an error is withheld from then on (R211). -/
theorem Stream.popView_spoil {st : Stream} (n : Nat) (plain : st.framed = false) (works : st.st ≠ .failed) (flows : st.gated = false)
    (more : st.rp ≠ st.wp) (next : (AMap.find? st.words st.rp).isSome = true) : (st.spoil st.rp).popView n = .stall := by
  obtain ⟨e, next⟩ := Option.isSome_iff_exists.mp next
  have spoilt : AMap.find? (st.spoil st.rp).words (st.spoil st.rp).rp = some { e with par := !(vbParity e.vb) } := by
    simp [Stream.spoil, AMap.find?_mapVals, next]
  rw [Stream.popView_of_word (st := st.spoil st.rp) n plain works flows more spoilt, if_neg]
  simp [StreamWord.sound]

theorem State.wordLost_withholds {s : State} {x : StreamRef} {st : Stream} {q : Query} (n : Nat) (found : s.stream? x = some st)
    (plain : st.framed = false) (works : st.st ≠ .failed) (flows : st.gated = false) (more : st.rp ≠ st.wp)
    (next : (AMap.find? st.words st.rp).isSome = true) (named : s.query? x.query = some q) (running : q.st = .running) :
    ∃ u, (s.wordLost x n).stream? x = some u ∧ u.popView n = .stall := by
  have same : (s.spoiled x n).query? x.query = some q := by rw [(s.spoiled_keeps x n).2, named]
  refine ⟨st.spoil st.rp, ?_, Stream.popView_spoil n plain works flows more next⟩
  rw [State.wordLost_eq, State.flawed_stream?_of_running 320 same running, State.stream?_spoiled n found plain]

end Sys2Proof.Machine
end

section
/-! The units that offer and pop words of streams, and the settling of commits and pops (06 R196-R206, R209-R214). -/

namespace Sys2Proof.Machine

/-! ### A unit's commit -/

section Commit

variable {s : State} {r : Runner} {i : Item} {q : Query} {im : Image} {o : OpDesc} {c : OpCtx}

/-- What an item and its query are once a word that it offered has landed (R198; 09 R330). -/
def State.offered (s : State) (q : Query) (o : OpDesc) (i : Item) (w : OutWord) (rest : List OutWord) : State :=
  let u := (s.modItem i.id fun j => { j with
    outq := rest, progress := w.progress.getD j.progress, opstate := w.opstate.getD j.opstate }).endStall i.id 0
  let v := if o.code = 0x3A then u.unionLeft q i else u
  (if rest = [] then v.parkDue q i else v).settle q.tag

theorem execWordCommit_pointer {x : StreamRef} {w : OutWord} {rest : List OutWord} (served : s.service r = some (i, q, im, o, c))
    (offers : i.outq = w :: rest) (out : State.outRef q o w.port = some x) :
    exec (.wordCommit r .pointer) s = .next (s.pointerMismatch x) := by
  simp only [exec_wordCommit, execWordCommit, served, offers, out, if_true]

theorem execWordCommit_eq {x : StreamRef} {w : OutWord} {rest : List OutWord} {flaw : StreamFlaw}
    (served : s.service r = some (i, q, im, o, c)) (offers : i.outq = w :: rest) (out : State.outRef q o w.port = some x)
    (sound : flaw ≠ .pointer) :
    exec (.wordCommit r flaw) s = .next (if (s.commitWord x i.id w.word 64).2 = .landed then
      (s.commitWord x i.id w.word 64).1.offered q o i w rest else (s.commitWord x i.id w.word 64).1.stallItem i.id) := by
  simp only [exec_wordCommit, execWordCommit, served, offers, out, sound, if_false, State.offered, List.isEmpty_iff, opUnion]
  split <;> rfl

/-- A SCAN that offers no word makes its next group (R198; 08 R261). -/
theorem execWordCommit_scan {flaw : StreamFlaw} (served : s.service r = some (i, q, im, o, c)) (idle : i.outq = [])
    (scan : o.code = 0x01) : exec (.wordCommit r flaw) s = .next (if i.progress < i.count then s.scanFill q im o i else s) := by
  have merge : o.mergePart c i = none := by simp [OpDesc.mergePart, scan, opAggHash, opAggScalar, opSketch]
  have pair : s.pairDue q im o c i = none := by simp [State.pairDue, scan, opProbe]
  have runs : o.mergesRuns c i = false := by simp [OpDesc.mergesRuns, scan, opSort]
  simp only [exec_wordCommit, execWordCommit, served, idle, merge, pair, runs, scan, opCompute, opScan]
  by_cases more : i.progress < i.count <;> simp [more]

end Commit

/-! ### A unit's pop -/

/-- An item popped a word of a frame: its bytes follow those before it, and the frame's first word says the rows (R196, R199). -/
def Item.took (i : Item) (o : OpDesc) (st : Stream) (port : BitVec 3) (bs : Bytes) : Item :=
  { i with
    inFrame := AMap.insert i.inFrame port bs
    origin := if i.claims.isEmpty && i.startRows = 0 then BitVec.ofNat 64 (((st.frameFor i.id).map (·.origin)).getD 0) else i.origin
    count := if (AMap.get i.inFrame port []).isEmpty && o.code != opCompress then i.startRows + hdrRows bs else i.count
    claims := AMap.insert i.claims port (((st.frameFor i.id).map (·.start)).getD 0, bs.length / 64) }

theorem Item.took_count (i : Item) (o : OpDesc) (st : Stream) (port : BitVec 3) (bs : Bytes) : (i.took o st port bs).count =
    if AMap.get i.inFrame port [] = [] ∧ o.code ≠ 0x48 then i.startRows + hdrRows bs else i.count :=
  ite_congr (propext (by rw [Bool.and_eq_true, List.isEmpty_iff, bne_iff_ne]; rfl)) (fun _ => rfl) fun _ => rfl

/-- A frame that a pop makes whole is worked on at once (R196, R199). -/
def State.afterPop (v : State) (q : Query) (im : Image) (o : OpDesc) (c : OpCtx) (i j : Item) (port : BitVec 3) (x : StreamRef)
    (host : List HostRead) : State :=
  match v.heldFrame q j port with
  | some all => v.workFrame q im o ((v.op? q.tag i.op).getD c) { j with stall := none } port x all host
  | none => v.settle q.tag

section Pop

variable {s : State} {r : Runner} {i : Item} {q : Query} {im : Image} {o : OpDesc} {c : OpCtx} {port : BitVec 3} {k : BitVec 16} {st : Stream}

/-- The port's stream, if the runner's item has the port. -/
theorem popped_stream (input : o.ins[port.toNat]? = some k) (found : s.stream? (q.stream k) = some st) :
    ((o.ins[port.toNat]?).bind fun k => (s.streamOf q k).map (q.stream k, ·)) = some (q.stream k, st) := by
  simp [input, State.streamOf, found]

theorem execWordPop_pointer (served : s.service r = some (i, q, im, o, c)) (input : o.ins[port.toNat]? = some k)
    (found : s.stream? (q.stream k) = some st) (host : List HostRead) :
    exec (.wordPop r port .pointer host) s = .next (s.pointerMismatch (q.stream k)) := by
  simp only [exec_wordPop, execWordPop, served, popped_stream input found]

theorem execWordPop_uncorrectable (served : s.service r = some (i, q, im, o, c)) (input : o.ins[port.toNat]? = some k)
    (found : s.stream? (q.stream k) = some st) (host : List HostRead) :
    exec (.wordPop r port .uncorrectable host) s = .next (s.wordLost (q.stream k) i.id) := by
  simp only [exec_wordPop, execWordPop, served, popped_stream input found]

/-- A correctable error is counted for the stream's cluster and in all (R210). -/
theorem execWordPop_corrected (served : s.service r = some (i, q, im, o, c)) (input : o.ins[port.toNat]? = some k)
    (found : s.stream? (q.stream k) = some st) (compute : o.code = opCompute) (host : List HostRead) :
    exec (.wordPop r port .corrected host) s = .next ((s.count (ctrStrCe st.home)).count 0x20) := by
  have counted : s.wordCorrected (q.stream k) = (s.count (ctrStrCe st.home)).count 0x20 := by
    simp only [State.wordCorrected, found]
    rfl
  rw [exec_wordPop]
  unfold execWordPop
  rw [served]
  dsimp only
  rw [popped_stream input found]
  dsimp only
  rw [if_pos rfl, if_pos compute, counted]

/-- A unit pops when its item holds no whole frame, is in no other port's frame, and goes on with its frame or takes the next: by what
the pop meets (R199, R206). -/
theorem execWordPop_sound (served : s.service r = some (i, q, im, o, c)) (input : o.ins[port.toNat]? = some k)
    (found : s.stream? (q.stream k) = some st) (unit : o.code ≠ opCompute) (free : s.heldFrame q i port = none)
    (alone : ∀ e, e ∈ i.inFrame → e.1 = port ∨ e.2 = [])
    (goes : AMap.get i.inFrame port [] ≠ [] ∨ s.takesFrame q im o c i port = true) (host : List HostRead) :
    exec (.wordPop r port .sound host) s = .next (match st.popView i.id with
      | .word w _ =>
        let j := i.took o st port (AMap.get i.inFrame port [] ++ wordBytes w)
        let u := ((s.setStream (q.stream k) (st.popped i.id)).modItem i.id fun _ => j).endStall i.id 0
        let v := if o.code = 0x3A ∧ AMap.get i.inFrame port [] = [] then u.unionClaim q i else u
        if (st.popped i.id).rp ≠ (st.popped i.id).rp2 then s.pointerMismatch (q.stream k)
        else v.afterPop q im o c i j port (q.stream k) host
      | .empty => s.stallItem i.id
      | _ => s) := by
  have other : (i.inFrame.any fun e => e.1 != port && !e.2.isEmpty) = false := by
    simp only [List.any_eq_false, Bool.and_eq_true, bne_iff_ne, Bool.not_eq_true', List.isEmpty_eq_false_iff, not_and]
    exact fun e mem ne full => full ((alone e mem).resolve_left ne)
  have takes : ((AMap.get i.inFrame port []).isEmpty && !(s.takesFrame q im o c i port)) = false := by
    rcases goes with h | h <;> simp [h]
  have worked (v : State) (j : Item) : (match v.heldFrame q j port with
      | some bs => Host.Outcome.next (v.workFrame q im o ((v.op? q.tag i.op).getD c) { j with stall := none } port (q.stream k) bs host)
      | none => .next (v.settle q.tag) : Host.Outcome State Fault Refusal) = .next (v.afterPop q im o c i j port (q.stream k) host) := by
    unfold State.afterPop
    cases v.heldFrame q j port <;> rfl
  rw [exec_wordPop]
  unfold execWordPop
  rw [served]
  dsimp only
  rw [popped_stream input found]
  dsimp only
  rw [if_neg unit, if_neg (show ¬StreamFlaw.sound = .corrected by decide), free]
  dsimp only
  rw [other, takes, Bool.false_or, if_neg (by decide)]
  cases st.popView i.id with
  | word w b =>
    have claims : (decide (o.code = opUnion) && (AMap.get i.inFrame port []).isEmpty) =
        decide (o.code = 0x3A ∧ AMap.get i.inFrame port [] = []) := by
      rw [Bool.decide_and]
      cases AMap.get i.inFrame port [] <;> rfl
    dsimp only
    simp only [claims, decide_eq_true_eq]
    split
    · rfl
    · exact worked _ _
  | stall => rfl
  | empty => rfl
  | ended => rfl
  | aborted => rfl

end Pop

/-! ### The settling -/

/-- Settles O48: the head, the commits, the pops and the flaws of a stream by its own lemmas, then the units by what their items offer and
pop. -/
theorem wordsAreCommittedAndPopped : Obligations.WordsAreCommittedAndPopped := by
  unfold Obligations.WordsAreCommittedAndPopped
  intro s r x st word vb n port host
  dsimp only
  refine ⟨fun found => ⟨execHeadRefill_of_inHead found, execHeadRefill_of_empty found⟩,
    fun found plain works kept => ⟨?_, fun mine => ?_⟩, fun found failed => State.commitWord_of_failed word vb found failed,
    fun plain works flows => ⟨Stream.popView_of_empty n plain works flows, fun more e next => Stream.popView_of_word n plain works flows more next,
      Stream.popped_of_plain n plain⟩,
    ⟨rfl, rfl, StreamWord.of_sound word vb⟩, fun found => ⟨State.pointerMismatch_lost found, fun u after => ?_⟩,
    s.wordLost_lost x n, fun found plain works flows more next q named running => ?_, fun i q im o c served => ⟨?_, ?_, ?_⟩⟩
  · rintro ⟨h, held, other⟩
    exact State.commitWord_of_holder word vb found plain works kept held other
  · rw [State.commitWord_eq word vb found plain works kept mine]
    refine ⟨fun room same => ?_, fun room differ => ?_, fun full grows => ?_, fun full stuck => ?_⟩
    · rw [if_pos room, if_pos same]
      refine ⟨rfl, _, rfl, ?_⟩
      rw [Stream.landed_keeps]
      exact ⟨rfl, congrArg (· + 1) same.symm, rfl, rfl, rfl, rfl⟩
    · rw [if_pos room, if_neg differ]
    · rw [if_neg (Nat.not_lt.mpr full), State.growMiddle, if_pos grows]
    · rw [if_neg (Nat.not_lt.mpr full), State.growMiddle, if_neg stuck]
  · rw [State.pointerMismatch_stream? found after]
    exact ⟨rfl, rfl, rfl, rfl, rfl⟩
  · exact State.wordLost_withholds n found plain works flows more next named running
  · intro w rest offers out
    exact ⟨execWordCommit_pointer served offers out, fun flaw sound => execWordCommit_eq served offers out sound⟩
  · exact fun flaw idle scan => execWordCommit_scan served idle scan
  · rintro k input rfl found
    refine ⟨execWordPop_pointer served input found host, execWordPop_uncorrectable served input found host,
      fun compute => execWordPop_corrected served input found compute host, fun unit free alone goes => ?_⟩
    have pop := execWordPop_sound served input found unit free alone goes host
    refine ⟨fun empty => ?_, fun stall => ?_, fun w b view same => ?_⟩
    · rw [pop, empty]
    · rw [pop, stall]
    · refine ⟨i.took o st port (AMap.get i.inFrame port [] ++ wordBytes w), rfl, Item.took_count .., ?_⟩
      rw [pop, view]
      dsimp only
      rw [if_neg (fun differ => differ same)]
      rfl

end Sys2Proof.Machine
end

section
/-! The step (19 R562): the command in front runs on the state with the queue's rest, and an empty queue is a tick. -/

namespace Sys2Proof.Machine

theorem step_cons (s : State) (c : Instr) (rest : List Instr) :
    step { s with pending := c :: rest } = exec c { s with pending := rest } := rfl

/-- The time base counts whatever the state, since the always-on clock never stops (R237). -/
theorem step_of_empty {s : State} (empty : s.pending = []) : step s = .next { s with time := s.time + 1 } := by
  have alwaysOn : s.clockRuns .ao = true := rfl
  simp only [step, empty, alwaysOn, if_true]

/-- Settles O1: a queue with a command in front, and the empty queue. -/
theorem stepRunsTheFrontCommand : Obligations.StepRunsTheFrontCommand := by
  unfold Obligations.StepRunsTheFrontCommand
  exact fun s c rest => ⟨step_cons s c rest, fun empty => ⟨_, step_of_empty empty, rfl⟩⟩

end Sys2Proof.Machine
end

section
/-! SUPPORT. The rules of the Dispatcher's state: what items and runners read as after each of its updates (07 R217-R236). -/

namespace Sys2Proof.Machine

/-! ### Maps whose values change -/

section Maps

variable {κ α : Type} [DecidableEq κ]

theorem AMap.get_mapVals (m : AMap κ α) (f : κ → α → α) {k : κ} {d : α} (keeps : f k d = d) :
    AMap.get (AMap.mapVals m f) k d = f k (AMap.get m k d) := by
  rw [AMap.get, AMap.find?_mapVals, AMap.get]
  cases AMap.find? m k with
  | none => exact keeps.symm
  | some a => rfl

theorem AMap.find?_update_self (m : AMap κ α) (k : κ) (f : α → α) :
    AMap.find? (AMap.update m k f) k = (AMap.find? m k).map f := by
  induction m with
  | nil => rfl
  | cons e r ih =>
    obtain ⟨a, b⟩ := e
    by_cases h : a = k
    · simp [AMap.update, AMap.find?, h]
    · simpa [AMap.update, AMap.find?, h] using ih

end Maps

/-! ### Runners after an update -/

theorem State.runner_setRunner (s : State) (r x : Runner) (v : RunnerState) :
    (s.setRunner r v).runner x = if x = r then v else s.runner x := AMap.get_insert ..

@[simp] theorem State.runner_setRunner_self (s : State) (r : Runner) (v : RunnerState) : (s.setRunner r v).runner r = v :=
  AMap.get_insert_self ..

@[simp] theorem State.runner_modItem (s : State) (n : Nat) (g : Item → Item) : (s.modItem n g).runner = s.runner := rfl
@[simp] theorem State.runner_addTotal (s : State) (t : Tag) (k : Nat) (counts : BitVec 64) :
    (s.addTotal t k counts).runner = s.runner := rfl
@[simp] theorem State.runner_returnItem (s : State) (n : Nat) (why : BitVec 8) : (s.returnItem n why).runner = s.runner := rfl
@[simp] theorem State.runner_refill (s : State) : s.refill.runner = s.runner := rfl

/-- A parked item leaves the runner that runs it. -/
theorem State.runner_parkItem (s : State) (n : Nat) (cause : ParkCause) (why : BitVec 8) (r : Runner) :
    (s.parkItem n cause why).runner r = { s.runner r with running := (s.runner r).running.filter (· ≠ n) } :=
  AMap.get_mapVals s.disp.runners (fun _ v => { v with running := v.running.filter (· ≠ n) }) (k := r) (d := RunnerState.idle) rfl

/-- The runners of items that leave the Dispatcher are free of them. -/
theorem State.runner_removeItems (s : State) (f : Item → Bool) (r : Runner) : (s.removeItems f).runner r = { s.runner r with
    running := (s.runner r).running.filter fun n => !((s.disp.items.filter f).map (·.id)).contains n
    slot := (s.runner r).slot.filter fun n => !((s.disp.items.filter f).map (·.id)).contains n } :=
  AMap.get_mapVals s.disp.runners (fun _ v => { v with
    running := v.running.filter fun n => !((s.disp.items.filter f).map (·.id)).contains n
    slot := v.slot.filter fun n => !((s.disp.items.filter f).map (·.id)).contains n }) (k := r) (d := RunnerState.idle) rfl

/-! ### Items after an update -/

section Items

variable {s : State} {n : Nat} {i : Item} {r : Runner}

theorem State.id_of_item? (h : s.item? n = some i) : i.id = n := by simpa using List.find?_some h

/-- The item in a runner's slot is found under its number. -/
theorem State.slot_of_slotted? (h : s.slotted? r = some i) : (s.runner r).slot = some i.id ∧ s.item? i.id = some i := by
  obtain ⟨n, slot, found⟩ := Option.bind_eq_some_iff.mp h
  obtain rfl := State.id_of_item? found
  exact ⟨slot, found⟩

/-- The item that a runner runs is found under its number. -/
theorem State.running_of_running? (h : s.running? r = some i) : (s.runner r).running = some i.id ∧ s.item? i.id = some i := by
  obtain ⟨n, running, found⟩ := Option.bind_eq_some_iff.mp h
  obtain rfl := State.id_of_item? found
  exact ⟨running, found⟩

/-- What a change makes of an item holds of every item of that number. -/
theorem State.of_mem_modItem {g : Item → Item} {P : Item → Prop} (made : ∀ y, P (g y)) :
    ∀ x, x ∈ (s.modItem n g).disp.items → x.id = n → P x := by
  intro x mem id
  obtain ⟨y, -, rfl⟩ := List.mem_map.mp mem
  split at id
  · rename_i same; rw [if_pos same]; exact made y
  · rename_i other; exact absurd id other

theorem State.item?_modItem_self {g : Item → Item} (keeps : ∀ y, (g y).id = y.id) :
    (s.modItem n g).item? n = (s.item? n).map g := by
  have same : ((fun y : Item => y.id == n) ∘ fun y => if y.id = n then g y else y) = fun y => y.id == n := by
    funext y; dsimp only [Function.comp]; split <;> simp [keeps]
  unfold State.item? State.modItem
  rw [List.find?_map, same]
  cases h : List.find? (fun y : Item => y.id == n) s.disp.items with
  | none => rfl
  | some y => simp [State.id_of_item? (s := s) h]

/-- A returned item is READY, and last of the returned items (R225). -/
theorem State.returnItem_returned (s : State) (n : Nat) (why : BitVec 8) :
    (∀ x, x ∈ (s.returnItem n why).disp.items → x.id = n → x.st = .ready) ∧
      (s.returnItem n why).disp.returned = s.disp.returned ++ [n] ∧
      ∀ x, x ∈ (s.returnItem n why).disp.items → x.id = n → x.lastStop = why ∧ x.since = s.time :=
  ⟨State.of_mem_modItem fun _ => rfl, rfl, State.of_mem_modItem fun _ => ⟨rfl, rfl⟩⟩

theorem State.parkItem_parked (s : State) (n : Nat) (cause : ParkCause) (why : BitVec 8) :
    ∀ x, x ∈ (s.parkItem n cause why).disp.items → x.id = n → x.st = .parked := State.of_mem_modItem fun _ => rfl

theorem State.removeItems_gone (s : State) (n : Nat) : ∀ x, x ∈ (s.removeItems fun j => j.id == n).disp.items → x.id ≠ n := by
  intro x mem
  have kept : x ∈ s.disp.items.filter fun j => !(j.id == n) := mem
  simpa using (List.mem_filter.mp kept).2

/-- A runner is idle once the item that it runs is removed. -/
theorem State.removeItems_idle (running : (s.runner r).running = some n) (listed : ∃ j ∈ s.disp.items, j.id = n) :
    ((s.removeItems fun j => j.id == n).runner r).running = none := by
  obtain ⟨j, mem, id⟩ := listed
  have gone : n ∈ (s.disp.items.filter fun j => j.id == n).map (·.id) :=
    List.mem_map.mpr ⟨j, List.mem_filter.mpr ⟨mem, by simpa using id⟩, id⟩
  rw [State.runner_removeItems, running]
  simpa [Option.filter] using gone

/-- The end of a stall keeps every item's number, and the runners. -/
theorem State.endStall_keeps (s : State) (n : Nat) (least : BitVec 64) :
    (s.endStall n least).runner = s.runner ∧ ((s.endStall n least).disp.items.map (·.id)) = s.disp.items.map (·.id) := by
  unfold State.endStall
  split
  · exact ⟨rfl, rfl⟩
  · split
    · exact ⟨rfl, rfl⟩
    · refine ⟨rfl, ?_⟩
      change (s.disp.items.map _).map _ = _
      rw [List.map_map]
      refine List.map_congr_left fun y _ => ?_
      dsimp only [Function.comp]
      split <;> rfl

end Items

/-! ### Deadlines -/

theorem State.deadlineFallen_iff (s : State) (q : Query) :
    s.deadlineFallen q = true ↔ q.deadline ≠ 0 ∧ 25 * q.deadline.toNat ≤ (s.time - q.fetched).toNat := by
  simp [State.deadlineFallen]

/-- A comparison that finds the deadline not fallen changes nothing, then as well when the queries and the time are still the same (R237). -/
theorem State.deadlineCheck_of_ahead {s u : State} {t : Tag} {q : Query} (found : s.query? t = some q)
    (ahead : ¬(q.deadline ≠ 0 ∧ 25 * q.deadline.toNat ≤ (s.time - q.fetched).toNat)) (queries : u.queries = s.queries)
    (time : u.time = s.time) : u.deadlineCheck t = u := by
  have same : u.query? t = some q := by rw [State.query?, queries]; exact found
  rw [← time] at ahead
  simp only [State.deadlineCheck, same, mt (u.deadlineFallen_iff q).mp ahead, Bool.false_eq_true, if_false]

theorem State.tag_of_query? {s : State} {t : Tag} {q : Query} (h : s.query? t = some q) : q.tag = t := by
  simpa using List.find?_some h

theorem State.query?_addTotal (s : State) (t : Tag) (k : Nat) (counts : BitVec 64) : (s.addTotal t k counts).query? t =
    (s.query? t).map fun q => { q with totals := q.totals.set k (q.totals.getD k 0 + 40 * counts) } :=
  (s.query?_modQuery t t (fun q => { q with totals := q.totals.set k (q.totals.getD k 0 + 40 * counts) }) fun _ => rfl).trans (if_pos rfl)

end Sys2Proof.Machine
end

section
/-! Generating, choosing and starting work items (07 R217-R229; 13 R417, R419). -/

namespace Sys2Proof.Machine

/-! ### Generating -/

/-- What a flow's next item is when it is generated (R217, R219). -/
theorem State.newItem_generated {s : State} {q : Query} {op : BitVec 16} {flow : BitVec 8} {fl : Flow} (o : OpDesc) (origin : BitVec 64)
    (count : Nat) (out : List OutWord) (flows : AMap.find? s.disp.flows (q.tag, op, flow) = some fl) :
    let new := s.newItem q o op flow origin count out
    ∃ i, new.disp.items = s.disp.items ++ [i] ∧ i.id = s.disp.nextItem ∧ new.disp.nextItem = s.disp.nextItem + 1 ∧
      new.disp.generated = s.disp.generated ++ [i.id] ∧ i.st = .ready ∧ i.query = q.tag ∧ i.op = op ∧ i.flow = flow ∧ i.flowNo = fl.number ∧
      i.prio = q.prio ∧ i.preempt = o.preempt ∧ i.atomic = fl.atomic ∧ i.origin = origin ∧ i.count = count ∧ i.progress = 0 ∧ i.lastStop = 0 ∧
      new.cursor q.tag op flow = s.cursor q.tag op flow + 1 := by
  unfold State.newItem
  rw [flows]
  refine ⟨_, rfl, rfl, rfl, rfl, rfl, rfl, rfl, rfl, rfl, rfl, rfl, rfl, rfl, rfl, rfl, rfl, ?_⟩
  simp only [State.cursor, AMap.find?_update_self, flows, Option.map_some, Option.getD_some]

section Generate

variable {s : State} {t : Tag} {op : BitVec 16} {flow : BitVec 8} {q : Query} {im : Image} {o : OpDesc} {c : OpCtx}

/-- A flow may generate an item: its operator has not ended, of a query that runs, and there is room for a descriptor (R219, R220). -/
structure Generates (s : State) (t : Tag) (op : BitVec 16) (flow : BitVec 8) (q : Query) (im : Image) (o : OpDesc) (c : OpCtx) : Prop where
  found : s.query? t = some q
  serving : q.st = .running ∨ q.st = .paused
  named : q.opOf op = some (im, o)
  context : s.op? t op = some c
  going : c.ended = false
  room : s.disp.items.length < 262144
  flows : ∃ fl, AMap.find? s.disp.flows (t, op, flow) = some fl

theorem Generates.prepared (h : Generates s t op flow q im o c) :
    ((s.query? t).bind fun q => (q.opOf op).map (q, ·)) = some (q, im, o) := by simp [h.found, h.named]

theorem Generates.may (h : Generates s t op flow q im o c) :
    ((decide (q.st ≠ .running) && decide (q.st ≠ .paused)) || c.ended || !s.itemRoom || !(AMap.has s.disp.flows (t, op, flow))) = false := by
  obtain ⟨fl, flows⟩ := h.flows
  have room : s.itemRoom = true := decide_eq_true h.room
  rcases h.serving with st | st <;> simp [st, h.going, room, AMap.has, flows]

theorem Generates.scan (h : Generates s t op flow q im o c) (scan : o.code = opScan) {slot : BitVec 20} {lo n : Nat}
    (range : (s.scanRanges q im o)[s.cursor t op 0]? = some (slot, lo, n)) :
    exec (.itemGenerate t op flow) s = .next (s.newItem q o op flow (BitVec.ofNat 64 (lo + 2 ^ 22 * slot.toNat)) n []) := by
  rw [exec_itemGenerate]
  unfold execItemGenerate
  rw [h.prepared, h.context]
  dsimp only
  rw [h.may, if_neg Bool.false_ne_true, if_pos scan, range]
  rfl

/-- A source kernel's elements in items of ITEM_ELEMS, the last with what is left (13 R417). -/
theorem Generates.compute (h : Generates s t op flow q im o c) (compute : o.code = opCompute) (source : o.p 6 1 = 0xFF) :
    exec (.itemGenerate t op flow) s = .next (if s.cursor t op 0 * o.itemElems < computeTotal im q.params o then
      s.newItem q o op 0 (BitVec.ofNat 64 (s.cursor t op 0 * o.itemElems))
        (if o.itemElems ≤ computeTotal im q.params o - s.cursor t op 0 * o.itemElems then o.itemElems
          else computeTotal im q.params o - s.cursor t op 0 * o.itemElems) []
      else s) := by
  have other : o.code ≠ opScan := by rw [compute]; decide
  rw [exec_itemGenerate]
  unfold execItemGenerate
  rw [h.prepared, h.context]
  dsimp only
  rw [h.may, if_neg Bool.false_ne_true, if_neg other, if_pos compute, State.computeItem, if_pos source, State.tag_of_query? h.found]
  rfl

/-- A flow fed by frames generates an item for a frame that no item has claimed or will claim (R219). -/
theorem Generates.fed (h : Generates s t op flow q im o c) (code : o.code ∉ [opScan, opCompute, opMerge, opCompress])
    (counts : o.code = opLimit → limitDone im q.params o c = false) (fed : o.fedFlow flow = true) :
    exec (.itemGenerate t op flow) s =
      .next (if s.hungryItems q op flow < s.unclaimedIn q o then s.newItem q o op flow 0 65536 [] else s) := by
  simp only [List.mem_cons, List.not_mem_nil, or_false, not_or] at code
  obtain ⟨notScan, notCompute, notMerge, notCompress⟩ := code
  have merge : (decide (o.code = opMerge) && s.inputsDrained q o) = false := by
    rw [decide_eq_false notMerge, Bool.false_and]
  have limit : (decide (o.code = opLimit) && limitDone im q.params o c) = false := by
    by_cases h : o.code = opLimit
    · rw [counts h, Bool.and_false]
    · rw [decide_eq_false h, Bool.false_and]
  rw [exec_itemGenerate]
  unfold execItemGenerate
  rw [h.prepared, h.context]
  dsimp only
  rw [h.may, merge, limit, if_neg Bool.false_ne_true, if_neg notScan, if_neg notCompute,
    if_neg Bool.false_ne_true, if_neg notCompress, if_neg Bool.false_ne_true, if_pos fed]
  by_cases hungry : s.hungryItems q op flow < s.unclaimedIn q o
  · rw [if_pos hungry, if_neg (Nat.not_le.mpr hungry)]; rfl
  · rw [if_neg hungry, if_pos (Nat.not_lt.mp hungry)]

end Generate

/-! ### Slots -/

/-- What an item's way into a slot leaves of the item, the level's order and the runners (R226). -/
theorem State.slotItem_slotted (s : State) (r : Runner) (i : Item) :
    let u := s.slotItem r i
    (u.runner r).slot = some i.id ∧ (u.runner r).running = (s.runner r).running ∧
      (∀ x, x ∈ u.disp.items → x.id = i.id → x.st = .slotted) ∧ i.id ∉ u.disp.returned ∧ i.id ∉ u.disp.generated ∧
      ∀ x, x ≠ r → u.runner x = s.runner x := by
  unfold State.slotItem
  dsimp only
  generalize hw : (if (i.lastStop = 1 || i.lastStop = 6) = true then s.addTotal i.query 5 (s.time - i.since) else s) = w
  have runner : w.runner = s.runner := by rw [← hw]; split <;> rfl
  refine ⟨?_, ?_, State.of_mem_modItem fun _ => rfl, ?_, ?_, fun x other => ?_⟩
  · rw [State.runner_refill, State.runner_setRunner_self]
  · rw [State.runner_refill, State.runner_setRunner_self, ← runner]; rfl
  · exact fun mem => by simpa using (List.mem_filter.mp mem).2
  · exact fun mem => by simpa using (List.mem_filter.mp mem).2
  · rw [State.runner_refill, State.runner_setRunner, if_neg other, ← runner]; rfl

/-- An empty slot takes the first item of the level's order that the runner can use (R223-R226). -/
theorem execSlotFill_eq {s : State} {r : Runner} {i : Item} (empty : (s.refill.runner r).slot = none)
    (next : s.refill.nextFor r = some i) : exec (.slotFill r i.id) s = .next (s.refill.slotItem r i) := by
  simp only [exec_slotFill, execSlotFill, empty, next, Option.isSome_none, Bool.false_eq_true, if_false, if_true]

theorem State.recallSlot_eq {s : State} {r : Runner} {n : Nat} (slot : (s.runner r).slot = some n) :
    s.recallSlot r = (s.setRunner r { s.runner r with slot := none }).returnItem n 6 := by
  simp only [State.recallSlot, slot]

/-- A recall touches no running item. -/
theorem State.running_recallSlot (s : State) (r : Runner) : ((s.recallSlot r).runner r).running = (s.runner r).running := by
  cases slot : (s.runner r).slot with
  | none => simp only [State.recallSlot, slot]
  | some n => rw [State.recallSlot_eq slot, State.runner_returnItem, State.runner_setRunner_self]

/-- The occupant of the lowest level, of those the one slotted last, is recalled for an item of a higher level (R228). -/
theorem execRecall_eq {s : State} {r : Runner} {i j : Item} (occupied : s.slotted? r = some i) (found : s.item? j.id = some j)
    (eligible : s.eligible j = true) (usable : s.usable r j = true) (higher : j.prio.toNat < i.prio.toNat)
    (worst : ∀ x, x ∈ s.runners → s.usable x j = true → ∃ p, s.slotted? x = some p ∧
      (p.prio.toNat < i.prio.toNat ∨ (p.prio = i.prio ∧ (s.runner x).slottedAt ≤ (s.runner r).slottedAt))) :
    exec (.recall r j.id) s = .next (s.recallSlot r) := by
  simp only [exec_recall, execRecall, occupied, found]
  refine if_pos ?_
  have level : j.prio.ult i.prio = true := by simpa [BitVec.ult] using higher
  simp only [eligible, usable, level, Bool.true_and, Bool.not_eq_true', List.any_eq_false, List.mem_filter]
  rintro x ⟨mem, uses⟩
  obtain ⟨p, slotted, better⟩ := worst x mem uses
  rw [slotted]
  rcases better with lower | ⟨same, earlier⟩
  · have differ : p.prio ≠ i.prio := fun e => by rw [e] at lower; exact Nat.lt_irrefl _ lower
    simpa [BitVec.ult, differ] using Nat.le_of_lt lower
  · simpa [BitVec.ult, same] using earlier

/-! ### Starting -/

/-- An item in service, as it starts: RUNNING, with the pages of its stop free. -/
def Item.started (i : Item) (now : BitVec 64) : Item := { i with st := .running, since := now, spill := 0 }

/-- The runner has taken its slot's item. -/
def State.taken (s : State) (r : Runner) (i : Item) : State :=
  let u := (s.modItem i.id fun i => i.started s.time).setRunner r { s.runner r with
    running := some i.id, slot := none, startedAt := s.disp.clock, stopDue := false }
  { u with disp := { u.disp with clock := u.disp.clock + 1 } }

theorem State.taken_running (s : State) (r : Runner) (i : Item) :
    ((s.taken r i).runner r).running = some i.id ∧ ((s.taken r i).runner r).slot = none ∧
      ((s.taken r i).runner r).startedAt = s.disp.clock ∧ ∀ x, x ∈ (s.taken r i).disp.items → x.id = i.id → x.st = .running := by
  have now : (s.taken r i).runner r =
      { s.runner r with running := some i.id, slot := none, startedAt := s.disp.clock, stopDue := false } := State.runner_setRunner_self ..
  rw [now]
  exact ⟨rfl, rfl, rfl, State.of_mem_modItem fun _ => rfl⟩

/-- The start on an EC is a matter of the cores. -/
theorem State.startOnEc_keeps (s : State) (r : Runner) (i : Item) :
    (s.startOnEc r i).queries = s.queries ∧ (s.startOnEc r i).time = s.time ∧ (s.startOnEc r i).disp = s.disp := by
  unfold State.startOnEc
  dsimp only
  (repeat' split) <;> exact ⟨rfl, rfl, rfl⟩

section Take

variable {s : State} {r : Runner} {i : Item} {q : Query}

/-- A runner that is idle takes the item in its slot; an EC does so in K mode (R219, R226). -/
theorem execItemTake_eq (slotted : s.slotted? r = some i) (idle : (s.runner r).running = none) (serves : s.inService r = true)
    (found : s.query? i.query = some q) (ahead : ¬(q.deadline ≠ 0 ∧ 25 * q.deadline.toNat ≤ (s.time - q.fetched).toNat))
    (ready : r.kind = .ec → (s.core (ecOf r)).mode = 1 ∧ (s.core (ecOf r)).halted = false) :
    exec (.itemTake r) s = .next (if r.kind = .ec then (s.taken r i).startOnEc r (i.started s.time) else s.taken r i) := by
  have listed : (s.taken r i).item? i.id = some (i.started s.time) :=
    (State.item?_modItem_self (s := s) (g := fun y => y.started s.time) fun _ => rfl).trans
      (by rw [(State.slot_of_slotted? slotted).2]; rfl)
  have blocked : ((s.runner r).running.isSome || !s.inService r ||
      (r.kind == .ec && ((s.core (ecOf r)).mode != 1 || (s.core (ecOf r)).halted))) = false := by
    rw [idle, serves]
    by_cases ec : r.kind = .ec
    · obtain ⟨mode, halted⟩ := ready ec
      simp [mode, halted]
    · simp [ec]
  obtain ⟨queries, time, -⟩ := (s.taken r i).startOnEc_keeps r (i.started s.time)
  rw [exec_itemTake]
  unfold execItemTake
  rw [slotted]
  dsimp only
  rw [blocked, if_neg Bool.false_ne_true]
  change Host.Outcome.next (State.deadlineCheck (match (s.taken r i).item? i.id with
    | some j => if r.kind = .ec then (s.taken r i).startOnEc r j else s.taken r i
    | none => s.taken r i) i.query) = _
  rw [listed]
  dsimp only
  split
  · exact congrArg _ (State.deadlineCheck_of_ahead found ahead queries time)
  · exact congrArg _ (State.deadlineCheck_of_ahead found ahead rfl rfl)

theorem State.core_startOnEc {im : Image} {o : OpDesc} {d : KernelDesc} (s : State) (r : Runner) (found : s.query? i.query = some q)
    (named : q.opOf i.op = some (im, o)) (compute : o.code = opCompute) (new : AMap.find? s.cores.saved i.id = none)
    (kernel : im.kernels[o.kernel.toNat]? = some d) : (s.startOnEc r i).core (ecOf r) =
      (s.core (ecOf r)).startKernel i d (im.ref (some q.params) (o.p 0 4) (o.p 4 2)).bytes := by
  have prepared : ((s.query? i.query).bind fun q => (q.opOf i.op).map (q, ·)) = some (q, im, o) := by simp [found, named]
  unfold State.startOnEc
  dsimp only
  rw [prepared]
  dsimp only
  rw [if_neg (fun other => other compute), new, kernel]
  exact State.core_setCore_self ..

theorem Core.mode_setMode (c : Core) (m : BitVec 2) : (c.setMode m).mode = m := by
  unfold Core.setMode
  split
  · rename_i h; exact h.symm
  · rfl

/-- A fresh kernel finds its item, and every register but its stack pointer, its return address and its argument's length at 0 (13 R419). -/
theorem Core.startKernel_fresh (c : Core) (i : Item) (d : KernelDesc) (args : Bytes) :
    let k := c.startKernel i d args
    k.mode = 0 ∧ k.pc = (0x100000000 + d.entry.setWidth 64) &&& ~~~3#64 ∧ k.gm = false ∧ k.item = some i.id ∧ k.itemOrigin = i.origin ∧
      k.itemCount = BitVec.ofNat 64 i.count ∧ k.getX 31 = 0xFFFFFFFFFFFFFFF0 ∧ k.getX 30 = BitVec.ofNat 64 (1024 * d.scratchKib.toNat) ∧
      (∀ n, n ≠ 31 → n ≠ 30 → n ≠ 3 → k.getX n = 0) ∧ (∀ n, k.getV n = 0) ∧ k.vl = 0 ∧ k.sew = 0 ∧ k.vprog = 0 ∧ k.fflags = 0 ∧
      k.lcount0 = 0 ∧ k.lcount1 = 0 ∧ k.code = d.code := by
  refine ⟨Core.mode_setMode c 0, rfl, rfl, rfl, rfl, rfl, rfl, rfl, fun n ra sp arg => ?_, fun n => rfl,
    rfl, rfl, rfl, rfl, rfl, rfl, rfl⟩
  have unset : AMap.find? (c.startKernel i d args).x n = none :=
    (if_neg ra.symm).trans ((if_neg sp.symm).trans (if_neg arg.symm))
  simp [Core.getX, AMap.get, unset]

end Take

end Sys2Proof.Machine
end

section
/-! Stopping, parking and ending work items (07 R219, R230-R238; 15 R464, R465). -/

namespace Sys2Proof.Machine

section Runs

variable {s : State} {r : Runner} {i : Item} {q : Query} {im : Image} {o : OpDesc} {c : OpCtx}

/-- What the service of a runner names. -/
theorem State.service_eq (h : s.service r = some (i, q, im, o, c)) :
    s.running? r = some i ∧ s.query? i.query = some q ∧ q.opOf i.op = some (im, o) ∧ s.op? i.query i.op = some c := by
  unfold State.service at h
  split at h
  · cases h
  · rename_i j running
    split at h
    · cases h
    · rename_i p found
      split at h
      · rename_i im' o' c' named context
        split at h
        · cases h; exact ⟨running, found, named, context⟩
        · cases h
      · cases h

/-! ### Preemption -/

/-- A runner that has been told to stop, for the item in its slot, is told again (R233). -/
theorem execPreemption_again {p : Item} {n : Nat} (runs : s.running? r = some p) (due : (s.runner r).stopDue = true)
    (slot : (s.runner r).slot = some n) (found : (s.item? n).isSome = true) :
    exec (.preemption r n) s = .next (s.stopDueItem r p) := by
  obtain ⟨j, found⟩ := Option.isSome_iff_exists.mp found
  simp only [exec_preemption, execPreemption, runs, found, due, slot, Bool.true_and, beq_self_eq_true, if_true]

/-- The preempting item comes into the target's slot, and the target is told to stop (R231). -/
theorem execPreemption_target {p : Item} (runs : s.running? r = some p) (found : s.item? i.id = some i) (eligible : s.eligible i = true)
    (full : ∀ x, x ∈ s.runners → s.usable x i = true → (s.runner x).slot.isSome = true ∧ (s.runner x).running.isSome = true)
    (target : s.preemptTarget i = some r) (first : (s.nextFor r).map (·.id) = some i.id) (other : (s.runner r).slot ≠ some i.id) :
    exec (.preemption r i.id) s = .next ((((s.recallSlot r).slotItem r i).setRunner r
      { ((s.recallSlot r).slotItem r i).runner r with stopDue := true }).stopDueItem r p) := by
  have fresh : ((s.runner r).stopDue && (s.runner r).slot == some i.id) = false := by
    rw [beq_eq_false_iff_ne.mpr other, Bool.and_false]
  have taken : ((s.runners.filter fun x => s.usable x i).any fun x => (s.runner x).slot.isNone || (s.runner x).running.isNone) = false := by
    simp only [List.any_eq_false, List.mem_filter]
    rintro x ⟨mem, uses⟩
    obtain ⟨slot, running⟩ := full x mem uses
    simp [Option.isNone_iff_eq_none, Option.isSome_iff_ne_none.mp slot, Option.isSome_iff_ne_none.mp running]
  rw [exec_preemption]
  unfold execPreemption
  rw [runs, found]
  dsimp only
  rw [fresh, if_neg Bool.false_ne_true, if_neg]
  simp [eligible, taken, target, first]

/-- An item that has been told to stop ends where its range is complete, and else stops where it stands at an element boundary (R233). -/
theorem State.stopDueItem_of_going {p : Item} (found : s.query? p.query = some q) (going : q.st ≠ .stopping) :
    (∀ u, s.endRange r = some u → s.stopDueItem r p = u) ∧
      (s.endRange r = none → s.atBoundary r p = true → s.stopDueItem r p = ((s.leaveRunner r p true).returnItem p.id 1).settle p.query) ∧
      (s.endRange r = none → s.atBoundary r p = false → s.stopDueItem r p = s) := by
  unfold State.stopDueItem
  rw [found]
  dsimp only
  rw [if_neg going]
  refine ⟨fun u ends => ?_, fun open_ stands => ?_, fun open_ stands => ?_⟩
  · rw [ends]
  · rw [open_]; exact if_pos stands
  · rw [open_]; exact if_neg (by rw [stands]; exact Bool.false_ne_true)

theorem State.stopDueItem_of_stopping {p : Item} (found : s.query? p.query = some q) (stopping : q.st = .stopping) :
    s.stopDueItem r p = if s.atBoundary r p then s.endStopping r p q else s := by
  simp only [State.stopDueItem, found, stopping, if_true]

/-! ### Parking -/

/-- The wait of an item on its runner counts, a kernel's from its first refusal on (R238). -/
def State.countWait (s : State) (q : Query) (i : Item) (cause : ParkCause) (counts : BitVec 64) : State :=
  if cause = .stream ∧ i.stall.isSome = true then s.endStall i.id counts
  else if counts = 0 then s else s.addTotal q.tag cause.total counts

/-- The item has left its runner and is PARKED (R234). -/
def State.leftParked (s : State) (r : Runner) (q : Query) (i : Item) (cause : ParkCause) (counts : BitVec 64) : State :=
  ((s.countWait q i cause counts).leaveRunner r i false).parkItem i.id cause cause.lastStop

/-- A count of a wait changes nothing of a query but its totals. -/
theorem State.query?_countWait (s : State) (i : Item) (cause : ParkCause) (counts : BitVec 64) (found : s.query? i.query = some q) :
    ∃ p, (s.countWait q i cause counts).query? i.query = some p ∧ p.image = q.image := by
  have total (u : State) (same : u.query? i.query = some q) (t : Tag) (k : Nat) (n : BitVec 64) :
      ∃ p, (u.addTotal t k n).query? i.query = some p ∧ p.image = q.image := by
    have after := u.query?_modQuery t i.query (fun q => { q with totals := q.totals.set k (q.totals.getD k 0 + 40 * n) }) fun _ => rfl
    rw [same] at after
    refine ⟨_, after.trans (apply_ite some _ _ _).symm, ?_⟩
    split <;> rfl
  unfold State.countWait
  split
  · unfold State.endStall
    split
    · exact ⟨q, found, rfl⟩
    · split
      · exact ⟨q, found, rfl⟩
      · exact total (s.modItem i.id _) found _ _ _
  · split
    · exact ⟨q, found, rfl⟩
    · exact total s found _ _ _

/-- An item of a query that stands leaves its runner idle. -/
theorem State.leaveRunner_idle {b : Bool} (found : s.query? i.query = some q) (named : (q.opOf i.op).isSome = true) :
    ((s.leaveRunner r i b).runner r).running = none := by
  obtain ⟨⟨im, o⟩, named⟩ := Option.isSome_iff_exists.mp named
  have prepared : ((s.query? i.query).bind fun q => (q.opOf i.op).map (q, ·.2)) = some (q, o) := by simp [found, named]
  unfold State.leaveRunner
  rw [prepared]
  exact congrArg RunnerState.running (State.runner_setRunner_self ..)

theorem State.leftParked_parked (cause : ParkCause) (counts : BitVec 64) (found : s.query? i.query = some q)
    (named : q.opOf i.op = some (im, o)) :
    (∀ x, x ∈ (s.leftParked r q i cause counts).disp.items → x.id = i.id → x.st = .parked) ∧
      ((s.leftParked r q i cause counts).runner r).running = none := by
  obtain ⟨p, still, image⟩ := s.query?_countWait i cause counts found
  have idle : (((s.countWait q i cause counts).leaveRunner r i false).runner r).running = none :=
    State.leaveRunner_idle still (by rw [Query.opOf, image]; exact Option.isSome_iff_exists.mpr ⟨_, named⟩)
  refine ⟨State.parkItem_parked _ _ _ _, ?_⟩
  rw [State.leftParked, State.runner_parkItem, idle]
  rfl

section Park

variable {cause : ParkCause} {counts : BitVec 64}

theorem State.parkRunning_of_stopping (served : s.service r = some (i, q, im, o, c)) (holds : s.causeHolds q o i c cause = true)
    (stands : s.atBoundary r i = true) (stopping : q.st = .stopping) : s.parkRunning r cause counts = s.endStopping r i q := by
  simp only [State.parkRunning, served, holds, stands, stopping, Bool.not_true, Bool.or_self, Bool.false_eq_true, if_false, if_true]

/-- What is due for the page of a page fault: a page request (15 R455). -/
def State.pageDue (s : State) (q : Query) (i : Item) : ParkCause → State
  | .page page write => s.hostFault q.tag.inst q.pasid page write (.item i.id)
  | _ => s

/-- A running item parks, and the query's deadline and operators are looked at (R234, R237). -/
theorem State.parkRunning_of_going (served : s.service r = some (i, q, im, o, c)) (holds : s.causeHolds q o i c cause = true)
    (stands : s.atBoundary r i = true) (going : q.st ≠ .stopping) : s.parkRunning r cause counts =
      ((((s.leftParked r q i cause counts).pageDue q i cause).deadlineCheck q.tag).settle q.tag) := by
  have blocked : (!s.causeHolds q o i c cause || !s.atBoundary r i) = false := by rw [holds, stands]; rfl
  have waited : (if (decide (cause = .stream) && i.stall.isSome) = true then s.endStall i.id counts
      else if counts = 0 then s else s.addTotal q.tag cause.total counts) = s.countWait q i cause counts := by
    simp only [Bool.and_eq_true, decide_eq_true_eq, State.countWait]
  unfold State.parkRunning
  rw [served]
  dsimp only
  rw [blocked, if_neg Bool.false_ne_true, if_neg going, waited]
  cases cause <;> rfl

theorem execStallYield_eq (kind : cause = .stream ∨ cause = .memhold) :
    exec (.stallYield r cause) s = .next (s.parkRunning r cause 50) := by
  rcases kind with rfl | rfl <;> rfl

theorem State.pageDue_of_ne (q : Query) (i : Item) (other : ∀ page write, cause ≠ .page page write) : s.pageDue q i cause = s := by
  cases cause with
  | page page write => exact absurd rfl (other page write)
  | pacer | spill | stream | memhold => rfl

end Park

/-! ### Unparking -/

/-- A parked item whose cause is over is READY again, last of the returned items, and its wait has counted (R225, R234, R238). -/
theorem execItemUnpark_eq (listed : s.item? i.id = some i) (found : s.query? i.query = some q) (named : q.opOf i.op = some (im, o))
    (context : s.op? i.query i.op = some c) (parked : i.st = .parked) (resolved : s.causeOver q o i c i.cause = true)
    (ahead : ¬(q.deadline ≠ 0 ∧ 25 * q.deadline.toNat ≤ (s.time - q.fetched).toNat)) :
    ∃ new p, exec (.itemUnpark i.id) s = .next new ∧ (∀ x, x ∈ new.disp.items → x.id = i.id → x.st = .ready) ∧
      new.disp.returned = s.disp.returned ++ [i.id] ∧ new.query? i.query = some p ∧
      ∀ cause, i.cause = some cause → p.totals = q.totals.set cause.total (q.totals.getD cause.total 0 + 40 * (s.time - i.since)) := by
  have prepared : ((s.query? i.query).bind fun q => (q.opOf i.op).map (q, ·.2)) = some (q, o) := by simp [found, named]
  have counted := s.query?_addTotal i.query ((i.cause.map ParkCause.total).getD 0) (s.time - i.since)
  rw [found] at counted
  have unparks : execItemUnpark i.id s = .next (s.unparkItem i.id ((i.cause.map ParkCause.total).getD 0)) := by
    simp only [execItemUnpark, listed, prepared, context, parked, resolved, beq_self_eq_true, Bool.and_self, if_true]
  rw [exec_itemUnpark, unparks]
  unfold State.unparkItem
  rw [listed]
  dsimp only
  rw [if_pos (by rw [parked]; rfl)]
  refine ⟨_, _, congrArg _ (State.deadlineCheck_of_ahead counted ahead rfl rfl), State.of_mem_modItem fun _ => rfl, rfl, counted, fun cause h => ?_⟩
  rw [h]
  rfl

/-! ### Ending -/

/-- What the end of an item's range on a fixed-function unit leaves (R219). -/
def State.rangeEnded (s : State) (q : Query) (o : OpDesc) (i : Item) (c : OpCtx) : State :=
  let left := ((s.setOp q.tag i.op (c.itemEnded o i)).releaseOutputs q o i.id false).dropItem i
  if o.code = opAggHash ∨ o.code = opAggScalar ∨ o.code = opSketch then left.aggSettle q o i.op else left

theorem State.endRange_of_done (served : s.service r = some (i, q, im, o, c)) (unit : o.code ≠ opCompute)
    (done : s.rangeDone q im o i c = true) : s.endRange r = some (s.rangeEnded q o i c) := by
  simp only [State.endRange, State.rangeEnded, served, unit, done, if_false, if_true, Bool.or_eq_true, decide_eq_true_eq, or_assoc]

theorem execItemEnd_of_done (served : s.service r = some (i, q, im, o, c)) (going : q.st ≠ .stopping) (unit : o.code ≠ opCompute)
    (done : s.rangeDone q im o i c = true) : exec (.itemEnd r) s = .next (s.rangeEnded q o i c) := by
  obtain ⟨runs, found, -, -⟩ := State.service_eq served
  simp only [exec_itemEnd, execItemEnd, runs, found, going, served, unit, State.endRange_of_done served unit done, if_false,
    Option.getD_some]

theorem State.listed_of_running? (runs : s.running? r = some i) : ∃ j ∈ s.disp.items, j.id = i.id :=
  ⟨i, List.mem_of_find?_eq_some (State.running_of_running? runs).2, rfl⟩

theorem execItemEnd_of_stopping (runs : s.running? r = some i) (found : s.query? i.query = some q) (stopping : q.st = .stopping) :
    exec (.itemEnd r) s = .next (s.endStopping r i q) := by
  simp only [exec_itemEnd, execItemEnd, runs, found, stopping, if_true]

/-- An item that ends with its query leaves the Dispatcher and its runner; on a unit nothing else happens (R219). -/
theorem State.endStopping_ends (q : Query) (runs : s.running? r = some i) :
    (∀ x, x ∈ (s.endStopping r i q).disp.items → x.id ≠ i.id) ∧ ((s.endStopping r i q).runner r).running = none ∧
      (r.kind ≠ .ec → s.endStopping r i q = (s.endStall i.id 0).removeItems fun j => j.id == i.id) := by
  have after (u : State) (disp : u.disp = s.disp) : (((u.endStall i.id 0).removeItems fun j => j.id == i.id).runner r).running = none := by
    obtain ⟨runner, ids⟩ := u.endStall_keeps i.id 0
    refine State.removeItems_idle ?_ ?_
    · rw [runner]
      exact (congrArg (fun d : Disp => (AMap.get d.runners r RunnerState.idle).running) disp).trans (State.running_of_running? runs).1
    · obtain ⟨j, mem, id⟩ := State.listed_of_running? runs
      have numbered : i.id ∈ (u.endStall i.id 0).disp.items.map (·.id) := by
        rw [ids, disp]; exact List.mem_map.mpr ⟨j, mem, id⟩
      exact List.mem_map.mp numbered
  unfold State.endStopping
  dsimp only
  refine ⟨State.removeItems_gone _ _, ?_, fun unit => by rw [if_neg unit]⟩
  split
  · exact after _ rfl
  · exact after _ rfl

end Runs

/-! ### A blocked quota -/

/-- Of two queries the one fetched later. -/
def laterQuery (b : Option Query) (q : Query) : Option Query :=
  match b with
  | none => some q
  | some p => if p.no < q.no then some q else some p

/-- The query fetched last of a list is what the choice among them ends with. -/
theorem foldl_laterQuery {q : Query} (l : List Query) (last : ∀ p, p ∈ l → p.no ≤ q.no ∧ (p.no = q.no → p = q)) (b : Option Query)
    (before : b = some q ∨ q ∈ l ∧ ∀ p, b = some p → p.no < q.no) : l.foldl laterQuery b = some q := by
  induction l generalizing b with
  | nil => exact before.resolve_right fun h => absurd h.1 List.not_mem_nil
  | cons p rest ih =>
    obtain ⟨least, same⟩ := last p List.mem_cons_self
    refine ih (fun x mem => last x (List.mem_cons_of_mem _ mem)) _ ?_
    rcases before with rfl | ⟨mem, lower⟩
    · exact .inl (if_neg (Nat.not_lt.mpr least))
    · by_cases h : p = q
      · subst h
        refine .inl ?_
        cases b with
        | none => rfl
        | some x => exact if_pos (lower x rfl)
      · have below : p.no < q.no := Nat.lt_of_le_of_ne least (mt same h)
        refine .inr ⟨(List.mem_cons.mp mem).resolve_left (Ne.symm h), fun x hx => ?_⟩
        cases b with
        | none => cases hx; exact below
        | some y =>
          have either : (if y.no < p.no then some p else some y) = some x := hx
          split at either <;> cases either
          · exact below
          · exact lower _ rfl

/-- A SPILL quota that stays blocked stops, of the queries with an item parked on SPILL, the one fetched last with QUOTA (R236; 15 R464, R465). -/
theorem execSpillBlock_eq {s : State} {inst : BitVec 8} {q : Query} (listed : q ∈ s.queries) (mine : q.tag.inst = inst)
    (waits : ∃ x, x ∈ s.disp.items ∧ x.query = q.tag ∧ x.st = .parked ∧ x.lastStop = 3)
    (last : ∀ p, p ∈ s.queries → p.tag.inst = inst → p.no ≤ q.no ∧ (p.no = q.no → p = q))
    (blocked : ∀ x, x ∈ s.disp.items → x.query.inst = inst → s.holdsSpill x.query = true →
      x.st = .parked ∧ (x.lastStop = 3 ∨ x.lastStop = 4)) :
    exec (.spillBlock inst) s = .next (s.stopQuery q.tag stQuota) := by
  obtain ⟨x, mem, ofQuery, parked, why⟩ := waits
  have onSpill : (s.disp.items.any fun i => i.query == q.tag && i.st == .parked && i.lastStop == 3) = true :=
    List.any_eq_true.mpr ⟨x, mem, by simp [ofQuery, parked, why]⟩
  have free : (s.disp.items.any fun i => i.query.inst == inst && s.holdsSpill i.query &&
      !(i.st == .parked && (i.lastStop == 3 || i.lastStop == 4))) = false := by
    refine List.any_eq_false.mpr fun y mem => ?_
    simp only [Bool.and_eq_true, beq_iff_eq, Bool.not_eq_true']
    rintro ⟨⟨same, held⟩, runs⟩
    obtain ⟨parked, why⟩ := blocked y mem same held
    rcases why with h | h <;> simp [parked, h] at runs
  have chosen := foldl_laterQuery (q := q) (s.queries.filter fun p => p.tag.inst == inst &&
      s.disp.items.any fun i => i.query == p.tag && i.st == .parked && i.lastStop == 3)
    (fun p mem => by
      obtain ⟨mem, keeps⟩ := List.mem_filter.mp mem
      exact last p mem (by simpa using (Bool.and_eq_true_iff.mp keeps).1))
    none (.inr ⟨List.mem_filter.mpr ⟨listed, by rw [onSpill, mine]; simp⟩, fun p h => by cases h⟩)
  rw [exec_spillBlock]
  unfold execSpillBlock
  dsimp only
  split
  · rename_i none
    cases chosen.symm.trans none
  · rename_i p some
    obtain rfl : q = p := Option.some.inj (chosen.symm.trans some)
    rw [free, if_neg Bool.false_ne_true]

/-! ### The settling -/

/-- Settles O46: the clauses in the order of an item's life, each by the lemma about its command. -/
theorem itemsAreGeneratedRunAndEnded : Obligations.ItemsAreGeneratedRunAndEnded := by
  unfold Obligations.ItemsAreGeneratedRunAndEnded
  intro s t op flow r
  dsimp only
  refine ⟨fun q im o c fl found serving named context going room flows => ?generation, fun q o fl origin count out flows =>
    State.newItem_generated o origin count out flows, fun i empty next => ?slot, fun i j occupied found eligible usable higher worst => ?recalling,
    fun i q slotted idle serves found ahead =>
      ⟨fun unit => ?startOnUnit, fun im o d ec mode halted named compute new kernel => ?startOnEc⟩,
    fun p i runs found eligible full target first other => ?preemption, fun p n runs due slot found => execPreemption_again runs due slot found,
    fun p q found => ⟨State.stopDueItem_of_going found, State.stopDueItem_of_stopping found⟩, s.returnItem_returned,
    fun i q im o c cause served holds stands => ?parking,
    fun i q im o c listed found named context parked resolved ahead => execItemUnpark_eq listed found named context parked resolved ahead,
    fun i q im o c served going unit done => ?ending,
    fun i q runs found stopping => ⟨execItemEnd_of_stopping runs found stopping, State.endStopping_ends q runs⟩,
    fun inst q listed mine found running waits last blocked => ?blockedQuota⟩
  case generation =>
    have may : Generates s t op flow q im o c := ⟨found, serving, named, context, going, room, fl, flows⟩
    exact ⟨fun scan slot lo n range => may.scan scan range, may.compute, may.fed⟩
  case slot =>
    exact ⟨_, execSlotFill_eq empty next, s.refill.slotItem_slotted r i⟩
  case recalling =>
    obtain ⟨slot, -⟩ := State.slot_of_slotted? occupied
    refine ⟨_, execRecall_eq occupied found eligible usable higher worst, ?_⟩
    rw [State.recallSlot_eq slot]
    exact ⟨by rw [State.runner_returnItem, State.runner_setRunner_self], State.returnItem_returned _ i.id 6⟩
  case startOnUnit =>
    obtain ⟨running, slot, startedAt, items⟩ := s.taken_running r i
    refine ⟨_, execItemTake_eq slotted idle serves found ahead fun ec => absurd ec unit, ?_⟩
    rw [if_neg unit]
    exact ⟨running, slot, startedAt, items, rfl⟩
  case startOnEc =>
    obtain ⟨running, -, -, items⟩ := s.taken_running r i
    obtain ⟨-, -, disp⟩ := (s.taken r i).startOnEc_keeps r (i.started s.time)
    refine ⟨_, execItemTake_eq slotted idle serves found ahead fun _ => ⟨mode, halted⟩, ?_⟩
    rw [if_pos ec, (s.taken r i).core_startOnEc r (i := i.started s.time) found named compute new kernel, State.runner, disp]
    exact ⟨running, items, Core.startKernel_fresh ..⟩
  case preemption =>
    obtain ⟨slot, running, items, -, -, -⟩ := (s.recallSlot r).slotItem_slotted r i
    refine ⟨slot, ?_, items, execPreemption_target runs found eligible full target first other⟩
    rw [running, State.running_recallSlot]
    exact (State.running_of_running? runs).1
  case parking =>
    obtain ⟨-, found, named, -⟩ := State.service_eq served
    obtain ⟨parked, idle⟩ := State.leftParked_parked (r := r) cause 0 found named
    obtain ⟨yielded, free⟩ := State.leftParked_parked (r := r) cause 50 found named
    refine ⟨fun going => ⟨fun other => ?_, fun page write fault => ?_, fun kind => ?_, parked, idle, yielded, free⟩,
      fun stopping => ⟨congrArg _ (State.parkRunning_of_stopping served holds stands stopping), fun kind => ?_⟩⟩
    · refine congrArg _ ((State.parkRunning_of_going served holds stands going).trans ?_)
      rw [State.pageDue_of_ne q i other]
      rfl
    · refine congrArg _ ((State.parkRunning_of_going served holds stands going).trans ?_)
      rw [fault]
      rfl
    · rw [execStallYield_eq kind, State.parkRunning_of_going served holds stands going, State.pageDue_of_ne q i fun page write h => by
        rcases kind with k | k <;> cases k.symm.trans h]
      rfl
    · rw [execStallYield_eq kind, State.parkRunning_of_stopping served holds stands stopping]
  case ending =>
    obtain ⟨runs, -, -, -⟩ := State.service_eq served
    exact ⟨execItemEnd_of_done served going unit done, s.removeItems_gone i.id,
      State.removeItems_idle (State.running_of_running? runs).1 (State.listed_of_running? runs)⟩
  case blockedQuota =>
    obtain ⟨p, after, st, status⟩ := State.stopQuery_status stQuota found running
    exact ⟨_, p, execSpillBlock_eq listed mine waits last blocked, after, st, status⟩

end Sys2Proof.Machine
end

section
/-! SUPPORT. What the commands of an operator read of it, and what sorting and a fresh item come to (07 R217). -/

namespace Sys2Proof.Machine

/-! ### Sorted lists -/

theorem insertBy_perm {α : Type} (lt : α → α → Bool) (x : α) (l : List α) : (insertBy lt x l).Perm (x :: l) := by
  induction l with
  | nil => exact .refl _
  | cons a r ih =>
    rw [insertBy]
    split
    · exact .refl _
    · exact (ih.cons a).trans (.swap x a r)

theorem sortBy_perm {α : Type} (lt : α → α → Bool) (l : List α) : (sortBy lt l).Perm l := by
  have grows : ∀ acc : List α, (l.foldl (fun acc x => insertBy lt x acc) acc).Perm (l ++ acc) := by
    induction l with
    | nil => exact fun acc => .refl _
    | cons a r ih =>
      exact fun acc => (ih _).trans (((insertBy_perm lt a acc).append_left r).trans List.perm_middle)
  simpa [sortBy] using grows []

theorem map_fst_filter_zipIdx {α : Type} (p : α → Bool) (l : List α) : (l.zipIdx.filter fun e => p e.1).map (·.1) = l.filter p := by
  have both : (l.zipIdx.map (·.1)).filter p = (l.zipIdx.filter fun e => p e.1).map (·.1) := List.filter_map
  rw [← both, List.zipIdx_map_fst]

theorem length_rotate {α : Type} (n : Nat) (l : List α) : (rotate n l).length = l.length := by
  rw [rotate, List.length_append, List.length_drop, List.length_take]
  omega

/-! ### Contexts and queries -/

@[simp] theorem State.op?_setOp_self (s : State) (t : Tag) (op : BitVec 16) (c : OpCtx) : (s.setOp t op c).op? t op = some c :=
  AMap.find?_insert_self ..

theorem State.modQuery_of_same (s : State) (t : Tag) {g : Query → Query} (same : ∀ q, g q = q) : s.modQuery t g = s := by
  have all : (fun q : Query => if q.tag = t then g q else q) = id := by funext q; simp [same]
  rw [State.modQuery, all, List.map_id]

/-- An operator of a query that is not ending, with its context. -/
structure Operates (s : State) (t : Tag) (op : BitVec 16) (q : Query) (im : Image) (o : OpDesc) (c : OpCtx) : Prop where
  found : s.query? t = some q
  serving : q.st = .running ∨ q.st = .paused
  named : q.opOf op = some (im, o)
  context : s.op? t op = some c

section Operates

variable {s : State} {t : Tag} {op : BitVec 16} {q : Query} {im : Image} {o : OpDesc} {c : OpCtx}

theorem Operates.prepared (h : Operates s t op q im o c) : ((s.query? t).bind fun q => (q.opOf op).map (q, ·)) = some (q, im, o) := by
  simp [h.found, h.named]

theorem Operates.described (h : Operates s t op q im o c) :
    ((s.query? t).bind fun q => (q.opOf op).map fun e => (q, e.2)) = some (q, o) := by simp [h.found, h.named]

theorem Operates.serves (h : Operates s t op q im o c) : (decide (q.st ≠ .running) && decide (q.st ≠ .paused)) = false := by
  rcases h.serving with st | st <;> simp [st]

theorem Operates.tag (h : Operates s t op q im o c) : q.tag = t := State.tag_of_query? h.found

end Operates

/-! ### Fresh items -/

@[simp] theorem State.op?_newItem (s : State) (q : Query) (o : OpDesc) (op : BitVec 16) (flow : BitVec 8) (origin : BitVec 64) (count : Nat)
    (out : List OutWord) : (s.newItem q o op flow origin count out).op? = s.op? := by
  unfold State.newItem
  split <;> rfl

@[simp] theorem State.op?_modItem (s : State) (n : Nat) (g : Item → Item) : (s.modItem n g).op? = s.op? := rfl
@[simp] theorem State.op?_tick (s : State) : s.tick.op? = s.op? := rfl

/-- A change of one item that keeps its number leaves the others listed as they were. -/
theorem State.mem_modItem_of_ne (s : State) {n : Nat} {g : Item → Item} (keeps : ∀ i, (g i).id = i.id) {x : Item} (other : x.id ≠ n) :
    x ∈ (s.modItem n g).disp.items ↔ x ∈ s.disp.items := by
  refine List.mem_map.trans ⟨?_, fun mem => ⟨x, mem, if_neg other⟩⟩
  rintro ⟨y, mem, rfl⟩
  by_cases same : y.id = n
  · rw [if_pos same, keeps] at other
    exact absurd same other
  · rwa [if_neg same]

/-- An item just generated, once its Local Store and OPSTATE are set; the others stand as they did. -/
theorem State.newItem_set {s : State} {q : Query} {op : BitVec 16} {flow : BitVec 8} (o : OpDesc) (origin : BitVec 64) (count : Nat)
    (out : List OutWord) (units : Nat) (opstate : BitVec 32) (flows : (AMap.find? s.disp.flows (q.tag, op, flow)).isSome = true) :
    let new := (s.newItem q o op flow origin count out).modItem s.disp.nextItem fun i => { i with ls := units, opstate := opstate }
    (∃ i, i ∈ new.disp.items ∧ i.id = s.disp.nextItem ∧ i.flow = flow ∧ i.op = op ∧ i.query = q.tag ∧ i.origin = origin ∧ i.count = count ∧
      i.st = .ready) ∧ ∀ x, x.id ≠ s.disp.nextItem → (x ∈ new.disp.items ↔ x ∈ s.disp.items) := by
  obtain ⟨fl, flows⟩ := Option.isSome_iff_exists.mp flows
  obtain ⟨i, items, id, -, -, st, query, hop, hflow, -, -, -, -, horigin, hcount, -⟩ := State.newItem_generated o origin count out flows
  refine ⟨⟨{ i with ls := units, opstate := opstate }, List.mem_map.mpr ⟨i, ?_, if_pos id⟩, id, hflow, hop, query, horigin, hcount, st⟩,
    fun x other => ?_⟩
  · rw [items]
    exact List.mem_append_right _ (List.mem_singleton.mpr rfl)
  · refine (State.mem_modItem_of_ne _ ?keeps other).trans ?_
    case keeps => exact fun _ => rfl
    rw [items, List.mem_append, List.mem_singleton, or_iff_left]
    rintro rfl
    exact other id

end Sys2Proof.Machine
end

section
/-! HASH_BUILD and HASH_PROBE (09 R277, R281-R286): the handle frame, the partitioning of a build, the rows of a probe row and the pass over
the build rows. -/

namespace Sys2Proof.Machine

/-! ### A probe row against the whole build -/

/-- The build rows of a key, in the build's order. -/
def OpCtx.matching (c : OpCtx) (key : Bytes) : List BuildRow := c.build.filter fun r => !r.nullKey && r.key == key

/-- A key's walk meets its build rows, and no others: equal keys fall into one bucket (R275). -/
theorem chainWalk_table_perm (c : OpCtx) (key : Bytes) : ((chainWalk c.table.rows key).map (·.1)).Perm (c.matching key) := by
  refine ((sortBy_perm _ _).map _).trans (.of_eq ?_)
  rw [List.filter_filter, OpCtx.matching, ← map_fst_filter_zipIdx _ c.build]
  change List.map _ (List.filter _ c.build.zipIdx) = _
  refine congrArg (List.map _) (List.filter_congr fun r _ => ?_)
  by_cases same : r.1.key = key
  · simp [same]
  · simp [beq_eq_false_iff_ne.mpr same]

/-- The entries of a key's walk that a probe row is joined with: with UNIQUE the first only. -/
def probeMatches (b : OpDesc) (bc : OpCtx) (key : Bytes) : List (BuildRow × Nat) :=
  if bit (b.p 17 1) 2 then (chainWalk bc.table.rows key).take 1 else chainWalk bc.table.rows key

theorem probeMatches_eq_nil (b : OpDesc) (bc : OpCtx) (key : Bytes) : probeMatches b bc key = [] ↔ bc.matching key = [] := by
  have walk : chainWalk bc.table.rows key = [] ↔ bc.matching key = [] := by
    rw [← List.map_eq_nil_iff, ← List.perm_nil, ← List.perm_nil]
    exact ⟨(chainWalk_table_perm bc key).symm.trans, (chainWalk_table_perm bc key).trans⟩
  rw [← walk, probeMatches]
  split <;> simp

section ProbeRow

variable {o : OpDesc} (b : OpDesc) (bc : OpCtx) (key : Bytes) (row : Vals)

/-- The carried runs of a probe row. -/
def OpDesc.carried (o : OpDesc) (row : Vals) : Vals := o.carry.map fun k => (row[k]?).join

/-- A probe row with each build row that it is joined with. -/
def probePairs (o b : OpDesc) (bc : OpCtx) (key : Bytes) (row : Vals) : List Vals :=
  (probeMatches b bc key).map fun r => o.carried row ++ r.1.payload

theorem probePairs_perm (many : bit (b.p 17 1) 2 = false) :
    (probePairs o b bc key row).Perm ((bc.matching key).map fun r => o.carried row ++ r.payload) := by
  rw [probePairs, probeMatches, many, if_neg Bool.false_ne_true]
  simpa [Function.comp_def] using (chainWalk_table_perm bc key).map fun r => o.carried row ++ r.payload

theorem chainWalk_before_table : chainWalk bc.table.before key = [] := rfl
theorem last_table : bc.table.last = true := rfl

theorem probeRow_snd : (probeRow o b bc bc.table key false row).2 = true ↔ bc.matching key ≠ [] := by
  rw [ne_eq, ← probeMatches_eq_nil b]
  simp [probeRow, chainWalk_before_table, probeMatches]

theorem probeRow_null_snd : (probeRow o b bc bc.table key true row).2 = false := by simp [probeRow]

theorem probeRow_inner (kind : o.kind = 0 ∨ o.kind = 2) : (probeRow o b bc bc.table key false row).1 = probePairs o b bc key row := by
  rcases kind with kind | kind <;> simp [probeRow, kind, chainWalk_before_table, probePairs, probeMatches, OpDesc.carried]

theorem probeRow_outer (kind : o.kind = 1 ∨ o.kind = 3) : (probeRow o b bc bc.table key false row).1 =
    if bc.matching key = [] then [o.carried row ++ b.payload.map fun _ => none] else probePairs o b bc key row := by
  have taken := probeMatches_eq_nil b bc key
  rw [probeMatches] at taken
  rw [probePairs, probeMatches]
  by_cases alone : bc.matching key = []
  · rcases kind with kind | kind <;>
      simp [probeRow, kind, chainWalk_before_table, last_table, taken.mpr alone, alone, OpDesc.carried]
  · rcases kind with kind | kind <;>
      simp [probeRow, kind, chainWalk_before_table, last_table, mt taken.mp alone, alone, OpDesc.carried]

theorem probeRow_semi (kind : o.kind = 4) : (probeRow o b bc bc.table key false row).1 =
    if bc.matching key = [] then [] else [o.carried row] := by
  have taken := probeMatches_eq_nil b bc key
  rw [probeMatches] at taken
  by_cases alone : bc.matching key = []
  · simp [probeRow, kind, chainWalk_before_table, taken.mpr alone, alone]
  · simp [probeRow, kind, chainWalk_before_table, mt taken.mp alone, alone, OpDesc.carried]

theorem probeRow_anti (kind : o.kind = 5) : (probeRow o b bc bc.table key false row).1 =
    if bc.matching key = [] then [o.carried row] else [] := by
  have taken := probeMatches_eq_nil b bc key
  rw [probeMatches] at taken
  by_cases alone : bc.matching key = []
  · simp [probeRow, kind, chainWalk_before_table, last_table, taken.mpr alone, alone, OpDesc.carried]
  · simp [probeRow, kind, chainWalk_before_table, last_table, mt taken.mp alone, alone]

end ProbeRow

/-! ### The commands of a join -/

section Join

variable {s : State} {t : Tag} {op : BitVec 16} {q : Query} {im : Image} {o : OpDesc} {c : OpCtx}

/-- The handle frame: the table's handle and the number of build rows (R277). -/
def handleWords (s : State) (c : OpCtx) : List (BitVec 512) :=
  toWords ((rowsFrame [0x09, 0x09] [[some (mkVal 0x09 (Config.tableHandle s.free).toNat), some (mkVal 0x09 c.buildRows)]] 0).bytes s.free)

theorem execHandleFramePush_eq (h : Operates s t op q im o c) (code : o.code = opBuild) (due : c.handleSent = false)
    (drained : s.inputsDrained q o = true) (idle : s.opItems t op = []) {k : BitVec 16} {u : State} (out : o.outs[0]? = some k)
    (pushed : State.pushWords (q.stream k) 0 (handleWords s c) s = some u) :
    exec (.handleFramePush t op) s = .next (((u.setOp t op { c with handleSent := true }).tick).settleOps t) := by
  rw [exec_handleFramePush]
  unfold execHandleFramePush
  rw [h.prepared, h.context]
  dsimp only
  rw [if_neg (by rw [h.serves]; simp [code, due, drained, idle]), out]
  dsimp only
  rw [← handleWords, pushed]

theorem execBuildPartition_eq (h : Operates s t op q im o c) (code : o.code = opBuild) (whole : c.partitioned = false) {i : Item}
    {f : Frame} {bs : Bytes} (mem : i ∈ s.opItems t op) (held : s.heldFrame q i 0 = some bs) (read : readFrame bs = some f)
    (refused : s.buildRefused q o c (payloadTypes f.types o.payload) (c.build ++ buildRowsOf o f) = true) :
    exec (.buildPartition t op) s = .next (s.setOp t op { c with
      partitioned := true
      spill := min (buildPages (payloadTypes (AMap.get c.shapes 0 []) o.payload) c.build) (c.spill + s.spillRoom t.inst) }) := by
  rw [exec_buildPartition]
  unfold execBuildPartition
  rw [h.described, h.context]
  dsimp only
  refine if_neg ?_
  simp only [code, whole, ne_eq, not_true_eq_false, decide_false, Bool.false_or, Bool.not_eq_true, Bool.not_eq_false', List.any_eq_true]
  exact ⟨i, mem, by simp only [held, Option.bind_some, read, refused]⟩

/-- The build rows that a probe's pass emits: those that met a probe row, or those that did not (R285). -/
def passBuild (o : OpDesc) (bc : OpCtx) : List BuildRow := bc.build.filter fun r => if o.kind = 7 then r.hit else !r.hit

/-- The rows of the pass: after nulls in place of the probe's runs, where it has those (R285). -/
def passRows (o : OpDesc) (bc : OpCtx) : List Vals :=
  (passBuild o bc).map fun r => (if o.kind = 7 ∨ o.kind = 8 then [] else o.carry.map fun _ => none) ++ r.payload

theorem execUnmatchedBuildPass_eq (h : Operates s t op q im o c) (code : o.code = opProbe) {bop : BitVec 16} {b : OpDesc} {bc : OpCtx}
    (built : s.buildOf q im o = some (bop, b, bc)) (kind : kindPass o.kind = true) (due : c.passDone = false)
    (drained : s.inputsDrained q o = true) (idle : s.opItems t op = []) (joined : c.probes = [] ∨ c.merging = true)
    (room : s.disp.items.length < 262144) :
    exec (.unmatchedBuildPass t op) s =
      .next (let u := s.setOp t op { c with passDone := true }
        if passBuild o bc = [] then u.settleOps t
        else (u.newItem q o op 1 0 (passBuild o bc).length
          (emitRows (if o.outs.length = 2 then 1 else 0) (joinTypes o b c bc) s.free (passRows o bc))).tick) := by
  have lead : (if buildOnly o.kind = true then ([] : Vals) else o.carry.map fun _ => none) =
      if o.kind = 7 ∨ o.kind = 8 then [] else o.carry.map fun _ => none := by simp [buildOnly]
  have fits : s.itemRoom = true := decide_eq_true room
  have met : (c.probes.isEmpty || c.merging) = true := by simpa using joined
  rw [exec_unmatchedBuildPass]
  unfold execUnmatchedBuildPass
  rw [h.prepared, h.context]
  dsimp only
  rw [built]
  dsimp only
  rw [lead, ← passBuild, ← passRows, if_neg (by rw [h.serves]; simp [code, kind, due, drained, idle, fits, met])]
  simp only [List.isEmpty_iff, passRows, List.map_eq_nil_iff, List.length_map]
  split <;> rfl

end Join

end Sys2Proof.Machine
end

section
/-! PARTITION_EMIT (09 R290, R294): the tables that a partition is emitted from, and the item that emits their groups. -/

namespace Sys2Proof.Machine

/-- How many groups a partition's tables hold, a row each. -/
def groupRows (tables : List (Option (BitVec 32) × List Group)) : Nat := (tables.map fun e => e.2.length).sum

/-- The groups of tables, each with its table's OPSTATE. -/
def groupEntries (tables : List (Option (BitVec 32) × List Group)) : List (Option (BitVec 32) × Group) :=
  tables.flatMap fun e => e.2.map (e.1, ·)

theorem length_groupEntries (tables : List (Option (BitVec 32) × List Group)) : (groupEntries tables).length = groupRows tables := by
  simp [groupEntries, groupRows, List.length_flatMap]

/-- A partition that is not spilled is emitted from its final table; AGG_SCALAR has one group always (R294). -/
theorem groupRows_partTables {d : OpCtx} {part : BitVec 8} (s : State) (q : Query) (im : Image) (o : OpDesc)
    (whole : AMap.has d.spilled part = false) : groupRows (s.partTables q im o d part) =
      if AMap.get d.finals part [] = [] ∧ o.code = opAggScalar then 1 else (AMap.get d.finals part []).length := by
  rw [State.partTables, whole, if_neg Bool.false_ne_true]
  cases table : AMap.get d.finals part [] with
  | nil => by_cases scalar : o.code = opAggScalar <;> simp [scalar, groupRows]
  | cons g gs => simp [groupRows, length_rotate]

/-- A partition's flushed tables leave the Dispatcher as it was. -/
theorem State.disp_aggSettle (s : State) (q : Query) (o : OpDesc) (op : BitVec 16) : (s.aggSettle q o op).disp = s.disp := by
  unfold State.aggSettle
  split
  · dsimp only
    split <;> rfl
  · rfl

section Emit

variable {s u : State} {t : Tag} {op : BitVec 16} {q : Query} {im : Image} {o : OpDesc} {c d : OpCtx} {part : BitVec 8}

/-- A partition whose groups are due: every partial flow has ended, its records are merged, and no item of its flow is left (R290). -/
structure EmitDue (u : State) (t : Tag) (op : BitVec 16) (q : Query) (o : OpDesc) (d : OpCtx) (part : BitVec 8) : Prop where
  code : o.code = opAggHash ∨ o.code = opAggScalar ∨ o.code = opSketch
  context : u.op? t op = some d
  listed : part.toNat < o.parts
  due : part ∉ d.emitted
  partials : u.partialsEnded q o op = true
  merged : AMap.get d.records part [] = []
  idle : u.flowItems t op (BitVec.ofNat 8 (o.pflows + part.toNat)) = []
  room : u.disp.items.length < 262144

/-- A partition without groups emits nothing; else the last item of its flow emits a row for each (R290, R294). What its frames hold, and
what the query counts of sums that overflow, is left open. -/
theorem execPartitionEmit_eq (h : Operates s t op q im o c) (settled : s.aggSettle q o op = u) (due : EmitDue u t op q o d part) :
    let rows := groupRows (u.partTables q im o d part)
    let done : OpCtx := { d with emitted := part :: d.emitted }
    ∃ (g : Query → Query) (words : List OutWord) (units : Nat) (opstate : BitVec 32), exec (.partitionEmit t op part) s = .next (
      if rows = 0 then (u.setOp t op done).tick.settleOps t
      else ((((u.modQuery t g).setOp t op done).newItem q o op (BitVec.ofNat 8 (o.pflows + part.toNat)) 0 rows words).modItem
        u.disp.nextItem fun i => { i with ls := units, opstate := opstate }).tick) := by
  obtain ⟨code, context, listed, fresh, partials, merged, idle, room⟩ := due
  have fits : u.itemRoom = true := decide_eq_true room
  have agg : (o.code == opAggHash || o.code == opAggScalar || o.code == opSketch) = true := by simpa [or_assoc] using code
  rw [exec_partitionEmit]
  unfold execPartitionEmit
  rw [h.prepared]
  dsimp only
  rw [settled, context]
  dsimp only
  rw [agg, if_neg (by rw [h.serves]; simp [listed, fresh, partials, merged, idle, fits]), ← groupEntries]
  by_cases empty : groupRows (u.partTables q im o d part) = 0
  · have noEntry : groupEntries (u.partTables q im o d part) = [] := List.length_eq_zero_iff.mp ((length_groupEntries _).trans empty)
    refine ⟨id, [], 0, 0, ?_⟩
    simp only [noEntry, empty, List.zipIdx_nil, List.map_nil, List.sum_nil, List.isEmpty_nil, if_true]
    rw [State.modQuery_of_same u t fun _ => rfl]
  · rw [if_neg]
    · simp only [if_neg empty, List.length_map, List.length_zipIdx, length_groupEntries]
      exact ⟨_, _, _, _, rfl⟩
    · rw [List.isEmpty_iff, ← List.length_eq_zero_iff]
      simpa only [List.length_map, List.length_zipIdx, length_groupEntries] using empty

/-- The item that a partition with groups leaves: last of its flow, with a row for each group (R290). -/
theorem execPartitionEmit_item (h : Operates s t op q im o c) (settled : s.aggSettle q o op = u) (due : EmitDue u t op q o d part)
    (flows : (AMap.find? u.disp.flows (t, op, BitVec.ofNat 8 (o.pflows + part.toNat))).isSome = true)
    (many : groupRows (u.partTables q im o d part) ≠ 0) :
    ∃ new e i, exec (.partitionEmit t op part) s = .next new ∧ new.op? t op = some e ∧ part ∈ e.emitted ∧
      i ∈ new.disp.items ∧ i.id = s.disp.nextItem ∧ i.flow = BitVec.ofNat 8 (o.pflows + part.toNat) ∧ i.op = op ∧ i.query = t ∧
      i.origin = 0 ∧ i.count = groupRows (u.partTables q im o d part) ∧ i.st = .ready ∧
      ∀ x, x.id ≠ s.disp.nextItem → (x ∈ new.disp.items ↔ x ∈ s.disp.items) := by
  obtain ⟨g, words, units, opstate, exec⟩ := execPartitionEmit_eq h settled due
  rw [if_neg many] at exec
  have disp : u.disp = s.disp := by rw [← settled, State.disp_aggSettle]
  rw [← h.tag] at flows
  obtain ⟨⟨i, mem, id, hflow, hop, query, origin, count, st⟩, others⟩ :=
    State.newItem_set (s := (u.modQuery t g).setOp t op { d with emitted := part :: d.emitted }) o 0
      (groupRows (u.partTables q im o d part)) words units opstate flows
  simp only [setOp_disp, modQuery_disp, disp] at exec mem id others
  refine ⟨_, { d with emitted := part :: d.emitted }, i, exec, ?_, List.mem_cons_self, mem, id, hflow, hop, query.trans h.tag, origin, count,
    st, others⟩
  rw [State.op?_tick, State.op?_modItem, State.op?_newItem, State.op?_setOp_self]

end Emit

end Sys2Proof.Machine
end

section
/-! MERGE_FLOW_START, HURDLE_RELEASE (10 R311, R314, R331) and CODE_SET_BUILD (08 R257). -/

namespace Sys2Proof.Machine

/-! ### Streams behind hurdles -/

/-- The stream behind an index flows, unless something holds it. -/
def State.ungated (held : BitVec 16 → Bool) (q : Query) (s : State) (k : BitVec 16) : State :=
  match s.streamOf q k with
  | some st => if held k then s else s.setStream (q.stream k) { st with gated := false }
  | none => s

section Ungate

variable (held : BitVec 16 → Bool) (q : Query)

theorem State.ops_ungated (s : State) (k : BitVec 16) : (s.ungated held q k).ops = s.ops := by
  unfold State.ungated
  split
  · split <;> rfl
  · rfl

theorem State.stream?_ungated (s : State) (k : BitVec 16) (x : StreamRef) : (s.ungated held q k).stream? x =
    if q.stream k = x ∧ held k = false then (s.stream? x).map fun st => { st with gated := false } else s.stream? x := by
  unfold State.ungated State.streamOf
  by_cases same : q.stream k = x
  · subst same
    cases found : s.stream? (q.stream k) with
    | none => simp [found]
    | some st => cases holds : held k <;> simp [found]
  · cases found : s.stream? (q.stream k) with
    | none => simp [same]
    | some st =>
      have kept : (s.setStream (q.stream k) { st with gated := false }).stream? x = s.stream? x :=
        AMap.find?_insert_ne _ _ _ _ (Ne.symm same)
      cases holds : held k <;> simp [same, kept]

theorem State.ops_forEach_ungated (l : List (BitVec 16)) (s : State) : (forEach l s (State.ungated held q)).ops = s.ops := by
  unfold forEach
  induction l generalizing s with
  | nil => rfl
  | cons a r ih => exact (ih _).trans (State.ops_ungated held q s a)

/-- A stream that flows goes on flowing. -/
theorem State.stream?_forEach_ungated_of_open (l : List (BitVec 16)) {s : State} {x : StreamRef} {st : Stream}
    (found : s.stream? x = some { st with gated := false }) :
    (forEach l s (State.ungated held q)).stream? x = some { st with gated := false } := by
  unfold forEach
  induction l generalizing s with
  | nil => exact found
  | cons a r ih =>
    refine ih ?_
    rw [State.stream?_ungated, found]
    split <;> rfl

/-- Every listed stream that nothing holds flows. -/
theorem State.stream?_forEach_ungated {l : List (BitVec 16)} {s : State} {k : BitVec 16} {st : Stream} (mem : k ∈ l)
    (found : s.stream? (q.stream k) = some st) (free : held k = false) :
    (forEach l s (State.ungated held q)).stream? (q.stream k) = some { st with gated := false } := by
  induction l generalizing s with
  | nil => exact absurd mem List.not_mem_nil
  | cons a r ih =>
    change (forEach r (s.ungated held q a) (State.ungated held q)).stream? (q.stream k) = _
    have next := State.stream?_ungated held q s a (q.stream k)
    split at next
    · rw [found] at next
      exact State.stream?_forEach_ungated_of_open held q r next
    · rename_i other
      have later : k ∈ r := (List.mem_cons.mp mem).resolve_left fun same => other (same ▸ ⟨rfl, free⟩)
      exact ih later (next.trans found)

end Ungate

section Commands

/-! ### Releases and merges -/

variable {s : State} {t : Tag} {op : BitVec 16} {q : Query} {im : Image} {o : OpDesc} {c : OpCtx}

/-- Whether a hurdle that is not released yet holds the stream behind an index. -/
def State.heldByHurdle (s : State) (t : Tag) (im : Image) (k : BitVec 16) : Bool := im.ops.zipIdx.any fun e =>
  e.1.code == opHurdle && ((hurdleStreams e.1).any fun j => im.root j.toNat == im.root k.toNat) &&
    !((s.op? t (BitVec.ofNat 16 e.2)).any (·.merging))

/-- A stream is free once the one hurdle that it waits behind is released. -/
theorem State.heldByHurdle_of_released {k : BitVec 16} (released : (s.op? t op).any (·.merging) = true)
    (others : ∀ j p, im.ops[j]? = some p → p.code = opHurdle → j ≠ op.toNat →
      ∀ x, x ∈ hurdleStreams p → im.root x.toNat ≠ im.root k.toNat) :
    s.heldByHurdle t im k = false := by
  rw [State.heldByHurdle, List.any_eq_false]
  rintro ⟨p, j⟩ mem holds
  simp only [Bool.and_eq_true, beq_iff_eq, List.any_eq_true, Bool.not_eq_true'] at holds
  obtain ⟨⟨code, x, fused, root⟩, waits⟩ := holds
  by_cases same : j = op.toNat
  · subst same
    rw [BitVec.ofNat_toNat, BitVec.setWidth_eq, released] at waits
    exact Bool.noConfusion waits
  · exact others j p (List.mem_zipIdx_iff_getElem?.mp mem) code same x fused root

theorem execHurdleRelease_eq (h : Operates s t op q im o c) (code : o.code = opHurdle) (due : c.merging = false)
    (ended : ∀ k, k ∈ o.ins → ∃ st, s.stream? (q.stream k) = some st ∧ st.st = .ended) :
    let u := s.setOp t op { c with merging := true }
    exec (.hurdleRelease t op) s =
      .next ((forEach (hurdleStreams o) u (State.ungated (u.heldByHurdle t im) q)).settleOps t) := by
  have producers : (o.ins.all fun k => s.producerEnded q k) = true := by
    refine List.all_eq_true.mpr fun k mem => ?_
    obtain ⟨st, found, ended⟩ := ended k mem
    simp [State.producerEnded, State.streamOf, found, ended]
  rw [exec_hurdleRelease]
  unfold execHurdleRelease
  rw [h.prepared, h.context]
  dsimp only
  rw [if_neg (by rw [h.serves]; simp [code, due, producers])]
  rfl

theorem execMergeFlowStart_eq (h : Operates s t op q im o c) (code : o.code = opSort ∨ o.code = opTopk) (due : c.merging = false)
    (ended : s.runsEnded q o op = true) :
    exec (.mergeFlowStart t op) s = .next ((s.setOp t op { c with merging := true, passDone := c.runs.isEmpty }).settleOps t) := by
  have sorts : (decide (o.code ≠ opSort) && decide (o.code ≠ opTopk)) = false := by rcases code with code | code <;> simp [code]
  rw [exec_mergeFlowStart]
  unfold execMergeFlowStart
  rw [h.described, h.context]
  dsimp only
  rw [if_neg (by rw [h.serves, sorts]; simp [due, ended])]

/-! ### Code sets -/

/-- The search keys of a column's dictionary (R257, R258). -/
def dictKeys (p : Pred) (v : ColView) : List (Option (BitVec 320)) := v.dict.map (searchKey p.ftotal v.ty)

/-- The searches that the code set of a dictionary needs. -/
def State.dictNeeds (s : State) (q : Query) (p : Pred) (v : ColView) : Needs :=
  s.asaNeeds q (BitVec.ofNat 8 p.asa) allMask ((dictKeys p v).filterMap id)

/-- The code set of a dictionary: a bit for each entry, set where its search hits. -/
def State.dictBits (s : State) (q : Query) (p : Pred) (v : ColView) : List Bool :=
  (dictKeys p v).map fun k => k.elim false fun x => s.asaHit q (BitVec.ofNat 8 p.asa) x allMask

/-- A code set is due: a search predicate of a SCAN's column whose dictionary has no set yet, with Local Store for one (R257). -/
structure CodeSetDue (s : State) (q : Query) (im : Image) (o : OpDesc) (c : OpCtx) (entry pred : BitVec 8) (slot : BitVec 20) (col : ScanCol)
    (p : Pred) (v : ColView) (units : Nat) : Prop where
  code : o.code = opScan
  running : q.st = .running
  column : (scanCols im q.params o)[entry.toNat]? = some col
  predicate : (predList im q.params col.preds col.npred)[pred.toNat]? = some p
  search : p.op = 10 ∨ p.op = 11
  view : ∃ tb, AMap.find? q.snap (BitVec.ofNat 16 (o.p 4 2)) = some tb ∧
    s.colView tb (BitVec.ofNat 12 col.column) slot ((s.slotRows tb slot).getD 0) = v
  values : v.dict ≠ []
  fresh : AMap.find? c.codeSets (entry, pred, slot) = none
  size : ceilDiv (ceilDiv v.dict.length 8) 65536 = units
  room : s.lsUse q.tag.inst + units ≤ (s.inst q.tag.inst).lsUnits.toNat

theorem execCodeSetBuild_eq (h : Operates s t op q im o c) {entry pred : BitVec 8} {slot : BitVec 20} {col : ScanCol} {p : Pred} {v : ColView}
    {units : Nat} (due : CodeSetDue s q im o c entry pred slot col p v units) :
    exec (.codeSetBuild t op entry pred slot) s = .next (
      if s.readPages v v.dpages ≠ .good then
        s.readStop q (BitVec.ofNat 16 (o.p 4 2)) (BitVec.ofNat 12 col.column) slot v (s.readPages v v.dpages) v.dpages
      else if (s.dictNeeds q p v).met = false then s.sendNeeds (s.dictNeeds q p v)
      else s.setOp t op { c with
        codeSets := AMap.insert c.codeSets (entry, pred, slot) (s.dictBits q p v), lsUnits := c.lsUnits + units }) := by
  obtain ⟨code, running, column, predicate, search, ⟨tb, table, view⟩, values, fresh, size, room⟩ := due
  rw [h.tag] at room
  have described : (q.image.bind fun im => (im.op? op.toNat).map (im, ·)) = some (im, o) := h.named
  have scans : (if decide (o.code = opScan) && decide (q.st = .running) then AMap.find? q.snap (BitVec.ofNat 16 (o.p 4 2)) else none) =
      some tb := by simpa [code, running] using table
  have searches : (decide (p.op ≠ 10) && decide (p.op ≠ 11)) = false := by rcases search with op | op <;> simp [op]
  have listed : AMap.has c.codeSets (entry, pred, slot) = false := by rw [AMap.has, fresh]; rfl
  rw [exec_codeSetBuild]
  unfold execCodeSetBuild
  rw [h.found, h.context]
  dsimp only
  rw [described]
  dsimp only
  rw [scans, column]
  dsimp only
  rw [predicate]
  dsimp only
  rw [view, size, searches, listed, if_neg (by simpa using ⟨values, room⟩), ← dictKeys, ← State.dictNeeds]
  by_cases good : s.readPages v v.dpages = .good
  · have noStop : ¬(s.readPages v v.dpages ≠ .good) := fun bad => bad good
    rw [if_neg noStop, if_neg noStop]
    cases (s.dictNeeds q p v).met with
    | false => rfl
    | true =>
      exact congrArg (fun set => Host.Outcome.next (s.setOp t op { c with
        codeSets := AMap.insert c.codeSets (entry, pred, slot) set, lsUnits := c.lsUnits + units }))
        (List.map_congr_left fun k _ => by cases k <;> rfl)
  · rw [if_pos good, if_pos good]

end Commands

end Sys2Proof.Machine
end

section
/-! The operators between their items: the handle, the join, the emission of groups, merging, hurdles, code sets and UNION. -/

namespace Sys2Proof.Machine

/-- Settles O49: the clauses in their order, each by the lemma about its command. -/
theorem operatorsBuildProbeGroupAndMerge : Obligations.OperatorsBuildProbeGroupAndMerge := by
  unfold Obligations.OperatorsBuildProbeGroupAndMerge
  intro s t op q im o c found serving named context
  have h : Operates s t op q im o c := ⟨found, serving, named, context⟩
  refine ⟨fun code due drained idle k u out pushed => ?handle, fun code whole refused => ?partition,
    fun bop b bc code built => ⟨fun key row => ?probe, fun kind due drained idle joined room => ?pass⟩,
    fun part d code => ?emit, fun code due ended => execMergeFlowStart_eq h code due ended,
    fun code due ended => ?hurdle, fun entry pred slot tb col p code running table column predicate search => ?codes,
    fun i bs f first shape => ?union⟩
  case handle => exact execHandleFramePush_eq h code due drained idle out pushed
  case partition =>
    obtain ⟨i, f, bs, mem, held, read, refused⟩ := refused
    exact execBuildPartition_eq h code whole mem held read refused
  case probe =>
    have many (single : b.p 17 1 / 4 % 2 = 0) : bit (b.p 17 1) 2 = false := by
      rw [bit, Nat.testBit_eq_decide_div_mod_eq, decide_eq_false_iff_not, single]
      decide
    have pairs (single : b.p 17 1 / 4 % 2 = 0) := probePairs_perm (o := o) b bc key row (many single)
    exact ⟨probeRow_snd b bc key row, fun kind single => (List.Perm.of_eq (probeRow_inner b bc key row kind)).trans (pairs single),
      fun kind single met => (List.Perm.of_eq ((probeRow_outer b bc key row kind).trans (if_neg met))).trans (pairs single),
      fun kind alone => (probeRow_outer b bc key row kind).trans (if_pos alone),
      probeRow_semi b bc key row, probeRow_anti b bc key row, probeRow_null_snd b bc key row⟩
  case pass =>
    have pass := execUnmatchedBuildPass_eq h code built kind due drained idle joined room
    exact ⟨fun empty => pass.trans (congrArg _ (if_pos empty)), fun kept => pass.trans (congrArg _ (if_neg kept))⟩
  case emit =>
    intro u context listed fresh partials merged flow idle room flows rows
    have due : EmitDue u t op q o d part := ⟨code, context, listed, fresh, partials, merged, idle, room⟩
    refine ⟨groupRows_partTables u q im o, fun empty => ?_, execPartitionEmit_item h rfl due flows⟩
    obtain ⟨g, words, units, opstate, exec⟩ := execPartitionEmit_eq h rfl due
    exact exec.trans (congrArg _ (if_pos empty))
  case hurdle =>
    refine ⟨_, { c with merging := true }, execHurdleRelease_eq h code due ended, ?_, rfl, fun k st mem found others => ?_⟩
    · rw [State.op?, State.ops_forEach_ungated]
      exact State.op?_setOp_self s t op _
    · refine State.stream?_forEach_ungated _ q mem found (State.heldByHurdle_of_released (op := op) ?_ others)
      rw [State.op?_setOp_self]
      rfl
  case codes =>
    intro v units keys asa values fresh room
    obtain rfl := h.tag
    have build := execCodeSetBuild_eq h (v := v) ⟨code, running, column, predicate, search, ⟨tb, table, rfl⟩, values, fresh, rfl, room⟩
    have stops {r : ReadEnd} (read : s.readPages v v.dpages = r) (bad : r ≠ .good) :
        exec (.codeSetBuild q.tag op entry pred slot) s =
          .next (s.readStop q (BitVec.ofNat 16 (o.p 4 2)) (BitVec.ofNat 12 col.column) slot v r v.dpages) := by
      rw [build, read, if_pos bad]
    have goes (good : s.readPages v v.dpages = .good) := build.trans (congrArg _ (if_neg fun bad => bad good))
    exact ⟨fun wait => stops wait (by decide), fun lost => stops lost (by decide), fun invalid => stops invalid (by decide),
      fun good unmet => (goes good).trans (congrArg _ (if_pos unmet)),
      fun good met => (goes good).trans (congrArg _ (if_neg ((Bool.not_eq_false _).mpr met)))⟩
  case union =>
    rw [unionFrame, if_neg fun other => other first, shape]
    rfl

end Sys2Proof.Machine
end

section
/-! What a pod answers (11 R348-R351, R356): which entries match, and what each field of the answer reads. -/

namespace Sys2Proof.Machine

/-! ### Fields of words -/

theorem Bool.asNat_le_one (b : Bool) : Bool.asNat b ≤ 1 := by cases b <;> decide

theorem Bool.decide_asNat_eq_one (b : Bool) : decide (Bool.asNat b = 1) = b := by cases b <;> decide

theorem getLsbD_eq_decide_bits {w : Nat} (x : BitVec w) (i : Nat) : x.getLsbD i = decide (bits x.toNat i i = 1) := by
  rw [bits, Nat.add_sub_cancel_left, Nat.pow_one]
  exact Nat.testBit_eq_decide_div_mod_eq

theorem toNat_setWidth_ushiftRight {w : Nat} (x : BitVec w) (lo n : Nat) :
    ((x >>> lo).setWidth n).toNat = x.toNat / 2 ^ lo % 2 ^ n := by
  rw [BitVec.toNat_setWidth, BitVec.toNat_ushiftRight, Nat.shiftRight_eq_div_pow]

/-! ### The layout of an answer -/

section Layout

variable {hit stale : Bool} {count index wpos : Nat} {tag : BitVec 32}

theorem asaAnswer_toNat (room : index < 4096) (pos : wpos < 8) :
    (asaAnswer hit count stale index wpos tag).toNat = Bool.asNat hit + 2 * Bool.asNat (decide (2 ≤ count)) + 4 * min count 15 +
      64 * Bool.asNat stale + 256 * index + 2 ^ 20 * wpos + 2 ^ 32 * tag.toNat := by
  have := tag.isLt
  have := Bool.asNat_le_one hit
  have := Bool.asNat_le_one (decide (2 ≤ count))
  have := Bool.asNat_le_one stale
  rw [asaAnswer, BitVec.toNat_ofNat]
  omega

/-- Every field of R350 reads as it was laid out. -/
theorem asaAnswer_reads (room : index < 4096) (pos : wpos < 8) :
    let a := asaAnswer hit count stale index wpos tag
    answerHit a = hit ∧ a.getLsbD 1 = decide (2 ≤ count) ∧ answerCount a = min 15 count ∧ answerStale a = stale ∧
      answerIndex a = index ∧ answerWpos a = wpos ∧ answerTag a = tag := by
  have := tag.isLt
  have := Bool.asNat_le_one hit
  have := Bool.asNat_le_one (decide (2 ≤ count))
  have := Bool.asNat_le_one stale
  intro a
  have whole : a.toNat = _ := asaAnswer_toNat room pos
  have fields : bits a.toNat 0 0 = Bool.asNat hit ∧ bits a.toNat 1 1 = Bool.asNat (decide (2 ≤ count)) ∧
      bits a.toNat 5 2 = min 15 count ∧ bits a.toNat 6 6 = Bool.asNat stale ∧ bits a.toNat 19 8 = index ∧
      bits a.toNat 22 20 = wpos ∧ a.toNat / 2 ^ 32 % 2 ^ 32 = tag.toNat := by
    dsimp only [bits]
    rw [whole]
    refine ⟨?_, ?_, ?_, ?_, ?_, ?_, ?_⟩ <;> omega
  obtain ⟨hits, multis, counts, stales, indices, positions, tags⟩ := fields
  refine ⟨?_, ?_, counts, ?_, indices, positions, BitVec.eq_of_toNat_eq ((toNat_setWidth_ushiftRight a 32 32).trans tags)⟩
  · rw [answerHit, getLsbD_eq_decide_bits, hits, Bool.decide_asNat_eq_one]
  · rw [getLsbD_eq_decide_bits, multis, Bool.decide_asNat_eq_one]
  · rw [answerStale, getLsbD_eq_decide_bits, stales, Bool.decide_asNat_eq_one]

end Layout

/-! ### The entries that match -/

/-- Entry `k` takes part in a search's answer with its tag (R348, R349): it lies below ENTRIES, is valid, and equals the key at every bit
of the mask. -/
def Pod.Matches (p : Pod) (key mask : BitVec 320) (k : Nat) (tag : BitVec 32) : Prop :=
  k < p.entries ∧ ∃ e, p.entry? k = some (e, tag) ∧
    ∀ b, b < asaBits p.width.toNat → mask.getLsbD b = true → e.getLsbD b = key.getLsbD b

theorem asaBits_le (w : Nat) : asaBits w ≤ 320 := by
  unfold asaBits
  (repeat' split) <;> decide

/-- No bit below `n` that the mask takes differs. -/
theorem masked_xor_eq_zero {n : Nat} (narrow : n ≤ 320) (e key mask : BitVec 320) :
    (e ^^^ key) &&& mask &&& BitVec.ofNat 320 (2 ^ n - 1) = 0 ↔ ∀ b, b < n → mask.getLsbD b = true → e.getLsbD b = key.getLsbD b := by
  have at_bit {b : Nat} (inside : b < 320) : ((e ^^^ key) &&& mask &&& BitVec.ofNat 320 (2 ^ n - 1)).getLsbD b =
      ((e.getLsbD b ^^ key.getLsbD b) && mask.getLsbD b && decide (b < n)) := by
    rw [BitVec.getLsbD_and, BitVec.getLsbD_and, BitVec.getLsbD_xor, BitVec.getLsbD_ofNat, Nat.testBit_two_pow_sub_one,
      decide_eq_true inside, Bool.true_and]
  constructor
  · intro zero b low masked
    have differs := at_bit (Nat.lt_of_lt_of_le low narrow)
    rw [zero, masked, decide_eq_true low, Bool.and_true, Bool.and_true] at differs
    exact bne_eq_false_iff_eq.mp (differs.symm.trans BitVec.getLsbD_zero)
  · intro agrees
    refine BitVec.eq_of_getLsbD_eq fun b inside => (at_bit inside).trans (Eq.trans ?_ BitVec.getLsbD_zero.symm)
    cases masked : mask.getLsbD b with
    | false => rw [Bool.and_false, Bool.false_and]
    | true =>
      by_cases low : b < n
      · rw [agrees b low masked, Bool.xor_self, Bool.false_and, Bool.false_and]
      · rw [decide_eq_false low, Bool.and_false]

section Hits

variable (p : Pod) (key mask : BitVec 320) {k : Nat} {tag : BitVec 32} {r : List (Nat × BitVec 32)}

theorem Pod.mem_hits : (k, tag) ∈ p.hits key mask ↔ p.Matches key mask k tag := by
  have agrees := masked_xor_eq_zero (asaBits_le p.width.toNat) (key := key) (mask := mask)
  simp only [Pod.hits, List.mem_filterMap, List.mem_range, Pod.Matches]
  constructor
  · rintro ⟨j, low, found⟩
    split at found
    · next e entry =>
      obtain ⟨zero, eq⟩ := Option.ite_none_right_eq_some.mp found
      obtain ⟨rfl, rfl⟩ := Prod.mk.inj (Option.some.inj eq)
      exact ⟨low, e.1, entry, (agrees e.1).mp zero⟩
    · cases found
  · rintro ⟨low, e, entry, same⟩
    exact ⟨k, low, by rw [entry]; exact if_pos ((agrees e).mpr same)⟩

theorem Pod.hits_sorted : (p.hits key mask).Pairwise fun a b => a.1 < b.1 := by
  refine List.Pairwise.filterMap _ (fun i j lt a ha b hb => ?_) List.pairwise_lt_range
  split at ha
  · split at hb
    · obtain rfl := Option.some.inj (Option.ite_none_right_eq_some.mp ha).2
      obtain rfl := Option.some.inj (Option.ite_none_right_eq_some.mp hb).2
      exact lt
    · cases hb
  · cases ha

/-- The first hit is the matching entry that none below it matches. -/
theorem Pod.hits_of_first (found : p.Matches key mask k tag) (first : ∀ j t, j < k → ¬p.Matches key mask j t) :
    ∃ r, p.hits key mask = (k, tag) :: r := by
  have mem := (p.mem_hits key mask).mpr found
  have sorted := p.hits_sorted key mask
  cases hits : p.hits key mask with
  | nil => rw [hits] at mem; cases mem
  | cons head r =>
    obtain ⟨j, t⟩ := head
    rw [hits] at mem sorted
    cases mem with
    | head => exact ⟨r, rfl⟩
    | tail _ mem =>
      have lt := (List.pairwise_cons.mp sorted).1 _ mem
      have low : (j, t) ∈ p.hits key mask := hits ▸ List.mem_cons_self
      exact absurd ((p.mem_hits key mask).mp low) (first j t lt)

/-! ### The answer's fields -/

variable {p key mask}

theorem Pod.answer_of_miss (miss : p.hits key mask = []) :
    let a := p.answer key mask
    answerHit a = false ∧ a.getLsbD 1 = false ∧ answerCount a = 0 ∧ answerStale a = !p.reload.isEmpty ∧
      answerIndex a = 0 ∧ answerWpos a = 0 ∧ answerTag a = 0 := by
  rw [Pod.answer, miss]
  exact asaAnswer_reads (by decide) (by decide)

theorem Pod.answer_of_hit (fits : p.entries ≤ 4096) (hit : p.hits key mask = (k, tag) :: r) :
    let a := p.answer key mask
    answerHit a = true ∧ a.getLsbD 1 = decide (2 ≤ r.length + 1) ∧ answerCount a = min 15 (r.length + 1) ∧
      answerStale a = (p.reload.any fun i => decide (i.toNat < k)) ∧ answerIndex a = k ∧ answerWpos a = 0 ∧ answerTag a = tag := by
  have mem : (k, tag) ∈ p.hits key mask := hit ▸ List.mem_cons_self
  obtain ⟨low, -⟩ := (p.mem_hits key mask).mp mem
  rw [Pod.answer, hit]
  exact asaAnswer_reads (Nat.lt_of_lt_of_le low fits) (by decide)

variable (fits : p.entries ≤ 4096)
include fits

/-- HIT, COUNT and MULTI speak of how many entries match. -/
theorem Pod.answer_counts : answerHit (p.answer key mask) = !(p.hits key mask).isEmpty ∧
    answerCount (p.answer key mask) = min 15 (p.hits key mask).length ∧
    (p.answer key mask).getLsbD 1 = decide (2 ≤ (p.hits key mask).length) := by
  cases hits : p.hits key mask with
  | nil =>
    obtain ⟨hit, multi, count, -⟩ := Pod.answer_of_miss hits
    exact ⟨hit, count, multi⟩
  | cons e r =>
    obtain ⟨hit, multi, count, -⟩ := Pod.answer_of_hit fits hits
    exact ⟨hit, count, multi⟩

theorem Pod.answerHit_eq : answerHit (p.answer key mask) = !(p.hits key mask).isEmpty := by
  obtain ⟨hit, -⟩ := Pod.answer_counts (key := key) (mask := mask) fits
  exact hit

theorem Pod.answerHit_iff : answerHit (p.answer key mask) = true ↔ ∃ k tag, p.Matches key mask k tag := by
  rw [Pod.answerHit_eq fits, Bool.not_eq_true', List.isEmpty_eq_false_iff_exists_mem, Prod.exists]
  exact exists_congr fun k => exists_congr fun tag => p.mem_hits key mask

/-- The lowest index wins (R351), and only a reload below it makes its answer stale (R356). -/
theorem Pod.answer_winner (found : p.Matches key mask k tag) (first : ∀ j t, j < k → ¬p.Matches key mask j t) :
    let a := p.answer key mask
    answerIndex a = k ∧ answerTag a = tag ∧ answerWpos a = 0 ∧ (answerStale a = true ↔ ∃ i, i ∈ p.reload ∧ i.toNat < k) := by
  obtain ⟨r, hit⟩ := p.hits_of_first key mask found first
  obtain ⟨-, -, -, stale, index, wpos, winner⟩ := Pod.answer_of_hit fits hit
  exact ⟨index, winner, wpos, by rw [stale]; simp⟩

theorem Pod.answer_miss (miss : answerHit (p.answer key mask) = false) :
    let a := p.answer key mask
    answerIndex a = 0 ∧ answerTag a = 0 ∧ answerCount a = 0 ∧ (answerStale a = true ↔ p.reload ≠ []) := by
  rw [Pod.answerHit_eq fits, Bool.not_eq_false', List.isEmpty_iff] at miss
  obtain ⟨-, -, count, stale, index, -, tag⟩ := Pod.answer_of_miss miss
  exact ⟨index, tag, count, by rw [stale]; simp⟩

/-- COUNT and MULTI count every matching entry (R351). -/
theorem Pod.answer_count : ∃ l : List Nat, l.Nodup ∧ (∀ k, k ∈ l ↔ ∃ tag, p.Matches key mask k tag) ∧
    answerCount (p.answer key mask) = min 15 l.length ∧ ((p.answer key mask).getLsbD 1 = true ↔ 2 ≤ l.length) := by
  obtain ⟨-, count, multi⟩ := Pod.answer_counts (key := key) (mask := mask) fits
  refine ⟨(p.hits key mask).map Prod.fst, ?_, fun k => ?_, ?_, ?_⟩
  · exact (List.pairwise_map.mpr (p.hits_sorted key mask)).imp Nat.ne_of_lt
  · rw [List.mem_map, Prod.exists]
    simp [Pod.mem_hits]
  · rw [count, List.length_map]
  · rw [multi, List.length_map, decide_eq_true_iff]

end Hits

end Sys2Proof.Machine
end

section
/-! What loading, clearing, parity and reloads leave of a pod (11 R342, R346-R348, R353-R358), and the answer as it is sent. -/

namespace Sys2Proof.Machine

/-! ### Pods after an update -/

section Pods

variable (s : State) (pod : BitVec 4)

@[simp] theorem State.pod_setPod_self (v : Pod) : (s.setPod pod v).pod pod = v := AMap.get_insert_self _ _ _ _

theorem State.pod_setPod_ne {j : BitVec 4} (v : Pod) (other : j ≠ pod) : (s.setPod pod v).pod j = s.pod j :=
  AMap.get_insert_ne _ _ _ _ _ other

theorem EventsOnly.asa {s t : State} (h : EventsOnly s t) : t.asa = s.asa := by
  rw [EventsOnly] at h
  rw [h]

end Pods

/-! ### Entries and their slots -/

theorem entrySlots_of_wide {width : BitVec 2} (wide : width = 3) (k : Nat) :
    entrySlots width k = [BitVec.ofNat 12 (2 * k), BitVec.ofNat 12 (2 * k + 1)] := if_pos wide

theorem entrySlots_of_narrow {width : BitVec 2} (narrow : width ≠ 3) (k : Nat) : entrySlots width k = [BitVec.ofNat 12 k] := if_neg narrow

/-- An entry of which every slot is invalid is no entry. -/
theorem Pod.entry?_of_invalid {p : Pod} {k : Nat}
    (invalid : ∀ n, n ∈ entrySlots p.width k → List.find? (fun e => e.1 == n && e.2.valid) p.slots = none) : p.entry? k = none := by
  unfold Pod.entry?
  by_cases wide : p.width = 3
  · rw [entrySlots_of_wide wide] at invalid ⊢
    rw [List.map_cons, invalid _ List.mem_cons_self]
  · rw [entrySlots_of_narrow wide] at invalid ⊢
    rw [List.map_cons, invalid _ List.mem_cons_self]

theorem entrySlots_wide_ne (k : Nat) : BitVec.ofNat 12 (2 * k) ≠ BitVec.ofNat 12 (2 * k + 1) := by
  intro same
  have := congrArg BitVec.toNat same
  rw [BitVec.toNat_ofNat, BitVec.toNat_ofNat] at this
  omega

/-- The two slots of a 320-bit entry hold its key between them. -/
theorem setWidth_halves (x : BitVec 320) :
    (x.setWidth 160).setWidth 320 ||| ((x >>> 160).setWidth 160).setWidth 320 <<< 160 = x := by
  refine BitVec.eq_of_getLsbD_eq fun i inside => ?_
  rw [BitVec.getLsbD_or, BitVec.getLsbD_shiftLeft, BitVec.getLsbD_setWidth, BitVec.getLsbD_setWidth, BitVec.getLsbD_setWidth,
    BitVec.getLsbD_setWidth, BitVec.getLsbD_ushiftRight]
  by_cases low : i < 160
  · simp [low, inside]
  · have high : i - 160 < 160 := by omega
    have back : 160 + (i - 160) = i := by omega
    simp [low, inside, high, back, Nat.lt_trans high]

/-- An entry that was written reads as its record, cut to one slot below 320 bits (R342). -/
theorem Pod.entry?_written {p : Pod} {m : AMap (BitVec 12) Slot} {k : Nat} {key : BitVec 320} {tag : BitVec 32}
    (written : p.slots = (writeEntry p.width k key tag true).foldl (fun m e => AMap.insert m e.1 e.2) m) :
    p.entry? k = some (if p.width = 3 then key else (key.setWidth 160).setWidth 320, tag) := by
  unfold Pod.entry?
  rw [written, writeEntry]
  by_cases wide : p.width = 3
  · have apart := entrySlots_wide_ne k
    rw [entrySlots_of_wide wide, if_pos wide]
    simp [AMap.insert, AMap.erase, apart, apart.symm, setWidth_halves]
  · rw [entrySlots_of_narrow wide, if_neg wide]
    simp [AMap.insert]

/-! ### Parity errors -/

/-- The pod that a parity error in an entry leaves (R355; log 266). -/
def Pod.invalidated (p : Pod) (k : Nat) : Pod :=
  if p.entries ≤ k then { p with slots := p.slots.filter fun e => !(entrySlots p.width k).contains e.1 }
  else { p with
    slots := p.slots.mapVals fun n x => if (entrySlots p.width k).contains n then { x with valid := false } else x
    reload := if p.reload.contains (BitVec.ofNat 12 k) then p.reload else BitVec.ofNat 12 k :: p.reload }

theorem Pod.invalidated_of_past {p : Pod} {k : Nat} (past : p.entries ≤ k) :
    p.invalidated k = { p with slots := p.slots.filter fun e => !(entrySlots p.width k).contains e.1 } := if_pos past

theorem Pod.invalidated_of_lt {p : Pod} {k : Nat} (low : k < p.entries) : p.invalidated k = { p with
    slots := p.slots.mapVals fun n x => if (entrySlots p.width k).contains n then { x with valid := false } else x
    reload := if p.reload.contains (BitVec.ofNat 12 k) then p.reload else BitVec.ofNat 12 k :: p.reload } :=
  if_neg (Nat.not_le.mpr low)

theorem Pod.entry?_invalidated (p : Pod) (k : Nat) : (p.invalidated k).entry? k = none := by
  refine Pod.entry?_of_invalid fun n slot => List.find?_eq_none.mpr fun e mem here => ?_
  obtain ⟨rfl, valid⟩ : e.1 = n ∧ e.2.valid = true := by simpa using here
  by_cases past : p.entries ≤ k
  · rw [Pod.invalidated_of_past past] at slot mem
    have kept := (List.mem_filter.mp mem).2
    simp [slot] at kept
  · rw [Pod.invalidated_of_lt (Nat.not_le.mp past)] at slot mem
    obtain ⟨x, -, rfl⟩ := List.mem_map.mp mem
    simp [slot] at valid

theorem Pod.reload_invalidated_of_past {p : Pod} {k : Nat} (past : p.entries ≤ k) : (p.invalidated k).reload = p.reload := by
  rw [Pod.invalidated_of_past past]

theorem Pod.mem_reload_invalidated {p : Pod} {k : Nat} (low : k < p.entries) (i : BitVec 12) :
    i ∈ (p.invalidated k).reload ↔ i = BitVec.ofNat 12 k ∨ i ∈ p.reload := by
  rw [Pod.invalidated_of_lt low]
  dsimp only
  split
  · next known => exact ⟨.inr, fun h => h.elim (fun eq => eq ▸ List.contains_iff_mem.mp known) id⟩
  · exact List.mem_cons

theorem Pod.reload_subset_invalidated (p : Pod) (k : Nat) : p.reload ⊆ (p.invalidated k).reload := by
  intro i mem
  by_cases past : p.entries ≤ k
  · rwa [Pod.reload_invalidated_of_past past]
  · exact (Pod.mem_reload_invalidated (Nat.not_le.mp past) i).mpr (.inr mem)

/-- A parity error's event leaves the pods as the invalidation does. -/
theorem State.asa_parityError (s : State) (pod : BitVec 4) (k : Nat) :
    (s.parityError pod k).asa = (s.setPod pod ((s.pod pod).invalidated k)).asa :=
  ((State.raiseDevice_rest _ 322 0xFF (pod.setWidth 64) ((BitVec.ofNat 12 k).setWidth 64)).trans (State.count_rest _ ctrAsaPe)).asa

theorem State.pod_parityError (s : State) (pod j : BitVec 4) (k : Nat) :
    (s.parityError pod k).pod j = if j = pod then (s.pod pod).invalidated k else s.pod j := by
  rw [State.pod, State.asa_parityError]
  exact AMap.get_insert _ _ _ _ _

/-! ### The commands of a pod -/

section Commands

variable {s : State} {pod : BitVec 4}

section Searches

variable {key mask : BitVec 320} (serving : (s.pod pod).st = .serving)
include serving

theorem execAsaSearch_sound : exec (.asaSearch pod key mask false) s = .next (s.emit (.asaAnswer pod ((s.pod pod).answer key mask))) := by
  rw [exec_asaSearch, execAsaSearch]
  exact if_neg fun other => other serving

theorem execAsaSearch_flawed (hit : answerHit ((s.pod pod).answer key mask) = true) : exec (.asaSearch pod key mask true) s = .next
    ((s.parityError pod (answerIndex ((s.pod pod).answer key mask))).emit (.asaAnswer pod ((s.pod pod).answer key mask ||| 0x40))) := by
  rw [exec_asaSearch, execAsaSearch]
  exact (if_neg fun other => other serving).trans (if_pos hit)

theorem execParityScan_eq (slot : BitVec 12) (upset : BitVec 196) :
    let p := s.pod pod
    let y := (AMap.get p.slots slot Slot.blank).upset upset
    let read := s.setPod pod { p with slots := if y = Slot.blank then p.slots else AMap.insert p.slots slot y, scanPos := slot + 1 }
    let past := if slot = 4095 then { read with asa := { read.asa with period := read.asa.nextPeriod } } else read
    exec (.parityScan pod slot upset) s = .next (
      if y.parity = slotParity y.key y.tag then past else past.parityError pod (slotEntry p.width slot)) := by
  rw [exec_parityScan, execParityScan]
  exact (if_neg fun other => other serving).trans (apply_ite _ _ _ _).symm

end Searches

theorem execPodClear_eq (clearing : (s.pod pod).st = .clearing) : exec (.podClear pod) s = .next (s.setPod pod Pod.free) := by
  rw [exec_podClear, execPodClear, if_pos clearing]

section Owned

variable {t : Tag} {n : BitVec 8} {d : AsaDesc} (owner : (s.pod pod).owner = some (t, n)) (image : s.podImage (s.pod pod) = some d)
include owner image

/-- The last entry is written: the pod is SERVING, and with the last of its query's pods the query enters RUNNING (R346, R347). -/
theorem execPodLoad_eq (loading : (s.pod pod).st = .loading) {q : Query} :
    let slots := d.recs.zipIdx.flatMap fun e => writeEntry (s.pod pod).width e.2 e.1.1 e.1.2 true
    let served := (s.setPod pod { s.pod pod with st := .serving, slots := slots, reload := [], scanPos := 0 }).answerReady
    served.query? t = some q → exec (.podLoad pod false) s = .next (
      if ∀ e, e ∈ q.pods → (served.pod e.2).st = .serving then served.enterRunning t .ok else served) := by
  dsimp only
  intro found
  rw [exec_podLoad, execPodLoad]
  dsimp only
  rw [owner] at found ⊢
  rw [image]
  refine (if_neg fun other => other loading).trans ((if_neg Bool.false_ne_true).trans (congrArg Host.Outcome.next (ite_congr (propext ?_) (fun _ => rfl) fun _ => rfl)))
  rw [found, Option.any_some, List.all_eq_true]
  simp only [beq_iff_eq]

theorem execPodLoad_lost (loading : (s.pod pod).st = .loading) : exec (.podLoad pod true) s = .next (s.stopQuery t stDataLost) := by
  rw [exec_podLoad, execPodLoad, owner, image]
  exact if_neg fun other => other loading

variable {entry : BitVec 12} {word : BitVec 320 × BitVec 32} (record : d.recs[entry.toNat]? = some word)
  (serving : (s.pod pod).st = .serving) (due : entry ∈ (s.pod pod).reload)
include record serving due

theorem execParityReload_of_due (lost : Bool) : exec (.parityReload pod entry lost) s =
    if lost then .next (s.stopQuery t stDataLost) else .next (s.setPod pod { s.pod pod with
      slots := (writeEntry (s.pod pod).width entry.toNat word.1 word.2 true).foldl (fun m e => AMap.insert m e.1 e.2) (s.pod pod).slots
      reload := (s.pod pod).reload.filter (· ≠ entry) }) := by
  obtain ⟨key, tag⟩ := word
  rw [exec_parityReload, execParityReload]
  dsimp only
  rw [owner, image, Option.bind_some, record]
  refine if_neg ?_
  simp [serving, due]

end Owned

end Commands

end Sys2Proof.Machine
end

section
/-! The thermal step (11 R359, R360). -/

namespace Sys2Proof.Machine

/-- The temperature at which a step is entered. -/
def stepEnters (j : Nat) : Int := if j = 1 then 95 else if j = 2 then 100 else 110

/-- Step `j` holds at a temperature, coming from a step: it is entered, or it is not yet left. -/
def StepReached (step : Nat) (t : Int) (j : Nat) : Prop :=
  1 ≤ j ∧ j ≤ 3 ∧ (stepEnters j ≤ t ∨ (j ≤ step ∧ stepEnters j - 3 ≤ t))

theorem stepAt_le_three (step : Nat) (t : Int) : stepAt step t ≤ 3 := by
  have ups : (if 110 ≤ t then 3 else if 100 ≤ t then 2 else if 95 ≤ t then 1 else 0) ≤ 3 := by
    (repeat' split) <;> decide
  have downs : (if 3 ≤ step && decide (107 ≤ t) then 3 else if 2 ≤ step && decide (97 ≤ t) then 2
      else if 1 ≤ step && decide (92 ≤ t) then 1 else 0) ≤ 3 := by
    (repeat' split) <;> decide
  exact Nat.max_le.mpr ⟨ups, downs⟩

/-- The step after an evaluation is at or above a step just when that step holds. -/
theorem le_stepAt_iff {step : Nat} {t : Int} {j : Nat} (pos : 1 ≤ j) (le : j ≤ 3) : j ≤ stepAt step t ↔ StepReached step t j := by
  have ups : j ≤ (if 110 ≤ t then 3 else if 100 ≤ t then 2 else if 95 ≤ t then 1 else 0) ↔ stepEnters j ≤ t := by
    unfold stepEnters
    (repeat' split) <;> omega
  have downs : j ≤ (if 3 ≤ step && decide (107 ≤ t) then 3 else if 2 ≤ step && decide (97 ≤ t) then 2
      else if 1 ≤ step && decide (92 ≤ t) then 1 else 0) ↔ j ≤ step ∧ stepEnters j - 3 ≤ t := by
    simp only [Bool.and_eq_true, decide_eq_true_eq]
    unfold stepEnters
    (repeat' split) <;> omega
  have either (a b : Nat) : j ≤ max a b ↔ j ≤ a ∨ j ≤ b := by omega
  rw [stepAt, either, ups, downs, StepReached]
  exact ⟨fun reached => ⟨pos, le, reached⟩, fun ⟨_, _, reached⟩ => reached⟩

theorem le_stepAt {step : Nat} {t : Int} {j : Nat} (reached : StepReached step t j) : j ≤ stepAt step t := by
  have ⟨pos, le, _⟩ := reached
  exact (le_stepAt_iff pos le).mpr reached

theorem stepReached_stepAt {step : Nat} {t : Int} (moved : stepAt step t ≠ 0) : StepReached step t (stepAt step t) :=
  (le_stepAt_iff (Nat.one_le_iff_ne_zero.mpr moved) (stepAt_le_three step t)).mp (Nat.le_refl _)

/-- The step as the register holds it. -/
theorem toNat_ofNat_stepAt (step : Nat) (t : Int) : (BitVec.ofNat 2 (stepAt step t)).toNat = stepAt step t := by
  have := stepAt_le_three step t
  rw [BitVec.toNat_ofNat]
  omega

theorem execAsaStepEvaluation_eq {s : State} (read : (s.power.temps.drop 24).take 4 ≠ []) :
    let n : BitVec 2 := BitVec.ofNat 2 (stepAt s.asa.step.toNat (tjmax ((s.power.temps.drop 24).take 4)))
    exec .asaStepEvaluation s = .next (if n = s.asa.step then s else
      State.raiseDevice { s with asa := { s.asa with step := n } } 323 0xFF (n.setWidth 64) 0) := by
  have small := toNat_ofNat_stepAt s.asa.step.toNat (tjmax ((s.power.temps.drop 24).take 4))
  rw [exec_asaStepEvaluation, execAsaStepEvaluation]
  dsimp only
  rw [if_neg (by rwa [List.isEmpty_iff]), apply_ite Host.Outcome.next]
  refine ite_congr (propext ?_) (fun _ => rfl) fun _ => ?_
  · rw [← small, BitVec.toNat_inj]
    rw [small]
  · rw [← BitVec.ofNat_toNat, small]

end Sys2Proof.Machine
end

section
/-! The cascade (11 R361, R365-R367; 22 R654): its configuration, the layout and the check of a result word, and what a word's arrival
does. -/

namespace Sys2Proof.Machine

/-! ### Configuration -/

section Configuration

variable {s : State} {inst : BitVec 8} {value : BitVec 32} (manager : s.managerAccess inst = true) (en : value.getLsbD 0 = true)
include manager en

theorem execAsaCascfgEnable_eq : exec (.asaCascfgEnable inst value) s = .next (s.writeCascfg value) := by
  rw [exec_asaCascfgEnable, execAsaCascfgEnable, manager, en]
  rfl

end Configuration

/-- A write of ASA_CASCFG by the fields it writes: ignored while the cascade is active or when POS and DEPTH are out of range. -/
theorem State.writeCascfg_eq (s : State) (value : BitVec 32) :
    let depth : BitVec 4 := (value >>> 8).setWidth 4
    let pos : BitVec 3 := (value >>> 4).setWidth 3
    s.writeCascfg value = if s.casActive = true ∨ depth = 0 ∨ 8 < depth.toNat ∨ depth.toNat ≤ pos.toNat then s else
      { s with asa := { s.asa with
        casEn := value.getLsbD 0, casPos := pos, casDepth := depth, trained := false, chkRun := 0, broken := false, slots := [], members := []
        known := [] } } := by
  have depth : ((value >>> 8).setWidth 4 : BitVec 4).toNat = bits value.toNat 11 8 := toNat_setWidth_ushiftRight value 8 4
  have pos : ((value >>> 4).setWidth 3 : BitVec 3).toNat = bits value.toNat 6 4 := toNat_setWidth_ushiftRight value 4 3
  rw [State.writeCascfg, ← depth, ← pos, BitVec.ofNat_toNat, BitVec.ofNat_toNat, BitVec.setWidth_eq, BitVec.setWidth_eq]
  refine ite_congr (propext ?_) (fun _ => rfl) fun _ => rfl
  rw [Bool.or_eq_true, Bool.or_eq_true, Bool.or_eq_true, decide_eq_true_iff, decide_eq_true_iff, decide_eq_true_iff, ← BitVec.toNat_inj,
    or_assoc, or_assoc]
  rfl

theorem execCascadePhaseTraining_eq {s : State} (en : s.asa.casEn = true) :
    exec .cascadePhaseTraining s = .next { s with asa := { s.asa with trained := true } } := by
  rw [exec_cascadePhaseTraining, execCascadePhaseTraining, if_pos en]

/-! ### Result words -/

theorem sum_lanes_lt (f : Nat → Bool) : ((List.range 4).map fun j => if f j then 2 ^ j else 0).sum < 16 := by
  have lane (j : Nat) : (if f j then 2 ^ j else 0) ≤ 2 ^ j := by
    split
    · exact Nat.le_refl _
    · exact Nat.zero_le _
  have h0 := lane 0
  have h1 := lane 1
  have h2 := lane 2
  have h3 := lane 3
  simp only [List.range_succ, List.range_zero, List.nil_append, List.cons_append, List.map_cons, List.map_nil, List.sum_cons, List.sum_nil]
  omega

theorem casChk_lt (n : Nat) : casChk n < 16 := sum_lanes_lt _

/-- A result word reads as the result it was made of (R365). -/
theorem casRead_word {r : CasResult} (ctag : BitVec 4) (count : r.count < 16) (wpos : r.wpos < 8) (widx : r.widx < 4096) :
    casRead (r.word ctag) = r := by
  obtain ⟨hit, n, k, stale, i, tag⟩ := r
  dsimp only at count wpos widx
  have := tag.isLt
  have := ctag.isLt
  have := Bool.asNat_le_one hit
  have := Bool.asNat_le_one (decide (2 ≤ n))
  have := Bool.asNat_le_one stale
  have chk := casChk_lt (1 + 2 * Bool.asNat hit + 4 * Bool.asNat (decide (2 ≤ n)) + 8 * n + 2 ^ 7 * k +
    2 ^ 10 * Bool.asNat stale + 2 ^ 11 * ctag.toNat + 2 ^ 15 * i + 2 ^ 32 * tag.toNat)
  rw [CasResult.word]
  dsimp only
  revert chk
  generalize casChk _ = c
  intro chk
  generalize word : 1 + 2 * Bool.asNat hit + 4 * Bool.asNat (decide (2 ≤ n)) + 8 * n + 2 ^ 7 * k +
    2 ^ 10 * Bool.asNat stale + 2 ^ 11 * ctag.toNat + 2 ^ 15 * i + 2 ^ 32 * tag.toNat + 2 ^ 28 * c = w
  have whole : (BitVec.ofNat 64 w).toNat = w := by
    rw [BitVec.toNat_ofNat]
    omega
  have reads : bits w 1 1 = Bool.asNat hit ∧ bits w 6 3 = n ∧ bits w 9 7 = k ∧ bits w 10 10 = Bool.asNat stale ∧ bits w 26 15 = i ∧
      w / 2 ^ 32 % 2 ^ 32 = tag.toNat := by
    dsimp only [bits]
    refine ⟨?_, ?_, ?_, ?_, ?_, ?_⟩ <;> omega
  obtain ⟨hits, counts, positions, stales, indices, tags⟩ := reads
  rw [casRead, getLsbD_eq_decide_bits, getLsbD_eq_decide_bits, whole, hits, counts, positions, stales, indices, Bool.decide_asNat_eq_one,
    Bool.decide_asNat_eq_one]
  congr 1
  exact BitVec.eq_of_toNat_eq ((toNat_setWidth_ushiftRight _ 32 32).trans (by rw [whole, tags]))

/-- A position's own hit wins; a hit, a count and a stale answer of either are the merge's (R366). -/
theorem casMerge_winner (pos : Nat) (mine : BitVec 64) (w : CasResult) :
    let r := casMerge pos mine w
    if answerHit mine then r.wpos = pos ∧ r.widx = answerIndex mine ∧ r.tag = answerTag mine
    else r.wpos = w.wpos ∧ r.widx = w.widx ∧ r.tag = w.tag := by
  dsimp only [casMerge]
  split
  · exact ⟨rfl, rfl, rfl⟩
  · exact ⟨rfl, rfl, rfl⟩

/-! ### The arrival of a result word -/

/-- A word that does not check is one more of a run; the third in a row breaks the cascade (R367). -/
def State.missCounted (s : State) : State :=
  let u := { s with asa := { s.asa with chkRun := s.asa.chkRun + 1 } }
  if 3 ≤ u.asa.chkRun then u.breakCascade else u

/-- The slot whose turn it is, if one is in flight, takes a miss with STALE 1. -/
def State.missAnswered (s : State) : State :=
  match s.asa.slots with
  | [] => s
  | c :: rest => State.casAnswer { s with asa := { s.asa with slots := rest } } c (casMiss true)

theorem State.missAnswered_of_empty {s : State} (empty : s.asa.slots = []) : s.missAnswered = s := by
  rw [State.missAnswered, empty]

theorem State.missAnswered_of_flight {s : State} {c : CasSlot} {rest : List CasSlot} (flight : s.asa.slots = c :: rest) :
    s.missAnswered = State.casAnswer { s with asa := { s.asa with slots := rest } } c (casMiss true) := by
  rw [State.missAnswered, flight]

theorem State.asa_cascadeErr_count (s : State) (casId : BitVec 32) : ((s.cascadeErr casId).count ctrCasChk).asa = s.asa :=
  ((State.raiseDevice_rest s 324 0xFF (casId.setWidth 64) 0).trans (State.count_rest _ ctrCasChk)).asa

section Words

variable {s : State} {w : BitVec 64} {c : CasSlot} {rest : List CasSlot} (en : s.asa.casEn = true)
include en

section Sound

variable (sound : ((w >>> 28).setWidth 4 : BitVec 4).toNat = casChk w.toNat)
include sound

/-- A word that carries no result, or that meets no slot in flight, ends the run of words that did not check and nothing else. -/
theorem execCascadeResultWord_idle (idle : w.getLsbD 0 = false ∨ s.asa.slots = []) :
    exec (.cascadeResultWord w) s = .next { s with asa := { s.asa with chkRun := 0 } } := by
  have none : (if w.getLsbD 0 = true then s.asa.slots else []) = [] := by
    rcases idle with unset | empty
    · rw [unset, if_neg Bool.false_ne_true]
    · rw [empty, ite_self]
  rw [toNat_setWidth_ushiftRight] at sound
  rw [exec_cascadeResultWord, execCascadeResultWord, en]
  refine (if_neg Bool.false_ne_true).trans ((if_pos sound).trans ?_)
  dsimp only
  rw [none]

theorem execCascadeResultWord_answer (vld : w.getLsbD 0 = true) (flight : s.asa.slots = c :: rest) : exec (.cascadeResultWord w) s =
    .next (State.casAnswer { s with asa := { s.asa with chkRun := 0, slots := rest } } c (casRead w)) := by
  rw [toNat_setWidth_ushiftRight] at sound
  rw [exec_cascadeResultWord, execCascadeResultWord, en]
  refine (if_neg Bool.false_ne_true).trans ((if_pos sound).trans ?_)
  dsimp only
  rw [if_pos vld, flight]

end Sound

section Unsound

variable (unsound : ¬((w >>> 28).setWidth 4 : BitVec 4).toNat = casChk w.toNat)
include unsound

/-- ASA_CASCADE_ERR names the image of the slot whose turn it is, or, with none in flight, of the CTAG that the word carries. -/
theorem execCascadeResultWord_unsound {ctag : BitVec 4}
    (named : ((s.asa.slots.head?).map (·.ctag)).getD (BitVec.ofNat 4 (bits w.toNat 14 11)) = ctag) : exec (.cascadeResultWord w) s =
      .next ((s.cascadeErr (s.casIdOf ctag)).count ctrCasChk).missAnswered.missCounted := by
  subst named
  rw [toNat_setWidth_ushiftRight] at unsound
  rw [exec_cascadeResultWord, execCascadeResultWord, en]
  refine (if_neg Bool.false_ne_true).trans ((if_neg unsound).trans ?_)
  rfl

theorem execCascadeResultWord_miss (flight : s.asa.slots = c :: rest) :
    let e := (s.cascadeErr (s.casIdOf c.ctag)).count ctrCasChk
    exec (.cascadeResultWord w) s = .next (State.casAnswer { e with asa := { e.asa with slots := rest } } c (casMiss true)).missCounted := by
  have slots := (congrArg Asa.slots (s.asa_cascadeErr_count (s.casIdOf c.ctag))).trans flight
  rw [execCascadeResultWord_unsound en unsound (ctag := c.ctag) (by rw [flight]; rfl), State.missAnswered_of_flight slots]

theorem execCascadeResultWord_stray (empty : s.asa.slots = []) : exec (.cascadeResultWord w) s =
    .next ((s.cascadeErr (s.casIdOf ((w >>> 11).setWidth 4))).count ctrCasChk).missCounted := by
  have ctag : BitVec.ofNat 4 (bits w.toNat 14 11) = (w >>> 11).setWidth 4 :=
    BitVec.eq_of_toNat_eq ((BitVec.toNat_ofNat _ _).trans ((Nat.mod_mod _ _).trans (toNat_setWidth_ushiftRight w 11 4).symm))
  have slots := (congrArg Asa.slots (s.asa_cascadeErr_count (s.casIdOf ((w >>> 11).setWidth 4)))).trans empty
  rw [execCascadeResultWord_unsound en unsound (ctag := (w >>> 11).setWidth 4) (by rw [empty]; exact ctag), State.missAnswered_of_empty slots]

end Unsound

end Words

end Sys2Proof.Machine
end

section
/-! The Associative Search Array: answers, loading and clearing, parity and reloads, the thermal step and the cascade. -/

namespace Sys2Proof.Machine

/-- Settles O51: the clauses in their order, each by the lemma about the answer, the pod's command, the step or the cascade. -/
theorem podsAnswerReloadAndStep : Obligations.PodsAnswerReloadAndStep := by
  unfold Obligations.PodsAnswerReloadAndStep
  intro s pod entry key mask
  refine ⟨fun fits => ⟨Pod.answerHit_iff fits, fun k tag => Pod.answer_winner fits, Pod.answer_miss fits, Pod.answer_count fits⟩,
    fun serving => ⟨execAsaSearch_sound serving, execAsaSearch_flawed serving⟩,
    fun t n d owner image loading => ⟨fun q => execPodLoad_eq owner image loading, execPodLoad_lost owner image loading⟩,
    fun clearing => ?clear, fun k low => ?parity, fun slot upset serving => execParityScan_eq serving slot upset,
    fun t n d word owner image record serving due => ?reload, fun read => ?step,
    fun inst value manager en => ?configuration, execCascadePhaseTraining_eq,
    fun k mine w => ⟨rfl, rfl, rfl, casMerge_winner k mine w⟩, fun r ctag => casRead_word ctag,
    fun w en => ⟨execCascadeResultWord_idle en, fun sound vld c rest => execCascadeResultWord_answer en sound vld,
      fun unsound c rest => execCascadeResultWord_miss en unsound, execCascadeResultWord_stray en⟩⟩
  case clear =>
    refine ⟨_, execPodClear_eq clearing, ?_, ?_, ?_, fun j other => s.pod_setPod_ne pod _ other⟩ <;> rw [State.pod_setPod_self]
    · rfl
    · rfl
  case parity =>
    have here : (s.parityError pod k).pod pod = (s.pod pod).invalidated k := (State.pod_parityError s pod pod k).trans (if_pos rfl)
    dsimp only
    rw [here]
    exact ⟨(s.pod pod).entry?_invalidated k, fun low => (Pod.mem_reload_invalidated low _).mpr (.inl rfl), Pod.reload_invalidated_of_past,
      fun i mem => (s.pod pod).reload_subset_invalidated k mem, fun j other => (State.pod_parityError s pod j k).trans (if_neg other)⟩
  case reload =>
    have reload := execParityReload_of_due owner image record serving due
    refine ⟨reload true, _, reload false, ?_, ?_, fun i => ?_⟩ <;> rw [State.pod_setPod_self]
    · exact Pod.entry?_written rfl
    · rw [List.mem_filter, decide_eq_true_iff]
  case step =>
    have small := toNat_ofNat_stepAt s.asa.step.toNat (tjmax ((s.power.temps.drop 24).take 4))
    refine ⟨_, fun j reached => ?_, fun moved => ?_, execAsaStepEvaluation_eq read⟩
    · rw [small]
      exact le_stepAt reached
    · rw [small]
      refine stepReached_stepAt fun still => moved ?_
      rw [still]
      rfl
  case configuration =>
    have write := (execAsaCascfgEnable_eq manager en).trans (congrArg Host.Outcome.next (s.writeCascfg_eq value))
    dsimp only at write
    rw [en] at write
    exact ⟨fun kept => write.trans (congrArg _ (if_pos kept)), fun taken => write.trans (congrArg _ (if_neg taken))⟩

end Sys2Proof.Machine
end
